-- ==== Sys2Proof/Word.lean ====
section
/-! DEFINITION. The word types of the AX64 (R1, R59): a lane is 32 bits wide, memory is addressed in bytes. -/

namespace Sys2Proof

/-- A 32-bit lane value, uniform register or instruction word (R1, R33). -/
abbrev Word := BitVec 32

/-- One byte of a memory (R234). -/
abbrev Byte := BitVec 8

end Sys2Proof
end

