-- ==== Sys2Proof/Config.lean ====
section
/-! DEFINITION. What the spec leaves to an implementation or leaves open: free values. Each is an opaque constant with
no body, so that no proof sees a value of it; a statement that mentions one holds whatever it is. The log entry named
at each says which words of the spec leave it open. -/

namespace Sys2Proof.Config

/-- A fresh open 32-bit value: applied to the counter `freeCount` of the state, which each use advances. -/
opaque freeWord : Nat → Word

/-- The value a special-function unit returns for a function number and an operand, where R74 gives only a bound:
"a fixed function of its input" whose value inside the bound is not architected (log entry 7). -/
opaque sfn : Nat → Word → Word

/-- The link of a die that an access to a place outside its stack group, or to another die, crosses: R211 fixes routes and
does not say which (log entry 21). The die, and the stack group or 16 plus the die it goes to. -/
opaque linkOf : Nat → Nat → Nat

/-- The bytes a line encrypted under one key reads as under another, without authentication (R259 to R261;
log entry 20): the key's number, the line's address, the key slot and generation it was written under, the sixteen bytes of the block
that were written, the byte's place in the line. -/
opaque wrongKeyByte : Nat → Nat → Nat × Nat → List Byte → Nat → Byte

/-- The plaintext of a sealed payload that authenticates under a session's key, sequence number and direction
(R364; log entry 40). -/
opaque sealOpen : Nat → Nat → List Byte → Option (List Byte)

/-- What a message sealed under a session's key and nonce looks like: payload and tag (R364; log entry 40). -/
opaque sealClose : Nat → Nat → List Byte → List Byte

/-- How a request, an acknowledgement or a contribution fills a payload, which the spec does not give (R362; log entry 40). -/
opaque message : List Nat → List Byte

/-- Whether a box test reports a hit where no point of the ray's interval lies in the box, and the near bound by which
slots are ordered: R302 leaves both to a fixed function of the record and the box (log entry 36). -/
opaque boxExtra : List Word → List Word → Bool

opaque boxNear : List Word → List Word → Nat

/-- A digest, a signature or a certificate of the SPDM responder (R376, R377; log entry 41): which object, over which
bytes. -/
opaque cryptoBytes : Nat → List Byte → List Byte

/-- Whether a MAC or a signature from outside verifies (R376; log entry 41). -/
opaque cryptoVerify : Nat → List Byte → List Byte → Bool

/-- The temperature of an island, in degrees, in a second that ends at a time (R392; log entry 43): what its sensor gives. -/
opaque islandTemp : Nat → Nat → Nat

end Sys2Proof.Config
end

