-- ==== Sys2Proof/Syntax.lean ====
section
/-! DEFINITION. The syntax of the machine: the 154 instruction words of R44 to R47 and the 119 hardware, host and
system-software events of the operation table, one constructor a row. An instruction word carries its operands as
typed names; the literal of the packet (the sill, R28) stands inside the operand that reads it. The chain bit C belongs
to the packet (R30) and is no part of an instruction. Events name the unit they happen in by number. -/

namespace Sys2Proof

/-! ### Operand classes (R34, R35) -/

/-- Class V read as a source. -/
inductive VSrc where
  | reg (n : Fin 120)
  | latch (k : Fin 4)
  | zero
  | lit (x : Word)
  | lane
  deriving DecidableEq, Repr

/-- Class V as the destination of an X- or Y-pipe result (R35: 120-123, 125 and 126 are no destinations). -/
inductive VDst where
  | reg (n : Fin 120)
  | discard
  deriving DecidableEq, Repr

/-- Class S read as a source. -/
inductive SSrc where
  | reg (n : Fin 64)
  | zero
  | lit (x : Word)
  deriving DecidableEq, Repr

/-- Class S as a destination. -/
inductive SDst where
  | reg (n : Fin 64)
  | discard
  deriving DecidableEq, Repr

/-- A uniform register or code 124, where the rule shuts out the literal (R39 LOOP, R153, R218, R221, R273, R357). -/
inductive SOpt where
  | reg (n : Fin 64)
  | zero
  deriving DecidableEq, Repr

abbrev PReg := Fin 8
abbrev CReg := Fin 32

/-! ### Modifiers -/

/-- M of IADD and ISUB (R79). -/
inductive SatMode where
  | wrap | sat | usat
  deriving DecidableEq, Repr

/-- The addend of IMAD and FFMA (R80, R92). -/
inductive Addend where
  | dest | y0 | y1 | lit (x : Word)
  deriving DecidableEq, Repr

/-- RM (R43). -/
inductive Rm where
  | rn | rz | ru | rd
  deriving DecidableEq, Repr

/-- COND of ISET and SSET (R43). -/
inductive ICond where
  | eq | ne | lt | le | gt | ge | ltu | leu | gtu | geu
  deriving DecidableEq, Repr

/-- COND of FSET (R43). -/
inductive FCond where
  | eq | ne | lt | le | gt | ge | un | ord
  deriving DecidableEq, Repr

/-- M of the compare layout (R37). -/
inductive Comb where
  | set | and | or
  deriving DecidableEq, Repr

/-- M of IDIV (R81). -/
inductive DivMode where
  | quo | quoU | rem | remU
  deriving DecidableEq, Repr

/-- M[0] of the packed-half words (R97). -/
inductive HFmt where
  | f16 | bf16
  deriving DecidableEq, Repr

/-- The formats of CVT (R47), in DFMT order. -/
inductive CFmt where
  | f32 | f16 | bf16 | f8e4 | f8e5 | e8m0 | i32 | u32 | i16 | u16 | i8 | u8
  deriving DecidableEq, Repr

/-- M of SSHL (R89). -/
inductive ShMode where
  | left | lsr | asr
  deriving DecidableEq, Repr

/-- M of SHFL (R116). -/
inductive ShflMode where
  | idx | up | dn | xor
  deriving DecidableEq, Repr

/-- M of VOTE (R117). -/
inductive VoteMode where
  | all | any | bal | eq
  deriving DecidableEq, Repr

/-- The operation of LRED and LSCAN (R47, R118). -/
inductive LaneOp where
  | add | min | max | umin | umax | and | or | xor | fadd | fmin | fmax
  deriving DecidableEq, Repr

/-- FN of SFN (R47). -/
inductive SfnOp where
  | exp2 | log2 | rcp | rsq | sqrt | sin | cos | tanh | sig | gelu
  deriving DecidableEq, Repr

/-- One increment field of LOOP's sill (R109); `bad` is a field that LOOP refuses when it is to take effect (R36, step 4). -/
inductive LoopInc where
  | none
  | addNext (r : Fin 63)
  | inc (r : Fin 64)
  | dec (r : Fin 64)
  | bad (f : Fin 128)
  deriving DecidableEq, Repr

/-- Whether R109 refuses a field. -/
def LoopInc.isBad : LoopInc → Bool
  | .bad _ => true
  | _ => false

/-- The per-pane control and status registers (R17). -/
inductive Csr where
  | xstat | xctl | trapvecL | trapvecH | stksaveL | stksaveH | stklim | stkdep | bconf | paneinfo | teamid | gridid
  | spds
  deriving DecidableEq, Repr

/-- ORD of FENCE (R238). -/
inductive FOrd where
  | rel | acq | ar
  deriving DecidableEq, Repr

/-- ORD of a memory word (R163) and of a barrier word (R151): none as well. -/
inductive Ord where
  | none | rel | acq | ar
  deriving DecidableEq, Repr

/-- The scopes, narrow to wide (R8, R236). -/
inductive Scope where
  | pane | team | core | clu | die | pkg | sys
  deriving DecidableEq, Repr

/-- SIZE of a memory word (R163). -/
inductive MSize where
  | w | b | h | d | q
  deriving DecidableEq, Repr

/-- OPC of an atomic or a reduction (R168). -/
inductive AOp where
  | add | min | max | umin | umax | and | or | xor | fadd | fmin | fmax | hadd2 | bhadd2 | xchg | cas
  deriving DecidableEq, Repr

/-- The modifier word of a memory-family word (R163). `scale` is the exponent: .X1 to .X16 are 0 to 4. -/
structure MMod where
  opc   : AOp := .add
  scope : Scope := .pane
  ord   : Ord := .none
  st    : Bool := false
  sx    : Bool := false
  p     : Bool := false
  scale : Fin 5 := 0
  size  : MSize := .w
  deriving DecidableEq, Repr

/-- The modifier word of TEX (R172). -/
structure TexMod where
  clamp : Bool := false
  lin   : Bool := false
  nres  : Fin 4 := 0
  deriving DecidableEq, Repr

/-- The modifier word of HGRID (R172). -/
structure HgMod where
  nlev : Fin 16 := 0
  f4   : Bool := false
  deriving DecidableEq, Repr

/-- The threshold of WAITAC (R176). -/
inductive Thr where
  | imm (t : BitVec 8)
  | reg (n : Fin 64)
  | lit (x : Word)
  deriving DecidableEq, Repr

/-- HAD and HN of MXQ (R194). -/
inductive HadMode where
  | plain | had16 | had32
  deriving DecidableEq, Repr

/-- The element formats of CHAIN (R221). -/
inductive ChFmt where
  | f32 | f16 | bf16
  deriving DecidableEq, Repr

/-- CULL of RAYCAST (R299). -/
inductive Cull where
  | none | back | front
  deriving DecidableEq, Repr

/-- OP and FMT of COLL (R369). -/
inductive CollOp where
  | sumF32 | sumI32 | maxF32 | maxI32 | skadd | bcast | gath
  deriving DecidableEq, Repr

/-! ### What events carry from outside the model -/

/-- The code of a page response (R388). -/
inductive PageCode where
  | success | invalid | failure
  deriving DecidableEq, Repr

/-- The status of a PCIe completion (R368). -/
inductive CplStatus where
  | ok | unsupported | abort | ideReject
  deriving DecidableEq, Repr

/-- A flit of a fabric link: its 256 bytes (R362). -/
structure Flit where
  bytes : List Byte
  deriving DecidableEq, Repr

/-- The other end of a key exchange between two packages: the package, its partition, the port here, whether its TDI is enabled and in
RUN, the number it gives the session at its own port (R362, R376). -/
structure PeerEnd where
  pkg  : Nat
  part : Nat
  port : Nat
  run  : Bool
  num  : Nat
  deriving DecidableEq, Repr

/-- A request of a peer package on a virtual lane 0, as its sealed payload gives it, with its number among the writes of that
package and what its stamp names here (R220, R366, R367). -/
structure PeerReq where
  peer  : Nat
  ppart : Nat
  part  : Nat
  obj   : Nat
  off   : Nat
  red   : Option AOp
  size  : MSize
  data  : List Byte
  lane  : Nat
  num   : Nat
  stamp : List (Nat × Nat)
  deriving DecidableEq, Repr

/-- A contribution or a result of a collective that arrives from a peer rank for a partition here: the ranks of its group record,
what its sender had seen (R372, R373). -/
structure CollMsg where
  rank   : Nat
  pkg    : Nat
  part   : Nat
  tag    : Nat
  op     : CollOp
  count  : Nat
  root   : Nat
  header : List Word
  chunk  : Nat
  result : Bool
  elems  : List Word
  dest   : Nat
  group  : List (Nat × Nat)
  clock  : List (Nat × Nat)
  deriving DecidableEq, Repr

/-- What a power-on finds: whether the PUF rebuild succeeds, whether the two signatures verify, the modes of the configuration
record; the digests and security versions of the boot firmware, the runtime firmware and the configuration record, the digests of
the public keys in the boot ROM; the package number that system software assigns (R1, R376 to R378). -/
structure BootOutcome where
  pufOk : Bool
  rsaOk : Bool
  slhOk : Bool
  parity : Bool
  mac    : Bool
  images : List (List Byte × Nat)
  roms   : List Byte
  pkg    : Nat
  deriving DecidableEq, Repr

/-- A host's write of a register as its TLP carries it: the value, whether it comes under IDE, and the TDI whose MMIO space it
targets; none: BAR 0 of physical function 0 (R375, R393). -/
structure Tlp (n : Nat) where
  value : BitVec n
  ide   : Bool
  tdi   : Option Nat := none
  deriving DecidableEq, Repr

/-- A request's turn at its die's memory port: whether a line that the die holds meets an uncorrectable error (R219, R232). -/
structure PortTurn where
  rid : Nat
  bad : Bool := false
  deriving DecidableEq, Repr

/-- A chunk of an engine command, by its number; `bad` says that the held lines it reads have uncorrectable errors (R219). -/
structure ChunkTurn where
  id  : Nat
  bad : Bool := false
  deriving DecidableEq, Repr

/-- What selects the entry of a page response: its PASID and its PRG index (R388). -/
structure PageSel where
  pasid : Nat
  prg   : Nat
  deriving DecidableEq, Repr

/-- One of the requests of 64 bytes that a host access is cut into, by the number of its line (R368). -/
structure HostBlock where
  rid : Nat
  blk : Nat
  deriving DecidableEq, Repr

/-- A flit of a cluster's mesh stop that failed: the cluster, and the retry that passed; none where all four failed (R217). -/
structure MeshFlit where
  cluster : Nat
  passed  : Option (Fin 4)
  deriving DecidableEq, Repr

/-- The next ray of the batch of a base die's TRV, and the places of the lines of its node buffer that have met an uncorrectable
error (R304, R307). -/
structure BatchRay where
  base : Nat
  bad  : List Nat := []
  deriving DecidableEq, Repr

/-- A physical address of device memory, with the key that system software writes it under (R230, R252). -/
structure KeyedAddr where
  key  : Nat
  addr : Nat
  deriving DecidableEq, Repr

/-! ### Instructions and events -/

/-- One constructor a row of the operation table, in the table's order. Register runs of more than one register name
their first register by a `Fin` whose bound is the run's limit (R35). -/
inductive Instr where
  -- X pipe (R44, R76 to R99)
  | iadd (w : Bool) (m : SatMode) (d : VDst) (a b : VSrc)
  | iaddc (w : Bool) (d : VDst) (a b : VSrc)
  | isub (w : Bool) (m : SatMode) (d : VDst) (a b : VSrc)
  | imul (w : Bool) (d : VDst) (a b : VSrc)
  | imulh (w : Bool) (u : Bool) (d : VDst) (a b : VSrc)
  | imad (w : Bool) (c : Addend) (d : VDst) (a b : VSrc)
  | idiv (w : Bool) (m : DivMode) (d : VDst) (a b : VSrc)
  | imin (w : Bool) (u : Bool) (d : VDst) (a b : VSrc)
  | imax (w : Bool) (u : Bool) (d : VDst) (a b : VSrc)
  | iabs (w : Bool) (d : VDst) (a : VSrc)
  | lea (w : Bool) (sh : Fin 4) (d : VDst) (a b : VSrc)
  | iset (p : PReg) (cond : ICond) (m : Comb) (a b : VSrc)
  | sel (w : Bool) (p : Fin 4) (d : VDst) (a b : VSrc)
  | mov (w : Bool) (d : VDst) (a : VSrc)
  | movs (w : Bool) (d : VDst) (a : SSrc)
  | movImm (w : Bool) (d : VDst) (imm : BitVec 16)
  | fadd (w : Bool) (rm : Rm) (d : VDst) (a b : VSrc)
  | fsub (w : Bool) (rm : Rm) (d : VDst) (a b : VSrc)
  | fmul (w : Bool) (rm : Rm) (d : VDst) (a b : VSrc)
  | ffma (w : Bool) (c : Addend) (d : VDst) (a b : VSrc)
  | fmin (w : Bool) (d : VDst) (a b : VSrc)
  | fmax (w : Bool) (d : VDst) (a b : VSrc)
  | fset (p : PReg) (cond : FCond) (m : Comb) (a b : VSrc)
  | fclass (w : Bool) (d : VDst) (a : VSrc)
  | frnd (w : Bool) (rm : Rm) (d : VDst) (a : VSrc)
  | hadd2 (w : Bool) (f : HFmt) (d : VDst) (a b : VSrc)
  | hmul2 (w : Bool) (f : HFmt) (d : VDst) (a b : VSrc)
  | hfma2 (w : Bool) (f : HFmt) (d : VDst) (a b : VSrc)
  | hmin2 (w : Bool) (f : HFmt) (d : VDst) (a b : VSrc)
  | hmax2 (w : Bool) (f : HFmt) (d : VDst) (a b : VSrc)
  | cvt (w : Bool) (df sf : CFmt) (rm : Rm) (d : VDst) (a : VSrc)
  | ffmaRm (w : Bool) (rm : Rm) (d : VDst) (a b : VSrc)
  | iaddImm (w : Bool) (d : VDst) (imm : BitVec 16)
  -- Y pipe: logic and uniform (R86 to R90)
  | and (w : Bool) (d : VDst) (a b : VSrc)
  | or (w : Bool) (d : VDst) (a b : VSrc)
  | xor (w : Bool) (d : VDst) (a b : VSrc)
  | andn (w : Bool) (d : VDst) (a b : VSrc)
  | shl (w : Bool) (d : VDst) (a b : VSrc)
  | shr (w : Bool) (d : VDst) (a b : VSrc)
  | sar (w : Bool) (d : VDst) (a b : VSrc)
  | rotl (w : Bool) (d : VDst) (a b : VSrc)
  | bfx (w : Bool) (s : Bool) (d : VDst) (a b : VSrc)
  | bfi (w : Bool) (d : VDst) (a b : VSrc)
  | popc (w : Bool) (d : VDst) (a : VSrc)
  | clz (w : Bool) (d : VDst) (a : VSrc)
  | brev (w : Bool) (d : VDst) (a : VSrc)
  | sadd (d : SDst) (a b : SSrc)
  | ssub (d : SDst) (a b : SSrc)
  | smul (d : SDst) (a b : SSrc)
  | sshl (m : ShMode) (d : SDst) (a b : SSrc)
  | sand (d : SDst) (a b : SSrc)
  | sor (d : SDst) (a b : SSrc)
  | smov (d : SDst) (a : SSrc)
  | sset (p : PReg) (cond : ICond) (m : Comb) (a b : SSrc)
  | slea (sh : Fin 4) (d : SDst) (a b : SSrc)
  | smovImm (d : SDst) (imm : BitVec 16)
  | saddImm (d : SDst) (imm : BitVec 16)
  -- Y pipe: control (R100 to R114)
  | bra (sel : PReg) (off : BitVec 20)
  | brx (a : Fin 63)
  | call (sel : PReg) (off : BitVec 20)
  | ret
  | split (sel : PReg) (off : BitVec 20)
  | join
  | brk (sel : PReg) (off : BitVec 20)
  | loop (d : SOpt) (len : Fin 16) (i0 i1 i2 i3 : LoopInc)
  | xmrd (d : SDst)
  | xmwr (a : SSrc)
  | xmand (p : PReg)
  | pand (d a b : PReg)
  | por (d a b : PReg)
  | pxor (d a b : PReg)
  | pnot (d a : PReg)
  | pmov (d a : PReg)
  | nop
  | exit
  | yield
  | trap (code : BitVec 7)
  | trapHost (code : BitVec 7)
  | rtt
  | bkpt
  | fence (ord : FOrd) (scope : Scope)
  | csrr (d : SDst) (csr : Csr)
  | csrw (a : SSrc) (csr : Csr)
  | barArrive (d : SOpt) (n : Fin 16) (ord : Ord)
  | barWait (d : SOpt) (n : Fin 16) (ord : Ord)
  | barSync (d : SOpt) (n : Fin 16) (ord : Ord)
  | waittk (mask : BitVec 16)
  | waitac (ac : Fin 16) (t : Thr)
  -- Y pipe: cross-lane (R115 to R121), SFN, WAITMB
  | shfl (w : Bool) (m : ShflMode) (d : VDst) (a b : VSrc)
  | vote (m : VoteMode) (d : SDst) (a : VSrc)
  | lred (op : LaneOp) (d : SDst) (a : VSrc)
  | lscan (w : Bool) (op : LaneOp) (exc : Bool) (d : VDst) (a : VSrc)
  | matchLanes (w : Bool) (d : VDst) (a : VSrc)
  | reorder (w : Bool) (d : VDst) (a b : VSrc)
  | rebal (w : Bool) (d : Fin 119) (a : VSrc)
  | elect (p : PReg)
  | nzs (w : Bool) (d : VDst) (a : VSrc) (b : SDst)
  | sfn (w : Bool) (fn : SfnOp) (tk : Fin 16) (d : VDst) (a : VSrc)
  | waitmb (mask : BitVec 8)
  -- M pipe: memory (R154 to R181)
  | ldsp (d : Fin 120) (a : VSrc) (base : Fin 32) (ac : Fin 16) (m : Option MMod)
  | stsp (d a : VSrc) (base : Fin 32) (ac : Fin 16) (m : Option MMod)
  | atsp (d : VDst) (a : VSrc) (base : Fin 32) (ac : Fin 16) (m : Option MMod)
  | ldds (d : Fin 120) (a : VSrc) (base : Fin 32) (ac : Fin 16) (m : Option MMod)
  | stds (d a : VSrc) (base : Fin 32) (ac : Fin 16) (m : Option MMod)
  | atds (d : VDst) (a : VSrc) (base : Fin 32) (ac : Fin 16) (m : Option MMod)
  | lddm (d : Fin 120) (a : VSrc) (base : CReg) (ac : Fin 16) (m : Option MMod)
  | stdm (d a : VSrc) (base : CReg) (ac : Fin 16) (m : Option MMod)
  | atdm (d : VDst) (a : VSrc) (base : CReg) (ac : Fin 16) (m : Option MMod)
  | reddm (d a : VSrc) (base : CReg) (m : Option MMod)
  | pfdm (a : VSrc) (base : CReg) (m : Option MMod)
  | tex (d : Fin 120) (a : Fin 120) (base : CReg) (ac : Fin 16) (m : Option TexMod)
  | hgrid (d : Fin 120) (a : Fin 120) (base : CReg) (ac : Fin 16) (m : Option HgMod)
  | stpm (d a : VSrc) (base : CReg) (m : Option MMod)
  | redpm (d a : VSrc) (base : CReg) (m : Option MMod)
  | ldhm (d : Fin 120) (a : VSrc) (base : CReg) (ac : Fin 16) (m : Option MMod)
  | sthm (d a : VSrc) (base : CReg) (ac : Fin 16) (m : Option MMod)
  | cld (d : CReg) (a : SSrc) (base : CReg) (ac : Fin 16) (m : Option MMod)
  | cst (d : CReg) (a : SSrc) (base : CReg) (ac : Fin 16) (m : Option MMod)
  | cbnd (d a : CReg) (b : Fin 63)
  | crgt (d a : CReg) (b : SSrc)
  | cmov (d a : CReg)
  | cget (d : Fin 61) (a : CReg)
  | waitmem (d : SOpt) (a : SSrc) (base : CReg) (timeout : Option (BitVec 20))
  | spawn (d : VSrc) (a : Fin 63) (n : Fin 9)
  -- M pipe: matrix (R182 to R207), cluster barrier (R213)
  | mma (d : Fin 113) (a : Fin 63) (acc ru : Bool)
  | mmas (d : Fin 113) (a : Fin 63) (acc ru : Bool) (i : Fin 32)
  | mmat (d : Fin 113) (a : Fin 63) (acc : Bool)
  | mxq (d : Fin 63) (a : Fin 105) (had : HadMode)
  | mxrd (w : Bool) (d : Fin 113) (acc : Bool) (g : Fin 4)
  | mxst (a : Fin 63) (acc : Bool)
  | mxclr (acc : Bool)
  | mxfence
  | clbarArrive (d : SOpt) (n : Fin 16) (ord : Ord)
  | clbarWait (d : SOpt) (n : Fin 16) (ord : Ord)
  | clbarSync (d : SOpt) (n : Fin 16) (ord : Ord)
  -- die engine commands (R221)
  | cpy (d : Option (Fin 63)) (a : Fin 57) (b : SOpt) (ac : Fin 16) (esz : Fin 13) (st : Bool)
  | gath (d : Option (Fin 63)) (a : Fin 57) (b : SOpt) (ac : Fin 16) (esz : Fin 13) (st : Bool)
  | scat (d : Option (Fin 63)) (a : Fin 57) (b : SOpt) (ac : Fin 16) (esz : Fin 13) (st : Bool) (red : Option AOp)
  | route (d : Option (Fin 63)) (a : Fin 57) (b : SOpt) (ac : Fin 16) (esz : Fin 13) (st : Bool)
  | chain (d : Option (Fin 63)) (a : Fin 57) (b : SOpt) (ac : Fin 16) (ofmt ifmt : ChFmt) (st : Bool)
  -- package engine commands
  | vpin (d : Option (Fin 62)) (a : CReg) (ac : Fin 16)
  | vrel (a : CReg) (b : SOpt) (ac : Fin 16)
  | vpub (d : Option (Fin 63)) (a : CReg) (b : Fin 63) (ac : Fin 16)
  | skupd (d : CReg) (a b : VSrc)
  | skqry (d : Fin 120) (a : VSrc) (b : CReg) (ac : Fin 16)
  | skadd (d a : CReg) (ac : Fin 16)
  | skclr (d : CReg) (ac : Fin 16)
  | raycast (d : CReg) (a : Fin 112) (b : Fin 61) (ac : Fin 16) (cull : Cull)
  | atmass (d : CReg) (a b : VSrc)
  | evict (d : Option (Fin 63)) (a : Fin 57) (ac : Fin 16)
  | posrd (d : Fin 120) (a : CReg) (b : Fin 119) (ac : Fin 16)
  | launch (p : PReg) (a : Fin 63) (ac : Fin 16)
  | evsig (a b : SOpt)
  | coll (op : CollOp) (d : Option (Fin 63)) (a : Fin 57) (ac : Fin 16)
  -- events of the core
  | packetFetch (pid : Nat)
  | loopBufferRefetch (pid : Nat)
  | stackSaveAccessDone (pid : Nat)
  | sfnComplete (pid : Nat) (tk : Fin 16)
  | slotGrant (core : Nat)
  | displacement (core : Nat)
  | residencyQuantumTick (core : Nat)
  | paneSaveComplete (pid : Nat)
  | paneRestore (pid : Nat)
  | teamRestore (team core : Nat)
  | writeApply (die k : Nat)
  | waitmemTimeout (pid : Nat)
  | waitmemFinalRead (pid : Nat)
  | spawnBinTimer (core bin : Nat)
  | paneFormation (core : Nat)
  | memoryReply (rid : Nat)
  | cldReply (rid : Nat)
  | storeAcceptance (rid : Nat)
  | storePerform (rid : Nat)
  | matrixTileStep (core eng : Nat) (badBanks : List Nat)
  | mxqUnit (core eng : Nat)
  | mxrdUnit (core eng : Nat)
  | mxstUnit (core eng : Nat)
  | mxclrUnit (core eng : Nat)
  | matrixWatchdog (core eng : Nat)
  | mxrst (core eng : Nat)
  | dsRequest (rid : Nat)
  | meshFlitFailure (die : Nat) (cluster : MeshFlit)
  | clstatReset (die cluster : Nat)
  -- events of the compute die
  | memoryPortAccess (rid : PortTurn)
  | engineCommandStart (die blk : Nat)
  | engineChunk (die blk : Nat) (cmd : ChunkTurn)
  | pageResponse (sel : PageSel) (code : PageCode)
  | pageRequestTimeout (tag : Nat)
  | engineCommandComplete (die blk cmd : Nat)
  | engineBlockHang (die blk : Nat)
  | engstatReset (die blk : Nat)
  | dieLinkFailure (die link : Nat)
  | genRaise (part : Nat)
  | genAdoption (part : Nat)
  -- events of the package memory
  | channelAccess (rid lane : Nat) (mismatch act supact aged : Bool)
  | parityDelta (stack line : Nat)
  | dupInvalidation (die obj ext : Nat)
  | dupInvalidationAck (obj ext : Nat)
  | publicationCommand (cmd : Nat)
  | rdxRequest (stack chan : Nat)
  | sketchCommand (cmd : Nat)
  -- ray traversal
  | raycastDispatch (core ctx : Nat)
  | rayMessageArrival (base k : Nat)
  | trvBatchStart (base : Nat)
  | trvBatchEnd (base : BatchRay)
  | rayFinalRecord (core base : Nat)
  | horizonSend (base : Nat)
  | horizon (base core : Nat)
  | rayContextRelease (core ctx : Nat)
  | trvHang (base : Nat)
  | horizonTimeout (core base : Nat)
  | trvReset (base : Nat)
  | trvringWrite (base : Nat) (value : BitVec 64)
  -- filtering, eviction
  | filterRequest (rid : Nat)
  | evictPerform (cmd : Nat)
  | conditionalPublication (cmd : Nat)
  | posrdPerform (rid : Nat)
  | eveHang (base : Nat)
  | eveReset (base : Nat)
  -- launch, queues, tenants
  | wqtailWrite (queue : Nat) (tail : Tlp 32)
  | gridStart (queue : Nat)
  | launchAccept (core k : Nat)
  | teamPlacement (grid : Nat)
  | gridRetirement (grid : Nat)
  | eventCounterWrite (n : Nat) (value : Tlp 64)
  | bandwidthTick
  | contextSwitchOut (core : Nat)
  | contextSwitchComplete (core : Nat)
  | corectxPartWrite (core : Nat) (part : BitVec 8)
  -- fabric and host
  | flitReceive (port : Nat) (f : Flit)
  | linkRetryRequest (port : Nat) (lack : Nat)
  | idleFlit (port : Nat)
  | sealedMessage (port : Nat) (f : Flit)
  | windowUpdate (port vl amount : Nat)
  | pmRequest (r : PeerReq)
  | pmAck (rid : Nat)
  | panecmdResume (core : Nat) (grid team pord : Nat)
  | pmFailureReport (rid : Nat) (lanes : BitVec 32) (cause : Nat)
  | collStart (cmd : Nat)
  | collContribution (m : CollMsg)
  | collComplete (cmd : Nat)
  | collTimeout (cmd : Nat)
  | lnkengReset (base : Nat)
  | hostCompletion (rid : HostBlock) (st : CplStatus)
  | hostCompletionTimeout (rid : HostBlock)
  | getVersion
  | getCapabilities
  | negotiateAlgorithms (offer : List Nat)
  | getDigests
  | getCertificate (slot off len : Nat)
  | challenge (slot : Nat) (nonce : List Byte)
  | getMeasurements (idx : Nat) (sign : Bool) (nonce : List Byte)
  | keyExchange (share : List Byte)
  | finish (part : Nat) (mac : List Byte) (peer : Option PeerEnd)
  | endSession (part : Nat)
  | ideKm (payload : List Byte)
  | lockInterface (part : Nat)
  | stopInterface (part : Nat)
  | powerOn (o : BootOutcome)
  | panecmdExit (core : Nat) (grid team pord : Nat)
  | thermalWarning (island : Nat) (temp : Nat)
  | thermalFreeze (island : Nat) (temp : Nat)
  | thermThaw (die tmax : Nat)
  | droop (island depth : Nat)
  | lifetimeFlush
  | orderlyShutdown
  | lifectlGo
  | lifetimeExportDone (ok : Bool)
  | registerWrite (off : Nat) (wide : Bool) (value : Tlp 64)
  | linkTraining (port : Nat)
  | startInterface (part : Nat)
  | hostWrite (addr : KeyedAddr) (bytes : List Byte)
  | powerLoss
  deriving DecidableEq, Repr

end Sys2Proof
end

