-- ==== Sys2Proof/Machine/Bits.lean ====
section
/-! DEFINITION. Bit-field, extension and integer helpers (R55), and the integer results of the X- and Y-pipe words
(R79 to R88) on one lane's values. -/

namespace Sys2Proof.Machine

/-- x[lo + n - 1 : lo] as a number. -/
def bits (x : Word) (lo n : Nat) : Nat := x.toNat / 2 ^ lo % 2 ^ n

/-- One bit of a word. -/
def bit (x : Word) (i : Nat) : Bool := x.getLsbD i

/-- A word with one bit set to a value. -/
def setBit (x : Word) (i : Nat) (b : Bool) : Word :=
  let m : Word := (1 : Word) <<< i
  if b then x ||| m else x &&& ~~~m

/-- `Uns` (R55). -/
def uns (x : Word) : Nat := x.toNat

/-- `Sgn` (R55). -/
def sgn (x : Word) : Int := x.toInt

/-- x modulo 2^32, as a word. -/
def wordOfInt (x : Int) : Word := BitVec.ofInt 32 x

def wordOfNat (x : Nat) : Word := BitVec.ofNat 32 x

/-- `SatS(x, n)` (R55). -/
def satS (x : Int) (n : Nat) : Int := max (-(2 ^ (n - 1) : Int)) (min x ((2 ^ (n - 1) : Int) - 1))

/-- `SatU(x, n)` (R55). -/
def satU (x : Int) (n : Nat) : Int := max 0 (min x ((2 ^ n : Int) - 1))

/-- `SExt(x, n)` of the low n bits of a number (R55). -/
def sExt (x n : Nat) : Int :=
  let y := x % 2 ^ n
  if 2 ^ (n - 1) ≤ y then (y : Int) - 2 ^ n else y

/-- A Boolean as 0 or 1. -/
def boolWord (b : Bool) : Word := if b then 1 else 0

/-- The mask whose bit i is `f i` for the 32 lanes. -/
def maskOf (f : Nat → Bool) : Word :=
  (List.range 32).foldl (fun m i => if f i then m ||| ((1 : Word) <<< i) else m) 0

/-- The lanes of a mask, ascending (`Active()`, R55). -/
def lanesOf (m : Word) : List Nat := (List.range 32).filter (fun i => bit m i)

/-- Number of 1 bits. -/
def popCount (x : Word) : Nat := (lanesOf x).length

/-- Little-endian bytes of a number (R58). -/
def toBytes (n x : Nat) : List Byte :=
  (List.range n).map (fun i => BitVec.ofNat 8 (x / 256 ^ i))

/-- The number little-endian bytes stand for (R58). -/
def ofBytes : List Byte → Nat
  | [] => 0
  | b :: bs => b.toNat + 256 * ofBytes bs

/-! ### Integer results on one lane -/

/-- R79: IADD. -/
def iaddVal (m : SatMode) (a b : Word) : Word :=
  match m with
  | .wrap => wordOfNat (uns a + uns b)
  | .sat => wordOfInt (satS (sgn a + sgn b) 32)
  | .usat => wordOfInt (satU (uns a + uns b) 32)

/-- R79: ISUB. -/
def isubVal (m : SatMode) (a b : Word) : Word :=
  match m with
  | .wrap => wordOfInt ((uns a : Int) - uns b)
  | .sat => wordOfInt (satS (sgn a - sgn b) 32)
  | .usat => wordOfInt (satU ((uns a : Int) - uns b) 32)

/-- R79: IADDC, the carry out of the unsigned sum. -/
def iaddcVal (a b : Word) : Word := boolWord (decide (2 ^ 32 ≤ uns a + uns b))

/-- R80: IMUL. -/
def imulVal (a b : Word) : Word := wordOfNat (uns a * uns b)

/-- R80: IMULH. -/
def imulhVal (u : Bool) (a b : Word) : Word :=
  if u then wordOfNat (uns a * uns b / 2 ^ 32) else wordOfInt (Int.fdiv (sgn a * sgn b) (2 ^ 32))

/-- R80: IMAD. -/
def imadVal (a b c : Word) : Word := wordOfNat (uns a * uns b + uns c)

/-- R81: the signed quotient and remainder. -/
def divS (a b : Word) : Word × Word :=
  if b = 0 then (0xFFFFFFFF, a)
  else if a = 0x80000000 ∧ b = 0xFFFFFFFF then (0x80000000, 0)
  else
    let q := Int.tdiv (sgn a) (sgn b)
    (wordOfInt q, wordOfInt (sgn a - q * sgn b))

/-- R81: the unsigned quotient and remainder. -/
def divU (a b : Word) : Word × Word :=
  if b = 0 then (0xFFFFFFFF, a) else (wordOfNat (uns a / uns b), wordOfNat (uns a % uns b))

/-- R81: IDIV. -/
def idivVal (m : DivMode) (a b : Word) : Word :=
  match m with
  | .quo => (divS a b).1
  | .quoU => (divU a b).1
  | .rem => (divS a b).2
  | .remU => (divU a b).2

/-- R82: IMIN. -/
def iminVal (u : Bool) (a b : Word) : Word :=
  if u then (if uns a ≤ uns b then a else b) else (if sgn a ≤ sgn b then a else b)

/-- R82: IMAX. -/
def imaxVal (u : Bool) (a b : Word) : Word :=
  if u then (if uns a ≤ uns b then b else a) else (if sgn a ≤ sgn b then b else a)

/-- R82: IABS, modulo 2^32. -/
def iabsVal (a : Word) : Word := wordOfNat (sgn a).natAbs

/-- R83: LEA and SLEA. -/
def leaVal (s : Nat) (a b : Word) : Word := wordOfNat (uns a + uns b * 2 ^ s)

/-- R85: the condition of ISET and SSET. -/
def icondHolds (c : ICond) (a b : Word) : Bool :=
  match c with
  | .eq => a == b
  | .ne => a != b
  | .lt => decide (sgn a < sgn b)
  | .le => decide (sgn a ≤ sgn b)
  | .gt => decide (sgn b < sgn a)
  | .ge => decide (sgn b ≤ sgn a)
  | .ltu => decide (uns a < uns b)
  | .leu => decide (uns a ≤ uns b)
  | .gtu => decide (uns b < uns a)
  | .geu => decide (uns b ≤ uns a)

/-- R85: how a compare combines with the predicate's old bit. -/
def combine (m : Comb) (old c : Bool) : Bool :=
  match m with
  | .set => c
  | .and => old && c
  | .or => old || c

/-- R86: SHL, by the whole unsigned value of b. -/
def shlVal (a b : Word) : Word := if 32 ≤ uns b then 0 else wordOfNat (uns a * 2 ^ uns b)

/-- R86: SHR. -/
def shrVal (a b : Word) : Word := if 32 ≤ uns b then 0 else wordOfNat (uns a / 2 ^ uns b)

/-- R86: SAR. -/
def sarVal (a b : Word) : Word := wordOfInt (Int.fdiv (sgn a) (2 ^ min (uns b) 31))

/-- R86: ROTL by b[4:0]. -/
def rotlVal (a b : Word) : Word := a.rotateLeft (bits b 0 5)

/-- R87: the position and the effective width of a bit field. -/
def fieldPos (b : Word) : Nat := bits b 0 5

def fieldWidth (b : Word) : Nat := min (min (bits b 8 6) 32) (32 - fieldPos b)

/-- R87: BFX. -/
def bfxVal (s : Bool) (a b : Word) : Word :=
  let w := fieldWidth b
  let f := bits a (fieldPos b) w
  if w = 0 then 0 else if s then wordOfInt (sExt f w) else wordOfNat f

/-- R87: BFI. -/
def bfiVal (d a b : Word) : Word :=
  let w := fieldWidth b
  let pos := fieldPos b
  let m : Word := wordOfNat ((2 ^ w - 1) * 2 ^ pos)
  (d &&& ~~~m) ||| (wordOfNat (bits a 0 w * 2 ^ pos) &&& m)

/-- R88: POPC. -/
def popcVal (a : Word) : Word := wordOfNat (popCount a)

/-- R88: CLZ. -/
def clzVal (a : Word) : Word := wordOfNat (if a = 0 then 32 else 31 - Nat.log2 a.toNat)

/-- R88: BREV. -/
def brevVal (a : Word) : Word := maskOf (fun i => bit a (31 - i))

/-- R89: SSHL. -/
def sshlVal (m : ShMode) (a b : Word) : Word :=
  match m with
  | .left => shlVal a b
  | .lsr => shrVal a b
  | .asr => sarVal a b

/-- SExt(IMM, 16) as a word (R39). -/
def immWord (i : BitVec 16) : Word := i.signExtend 32

end Sys2Proof.Machine
end

