-- ==== Sys2Proof/Machine/Flags.lean ====
section
/-! DEFINITION. Floating-point formats, rounding, special values and the XSTAT bits they set (R56 to R68, R74), and the
floating results of the X-pipe words on one lane's values (R91 to R98). A finite value is an exact dyadic m * 2^e; a
result is a pattern and the XSTAT bits the lane raises. -/

namespace Sys2Proof.Machine

/-! ### XSTAT bits (R18) -/

def fNX : Word := 0x01
def fUF : Word := 0x02
def fOF : Word := 0x04
def fDZ : Word := 0x08
def fNV : Word := 0x10
def fMXOVF : Word := 0x20
def fLSTALE : Word := 0x40
def fLNEST : Word := 0x80

/-- A flag where a condition holds. -/
def flagIf (c : Bool) (f : Word) : Word := if c then f else 0

/-! ### Formats (R56) -/

/-- A floating format: exponent bits, fraction bits, and whether the all-ones exponent is special (all but F8E4). -/
structure Fmt where
  eb : Nat
  fb : Nat
  ieee : Bool
  deriving DecidableEq, Repr

def F32 : Fmt := ⟨8, 23, true⟩
def F16 : Fmt := ⟨5, 10, true⟩
def BF16 : Fmt := ⟨8, 7, true⟩
def F8E4 : Fmt := ⟨4, 3, false⟩
def F8E5 : Fmt := ⟨5, 2, true⟩

def Fmt.bias (f : Fmt) : Nat := 2 ^ (f.eb - 1) - 1

/-- The largest biased exponent of a finite value. -/
def Fmt.topExp (f : Fmt) : Nat := if f.ieee then 2 ^ f.eb - 2 else 2 ^ f.eb - 1

/-- The largest finite pattern, without sign. -/
def Fmt.maxPat (f : Fmt) : Nat := f.topExp * 2 ^ f.fb + (2 ^ f.fb - (if f.ieee then 1 else 2))

def Fmt.signPat (f : Fmt) (s : Bool) : Nat := if s then 2 ^ (f.eb + f.fb) else 0

/-- The infinity pattern; F8E4 has none (R64 gives it the largest finite value). -/
def Fmt.infPat (f : Fmt) (s : Bool) : Nat :=
  f.signPat s + (if f.ieee then (2 ^ f.eb - 1) * 2 ^ f.fb else f.maxPat)

/-- The canonical NaN, without sign (R56). -/
def Fmt.nanPat (f : Fmt) : Nat :=
  if f.ieee then (2 ^ f.eb - 1) * 2 ^ f.fb + 2 ^ (f.fb - 1) else 2 ^ (f.eb + f.fb) - 1

/-- What a pattern stands for. `fin s m e` is (-1)^s * m * 2^e; m = 0 is a zero of sign s. -/
inductive FNum where
  | nan (sig : Bool) (s : Bool)
  | inf (s : Bool)
  | fin (s : Bool) (m : Nat) (e : Int)
  deriving DecidableEq, Repr

/-- The fields of a pattern. -/
def Fmt.sgnOf (f : Fmt) (x : Nat) : Bool := x / 2 ^ (f.eb + f.fb) % 2 == 1
def Fmt.expOf (f : Fmt) (x : Nat) : Nat := x / 2 ^ f.fb % 2 ^ f.eb
def Fmt.fracOf (f : Fmt) (x : Nat) : Nat := x % 2 ^ f.fb

/-- R56: the value of a pattern; with `ftz`, a subnormal is a zero of its sign (R65). -/
def unpack (f : Fmt) (ftz : Bool) (x : Nat) : FNum :=
  let s := f.sgnOf x
  let e := f.expOf x
  let m := f.fracOf x
  if f.ieee ∧ e = 2 ^ f.eb - 1 then
    (if m = 0 then .inf s else .nan (m / 2 ^ (f.fb - 1) == 0) s)
  else if ¬ f.ieee ∧ e = 2 ^ f.eb - 1 ∧ m = 2 ^ f.fb - 1 then .nan false s
  else if e = 0 then .fin s (if ftz then 0 else m) (1 - (f.bias : Int) - f.fb)
  else .fin s (2 ^ f.fb + m) ((e : Int) - f.bias - f.fb)

def FNum.isNan : FNum → Bool
  | .nan _ _ => true
  | _ => false

def FNum.isSig : FNum → Bool
  | .nan b _ => b
  | _ => false

/-! ### Rounding (R63 to R65) -/

/-- Whether a magnitude with discarded part `r / 2^k` rounds away from zero. -/
def roundsUp (rm : Rm) (s : Bool) (odd : Bool) (r half : Nat) : Bool :=
  match rm with
  | .rn => decide (half < r) || (decide (r = half) && decide (0 < r) && odd)
  | .rz => false
  | .ru => !s && decide (0 < r)
  | .rd => s && decide (0 < r)

/-- m * 2^sh to an integer magnitude under a mode, and whether it was inexact. -/
def roundMag (rm : Rm) (s : Bool) (m : Nat) (sh : Int) : Nat × Bool :=
  if 0 ≤ sh then (m * 2 ^ sh.toNat, false)
  else
    let k := (-sh).toNat
    let q := m / 2 ^ k
    let r := m % 2 ^ k
    (q + (if roundsUp rm s (q % 2 == 1) r (2 ^ (k - 1)) then 1 else 0), decide (r ≠ 0))

/-- R64: the pattern of an overflow. -/
def overflowPat (f : Fmt) (rm : Rm) (s : Bool) : Nat :=
  if ¬ f.ieee then f.signPat s + f.maxPat
  else
    match rm, s with
    | .rn, _ => f.infPat s
    | .rz, _ => f.signPat s + f.maxPat
    | .ru, false => f.infPat false
    | .ru, true => f.signPat true + f.maxPat
    | .rd, false => f.maxPat
    | .rd, true => f.infPat true

/-- R63 to R65: a nonzero magnitude m * 2^e of sign s in a format. -/
def roundFin (f : Fmt) (rm : Rm) (ftz : Bool) (s : Bool) (m : Nat) (e : Int) : Nat × Word :=
  let emin : Int := 1 - (f.bias : Int)
  let E : Int := (Nat.log2 m : Int) + e
  let q : Int := E - f.fb
  let (r, ix) := roundMag rm s m (e - q)
  let (r, E) := if r = 2 ^ (f.fb + 1) then (2 ^ f.fb, E + 1) else (r, E)
  if E < emin then
    if ftz then (f.signPat s, fUF ||| fNX)
    else
      let (t, tx) := roundMag rm s m (e - (emin - f.fb))
      (f.signPat s + t, if tx then fUF ||| fNX else 0)
  else
    let be := (E + f.bias).toNat
    let pat := be * 2 ^ f.fb + (r - 2 ^ f.fb)
    if f.maxPat < pat then (overflowPat f rm s, fOF ||| fNX)
    else (f.signPat s + pat, flagIf ix fNX)

/-- Any exact dyadic; `zs` is the sign of an exact zero. -/
def roundDy (f : Fmt) (rm : Rm) (ftz : Bool) (zs : Bool) (m : Int) (e : Int) : Nat × Word :=
  if m = 0 then (f.signPat zs, 0) else roundFin f rm ftz (decide (m < 0)) m.natAbs e

/-- A signed mantissa. -/
def signed (s : Bool) (m : Nat) : Int := if s then -(m : Int) else m

/-- The exact sum of two dyadics. -/
def addDy (m₁ : Int) (e₁ : Int) (m₂ : Int) (e₂ : Int) : Int × Int :=
  let e := min e₁ e₂
  (m₁ * 2 ^ (e₁ - e).toNat + m₂ * 2 ^ (e₂ - e).toNat, e)

/-- R63: the sign of an exact zero sum of two terms. -/
def zeroSign (rm : Rm) (s₁ s₂ : Bool) : Bool := if s₁ = s₂ then s₁ else decide (rm = .rd)

/-- A sum of two non-NaN values. An invalid sum gives the canonical NaN and NV (R66). -/
def addNum (f : Fmt) (rm : Rm) (ftz : Bool) (a b : FNum) : Nat × Word :=
  match a, b with
  | .inf s, .inf t => if s = t then (f.infPat s, 0) else (f.nanPat, fNV)
  | .inf s, _ => (f.infPat s, 0)
  | _, .inf t => (f.infPat t, 0)
  | .fin s m e, .fin t n g =>
      let (x, y) := addDy (signed s m) e (signed t n) g
      roundDy f rm ftz (if m = 0 ∧ n = 0 then zeroSign rm s t else decide (rm = .rd)) x y
  | _, _ => (f.nanPat, 0)

/-- The exact product of two non-NaN values; none where it is invalid (a zero times an infinity). -/
def mulNum (a b : FNum) : Option FNum :=
  match a, b with
  | .inf s, .inf t => some (.inf (s != t))
  | .inf s, .fin t n _ => if n = 0 then none else some (.inf (s != t))
  | .fin s m _, .inf t => if m = 0 then none else some (.inf (s != t))
  | .fin s m e, .fin t n g => some (.fin (s != t) (m * n) (e + g))
  | _, _ => none

/-- A value rounded on its own: the sum with nothing. -/
def roundNum (f : Fmt) (rm : Rm) (ftz : Bool) (a : FNum) : Nat × Word :=
  match a with
  | .inf s => (f.infPat s, 0)
  | .fin s m e => roundDy f rm ftz s (signed s m) e
  | .nan _ _ => (f.nanPat, 0)

/-- a * b + c for non-NaN operands, rounded once (R63, R92). -/
def fmaNum (f : Fmt) (rm : Rm) (ftz : Bool) (a b c : FNum) : Nat × Word :=
  match mulNum a b with
  | none => (f.nanPat, fNV)
  | some p => addNum f rm ftz p c

/-! ### F32 words on one lane (R66, R91 to R96) -/

def unpack32 (ftz : Bool) (x : Word) : FNum := unpack F32 ftz x.toNat

/-- A quieted NaN. -/
def quiet (x : Word) : Word := x ||| 0x00400000

/-- NV where an operand is a signalling NaN. -/
def sigFlag (l : List FNum) : Word := flagIf (l.any FNum.isSig) fNV

/-- R66: the first NaN of the operands, quieted; none where no operand is NaN. -/
def firstNan : List Word → Option Word
  | [] => none
  | x :: xs => if (unpack32 false x).isNan then some (quiet x) else firstNan xs

def ofPat (r : Nat × Word) : Word × Word := (wordOfNat r.1, r.2)

/-- R91: FADD. -/
def faddVal (ftz : Bool) (rm : Rm) (a b : Word) : Word × Word :=
  match firstNan [a, b] with
  | some n => (n, sigFlag [unpack32 false a, unpack32 false b])
  | none => ofPat (addNum F32 rm ftz (unpack32 ftz a) (unpack32 ftz b))

/-- R91: FSUB reverses the sign of b, but not of a NaN b. -/
def fsubVal (ftz : Bool) (rm : Rm) (a b : Word) : Word × Word :=
  match firstNan [a, b] with
  | some n => (n, sigFlag [unpack32 false a, unpack32 false b])
  | none => ofPat (addNum F32 rm ftz (unpack32 ftz a) (unpack32 ftz (b ^^^ 0x80000000)))

/-- R91: FMUL. -/
def fmulVal (ftz : Bool) (rm : Rm) (a b : Word) : Word × Word :=
  match firstNan [a, b] with
  | some n => (n, sigFlag [unpack32 false a, unpack32 false b])
  | none =>
      match mulNum (unpack32 ftz a) (unpack32 ftz b) with
      | none => (wordOfNat F32.nanPat, fNV)
      | some p => ofPat (roundNum F32 rm ftz p)

/-- R92: FFMA. NV also where a * b is a zero times an infinity beside a NaN addend. -/
def ffmaVal (ftz : Bool) (rm : Rm) (a b c : Word) : Word × Word :=
  let ua := unpack32 ftz a
  let ub := unpack32 ftz b
  match firstNan [a, b, c] with
  | some n =>
      let inv := !ua.isNan && !ub.isNan && (mulNum ua ub).isNone
      (n, sigFlag [unpack32 false a, unpack32 false b, unpack32 false c] ||| flagIf inv fNV)
  | none => ofPat (fmaNum F32 rm ftz ua ub (unpack32 ftz c))

/-- The order of two non-NaN values: a before b (R93: -0 is less than +0). -/
def lessNum (zeros : Bool) (a b : FNum) : Bool :=
  match a, b with
  | .inf s, .inf t => s && !t
  | .inf s, _ => s
  | _, .inf t => !t
  | .fin s m e, .fin t n g =>
      let (x, _) := addDy (signed s m) e (-(signed t n)) g
      if x = 0 then zeros && decide (m = 0) && s && !t else decide (x < 0)
  | _, _ => false

/-- A pattern with its subnormal flushed. -/
def flush (ftz : Bool) (x : Word) : Word :=
  if ftz ∧ F32.expOf x.toNat = 0 then x &&& 0x80000000 else x

/-- R93: FMIN and FMAX. -/
def fminmaxVal (ftz : Bool) (mx : Bool) (a b : Word) : Word × Word :=
  let ua := unpack32 ftz a
  let ub := unpack32 ftz b
  let fl := sigFlag [ua, ub]
  match ua.isNan, ub.isNan with
  | true, true => (wordOfNat F32.nanPat, fl)
  | true, false => (flush ftz b, fl)
  | false, true => (flush ftz a, fl)
  | false, false =>
      let pickB := if mx then lessNum true ua ub else lessNum true ub ua
      (if pickB then flush ftz b else flush ftz a, fl)

/-- R94: the condition of FSET and the flag it raises. -/
def fcondHolds (ftz : Bool) (c : FCond) (a b : Word) : Bool × Word :=
  let ua := unpack32 ftz a
  let ub := unpack32 ftz b
  let un := ua.isNan || ub.isNan
  let lt := !un && lessNum false ua ub
  let gt := !un && lessNum false ub ua
  let eq := !un && !lt && !gt
  let sg := sigFlag [ua, ub]
  match c with
  | .eq => (eq, sg)
  | .ne => (!eq, sg)
  | .lt => (lt, sg ||| flagIf un fNV)
  | .le => (lt || eq, sg ||| flagIf un fNV)
  | .gt => (gt, sg ||| flagIf un fNV)
  | .ge => (gt || eq, sg ||| flagIf un fNV)
  | .un => (un, sg)
  | .ord => (!un, sg)

/-- R95: FCLASS. -/
def fclassVal (ftz : Bool) (a : Word) : Word :=
  let s := F32.sgnOf a.toNat
  match unpack32 ftz a with
  | .nan sig _ => if sig then 0x100 else 0x200
  | .inf s => if s then 0x001 else 0x080
  | .fin _ m _ =>
      if m = 0 then (if s then 0x008 else 0x010)
      else if F32.expOf a.toNat = 0 then (if s then 0x004 else 0x020)
      else (if s then 0x002 else 0x040)

/-- R96: FRND; only NV, for a signalling NaN. -/
def frndVal (ftz : Bool) (rm : Rm) (a : Word) : Word × Word :=
  match unpack32 ftz a with
  | .nan sig _ => (quiet a, flagIf sig fNV)
  | .inf _ => (a, 0)
  | .fin s m e =>
      let (r, _) := roundMag rm s m e
      if 0 ≤ e then (a, 0)
      else (wordOfNat (roundDy F32 .rn false s (signed s r) 0).1, 0)

/-! ### Packed halves (R97) -/

def hfmt : HFmt → Fmt
  | .f16 => F16
  | .bf16 => BF16

/-- Two packed elements. -/
def halves (x : Word) : Nat × Nat := (bits x 0 16, bits x 16 16)

def packHalves (lo hi : Nat × Word) : Word × Word :=
  (wordOfNat (hi.1 % 2 ^ 16 * 2 ^ 16 + lo.1 % 2 ^ 16), lo.2 ||| hi.2)

/-- One element: NaN operands give the canonical NaN (R66). -/
def halfOp (l : List FNum) (f : Fmt) (r : Nat × Word) : Nat × Word :=
  if l.any FNum.isNan then (f.nanPat, sigFlag l) else r

def haddEl (f : Fmt) (a b : Nat) : Nat × Word :=
  let x := unpack f false a
  let y := unpack f false b
  halfOp [x, y] f (addNum f .rn false x y)

def hmulEl (f : Fmt) (a b : Nat) : Nat × Word :=
  let x := unpack f false a
  let y := unpack f false b
  halfOp [x, y] f (match mulNum x y with
    | none => (f.nanPat, fNV)
    | some p => roundNum f .rn false p)

/-- R92 for a packed element: NV also for a zero times an infinity beside a NaN addend (log entry 9). -/
def hfmaEl (f : Fmt) (a b c : Nat) : Nat × Word :=
  let x := unpack f false a
  let y := unpack f false b
  let z := unpack f false c
  let inv := !x.isNan && !y.isNan && (mulNum x y).isNone
  if [x, y, z].any FNum.isNan then (f.nanPat, sigFlag [x, y, z] ||| flagIf inv fNV)
  else fmaNum f .rn false x y z

/-- R93 for a packed element. -/
def hminmaxEl (f : Fmt) (mx : Bool) (a b : Nat) : Nat × Word :=
  let x := unpack f false a
  let y := unpack f false b
  let fl := sigFlag [x, y]
  match x.isNan, y.isNan with
  | true, true => (f.nanPat, fl)
  | true, false => (b, fl)
  | false, true => (a, fl)
  | false, false =>
      let pickB := if mx then lessNum true x y else lessNum true y x
      (if pickB then b else a, fl)

def onHalves2 (g : Nat → Nat → Nat × Word) (a b : Word) : Word × Word :=
  packHalves (g (halves a).1 (halves b).1) (g (halves a).2 (halves b).2)

def onHalves3 (g : Nat → Nat → Nat → Nat × Word) (a b c : Word) : Word × Word :=
  packHalves (g (halves a).1 (halves b).1 (halves c).1) (g (halves a).2 (halves b).2 (halves c).2)

/-! ### CVT (R68, R98) -/

/-- The format of a floating code of CVT; the others are E8M0 and the integers. -/
def cvtFmt : CFmt → Option Fmt
  | .f32 => some F32
  | .f16 => some F16
  | .bf16 => some BF16
  | .f8e4 => some F8E4
  | .f8e5 => some F8E5
  | _ => none

/-- An integer format: signed, and its width. -/
def cvtInt : CFmt → Option (Bool × Nat)
  | .i32 => some (true, 32)
  | .u32 => some (false, 32)
  | .i16 => some (true, 16)
  | .u16 => some (false, 16)
  | .i8 => some (true, 8)
  | .u8 => some (false, 8)
  | _ => none

/-- The limits of an integer format. -/
def intLimits (sg : Bool) (n : Nat) : Int × Int :=
  if sg then (-(2 ^ (n - 1) : Int), (2 ^ (n - 1) : Int) - 1) else (0, (2 ^ n : Int) - 1)

/-- Between two floating formats. -/
def cvtFloat (ftz : Bool) (fd fs : Fmt) (rm : Rm) (a : Word) : Word × Word :=
  let z := decide (fd = F32) && ftz
  match unpack fs (decide (fs = F32) && ftz) (a.toNat % 2 ^ (1 + fs.eb + fs.fb)) with
  | .nan sig s => (wordOfNat (fd.signPat s + fd.nanPat), flagIf sig fNV)
  | .inf s => if fd.ieee then (wordOfNat (fd.infPat s), 0) else (wordOfNat (fd.signPat s + fd.nanPat), fNV)
  | .fin s m e => ofPat (roundDy fd rm z s (signed s m) e)

/-- A floating value to an integer format: rounded, then saturated with NV. -/
def cvtToInt (ftz : Bool) (sg : Bool) (n : Nat) (rm : Rm) (a : Word) : Word × Word :=
  let (lo, hi) := intLimits sg n
  match unpack32 ftz a with
  | .nan _ _ => (0, fNV)
  | .inf s => (wordOfInt (if s then lo else hi), fNV)
  | .fin s m e =>
      let (r, ix) := roundMag rm s m e
      let v := signed s r
      if v < lo then (wordOfInt lo, fNV)
      else if hi < v then (wordOfInt hi, fNV)
      else (wordOfInt v, flagIf ix fNX)

/-- F32 to E8M0. -/
def cvtToE8 (ftz : Bool) (rm : Rm) (a : Word) : Word × Word :=
  match unpack32 ftz a with
  | .fin false m e =>
      if m = 0 then (0xFF, fNV)
      else
        let lg := Nat.log2 m
        let exact := decide (m = 2 ^ lg)
        let up :=
          match rm with
          | .rz => false
          | .rd => false
          | .ru => !exact
          | .rn => decide (3 * 2 ^ lg ≤ 2 * m)
        let k : Int := (lg : Int) + e + (if up then 1 else 0)
        let nx := flagIf (!exact) fNX
        if k < -127 then (0, fUF ||| fNX)
        else if 127 < k then (0xFF, fOF ||| nx)
        else (wordOfInt (k + 127), nx)
  | _ => (0xFF, fNV)

/-- E8M0 to F32. -/
def cvtFromE8 (ftz : Bool) (a : Word) : Word × Word :=
  let e := bits a 0 8
  if e = 0xFF then (wordOfNat F32.nanPat, 0)
  else ofPat (roundFin F32 .rn ftz false 1 ((e : Int) - 127))

/-- R68, R98: CVT. -/
def cvtVal (ftz : Bool) (df sf : CFmt) (rm : Rm) (a : Word) : Word × Word :=
  match cvtInt sf, cvtInt df with
  | some (ss, _), some (ds, n) =>
      let v : Int := if ss then sgn a else uns a
      let (lo, hi) := intLimits ds n
      (wordOfInt (max lo (min v hi)), 0)
  | some (ss, _), none =>
      let v : Int := if ss then sgn a else uns a
      ofPat (roundDy F32 rm ftz false v 0)
  | none, some (ds, n) => cvtToInt ftz ds n rm a
  | none, none =>
      match cvtFmt df, cvtFmt sf with
      | some fd, some fs => cvtFloat ftz fd fs rm a
      | none, _ => cvtToE8 ftz rm a
      | _, none => cvtFromE8 ftz a

/-! ### Special functions (R74) -/

/-- Integer square root by bits: the largest r with r * r ≤ n, of at most k bits. -/
def isqrt (n : Nat) : Nat → Nat → Nat
  | 0, r => r
  | k + 1, r =>
      let t := r + 2 ^ k
      if t * t ≤ n then isqrt n k t else isqrt n k r

/-- The scale of the enclosures below: numbers are multiples of 2^-200. -/
def fxOne : Int := 2 ^ 200

def fxMul (a b : Int) : Int := a * b / fxOne

def fxDiv (a b : Int) : Int := a * fxOne / b

/-- 1 + c 0 (1 + c 1 (1 + ...)), n terms. -/
def fxSeries (n : Nat) (c : Nat → Int) : Int :=
  (List.range n).foldr (fun (k : Nat) acc => fxOne + fxMul (c k) acc) fxOne

/-- atanh t. -/
def fxAtanh (t : Int) : Int :=
  fxMul t ((List.range 72).foldr (fun (k : Nat) acc => fxOne / (2 * (k : Int) + 1) + fxMul (fxMul t t) acc) 0)

/-- atan (1 / n). -/
def fxAtanInv (n : Int) : Int :=
  (List.range 48).foldr (fun (k : Nat) acc => (fxOne / (2 * (k : Int) + 1) - acc / n) / n) 0

def fxLn2 : Int := 2 * fxAtanh (fxOne / 3)

/-- Machin's formula. -/
def fxPi : Int := 16 * fxAtanInv 5 - 4 * fxAtanInv 239

/-- e^y for 0 ≤ y < 1. -/
def fxExp (y : Int) : Int := fxSeries 48 (fun k => y / ((k : Int) + 1))

/-- 2^x. -/
def fxExp2 (x : Int) : Int :=
  let n := x / fxOne
  let r := fxExp (fxMul (x % fxOne) fxLn2)
  if 0 ≤ n then r * 2 ^ n.toNat else r / 2 ^ (-n).toNat

/-- e^-y for 0 ≤ y; 0 from 128 on, which is below every bound in use. -/
def fxExpNeg (y : Int) : Int := if 128 * fxOne ≤ y then 0 else fxExp2 (-fxDiv y fxLn2)

/-- x less a whole number of turns. -/
def fxTurn (x : Int) : Int := (x + fxPi) % (2 * fxPi) - fxPi

def fxSin (x : Int) : Int :=
  let y := fxTurn x
  fxMul y (fxSeries 32 (fun k => -(fxMul y y) / ((2 * (k : Int) + 2) * (2 * k + 3))))

def fxCos (x : Int) : Int :=
  let y := fxTurn x
  fxSeries 32 (fun k => -(fxMul y y) / ((2 * (k : Int) + 1) * (2 * k + 2)))

/-- The standard normal distribution function for |x| < 8. -/
def fxPhi (x : Int) : Int :=
  let xx := fxMul x x
  let root : Int := isqrt (2 * fxPi * fxOne).toNat 210 0
  fxOne / 2 + fxDiv (fxMul (fxExpNeg (xx / 2)) (fxMul x (fxSeries 220 (fun k => xx / (2 * (k : Int) + 3))))) root

/-- The exact value of a function at a nonzero finite operand, up to about 2^-60 of it and 2^-180. -/
def fxValue (fn : SfnOp) (s : Bool) (m : Nat) (e : Int) : Int :=
  let mag : Int := m * 2 ^ (e + 200).toNat
  let x : Int := if s then -mag else mag
  match fn with
  | .exp2 => fxExp2 x
  | .log2 =>
      let k := Nat.log2 m
      let u : Int := m * 2 ^ (200 - k)
      (e + k) * fxOne + fxDiv (2 * fxAtanh (fxDiv (u - fxOne) (u + fxOne))) fxLn2
  | .rcp => fxDiv fxOne x
  | .rsq => fxDiv fxOne (isqrt (mag * fxOne).toNat 300 0)
  | .sqrt => isqrt (mag * fxOne).toNat 300 0
  | .sin => fxSin x
  | .cos => fxCos x
  | .tanh =>
      let v := fxDiv (fxOne - fxExpNeg (2 * mag)) (fxOne + fxExpNeg (2 * mag))
      if s then -v else v
  | .sig => fxDiv (if s then fxExpNeg mag else fxOne) (fxOne + fxExpNeg mag)
  | .gelu => fxMul x (fxPhi x)

/-- One ulp at a value. -/
def fxUlp (v : Int) : Int := 2 ^ max 51 (Nat.log2 v.natAbs - 23)

/-- The bound of R74's table. -/
def fxBound (fn : SfnOp) (v : Int) : Int :=
  match fn with
  | .exp2 | .log2 => 2 * fxUlp v
  | .rcp | .rsq | .sqrt => fxUlp v
  | .sin | .cos => 2 ^ 179
  | .tanh | .sig | .gelu => 2 ^ 180

/-- A free result kept to its bound: where it lies further from the computed value than the bound and the error of that
value, it is the value rounded (log entry 7). -/
def withinBound (v bound : Int) (free : Word) : Word :=
  let near := match unpack32 false free with
    | .fin s m e => decide (((signed s (m * 2 ^ (e + 200).toNat) - v).natAbs : Int) ≤ bound + 2 ^ 20 + v.natAbs / 2 ^ 60)
    | _ => false
  if near then free else wordOfNat (roundFin F32 .rn false (decide (v < 0)) v.natAbs (-200)).1

/-- Whether |x| ≤ 2^10 * pi, by the F32 pattern just below it (0x45490FDA is the last F32 value not above it). -/
def sinRange (a : Word) : Bool := decide (a.toNat % 2 ^ 31 ≤ 0x45490FDA)

/-- A free result clamped to [-1, 1]. -/
def clampOne (x : Word) : Word :=
  if x.toNat % 2 ^ 31 ≤ 0x3F800000 then x else (if x.getLsbD 31 then 0xBF800000 else 0x3F800000)

/-- The free word of a function at an operand. -/
def sfnFree (fn : SfnOp) (a : Word) : Word := Config.sfn (match fn with
  | .exp2 => 0 | .log2 => 1 | .rcp => 2 | .rsq => 3 | .sqrt => 4 | .sin => 5 | .cos => 6 | .tanh => 7 | .sig => 8
  | .gelu => 9) a

/-- The free result of a function at an operand, within the bound of R74. -/
def sfnNear (fn : SfnOp) (a : Word) (v : Int) : Word := withinBound v (fxBound fn v) (sfnFree fn a)

/-- The result where the table gives only a bound; it raises nothing. -/
def sfnOpen (fn : SfnOp) (a : Word) (s : Bool) (m : Nat) (e : Int) : Word × Word := (sfnNear fn a (fxValue fn s m e), 0)

/-- The result of a nonzero finite operand. -/
def sfnFin (fn : SfnOp) (a : Word) (s : Bool) (m : Nat) (e : Int) : Word × Word :=
  let mag := a.toNat % 2 ^ 31
  match fn with
  | .exp2 => if s ∧ 0x43160000 ≤ mag then (0, 0) else if ¬ s ∧ 0x43000000 ≤ mag then (0x7F800000, 0) else sfnOpen fn a s m e
  | .log2 => if s then (0x7FC00000, fNV) else if a = 0x3F800000 then (0, 0) else sfnOpen fn a s m e
  | .rcp | .tanh | .sig => sfnOpen fn a s m e
  | .rsq | .sqrt => if s then (0x7FC00000, fNV) else sfnOpen fn a s m e
  | .sin | .cos => if sinRange a then sfnOpen fn a s m e else (clampOne (sfnFree fn a), 0)
  | .gelu => if 0x41000000 ≤ mag then (if s then 0x80000000 else a, 0) else sfnOpen fn a s m e

/-- The result at an infinity. -/
def sfnInf (fn : SfnOp) (s : Bool) : Word × Word :=
  match fn with
  | .exp2 => (if s then 0 else 0x7F800000, 0)
  | .log2 => if s then (0x7FC00000, fNV) else (0x7F800000, 0)
  | .rcp => (if s then 0x80000000 else 0, 0)
  | .rsq => if s then (0x7FC00000, fNV) else (0, 0)
  | .sqrt => if s then (0x7FC00000, fNV) else (0x7F800000, 0)
  | .sin | .cos => (0x7FC00000, fNV)
  | .tanh => (if s then 0xBF800000 else 0x3F800000, 0)
  | .sig => (if s then 0 else 0x3F800000, 0)
  | .gelu => (if s then 0x80000000 else 0x7F800000, 0)

/-- The result at a zero. -/
def sfnZero (fn : SfnOp) (s : Bool) : Word × Word :=
  let z : Word := if s then 0x80000000 else 0
  match fn with
  | .exp2 => (0x3F800000, 0)
  | .log2 => (0xFF800000, fDZ)
  | .rcp | .rsq => (z ||| 0x7F800000, fDZ)
  | .sqrt | .sin | .tanh | .gelu => (z, 0)
  | .cos => (0x3F800000, 0)
  | .sig => (sfnNear .sig z (fxOne / 2), 0)

/-- R74: a special function of one operand; only NV and DZ are raised. -/
def sfnVal (ftz : Bool) (fn : SfnOp) (a : Word) : Word × Word :=
  let a := flush ftz a
  let (r, fl) :=
    match unpack32 false a with
    | .nan sig _ => (quiet a, flagIf sig fNV)
    | .inf s => sfnInf fn s
    | .fin s m e => if m = 0 then sfnZero fn s else sfnFin fn a s m e
  (flush ftz r, fl)

/-! ### The operations of memory atomics, folds and lane reductions (R118, R168) -/

/-- An F32 sum under RN with subnormals kept and every NaN canonical (R168). -/
def atomFadd (a b : Word) : Word :=
  if (firstNan [a, b]).isSome then wordOfNat F32.nanPat
  else wordOfNat (addNum F32 .rn false (unpack32 false a) (unpack32 false b)).1

end Sys2Proof.Machine
end

