-- ==== Sys2Proof/Machine/Table.lean ====
section
/-! DEFINITION. Sparse tables by number, and memory as a list of cells in canonical form: addresses strictly rising and
no cell equal to what an unlisted address reads as (0: R265 writes device memory with zeros before any partition is
created; R149 and R356 give a scratchpad that reads 0; log entry 2). -/

namespace Sys2Proof.Machine

/-- A sparse table: entries by number, rising. -/
abbrev Tab (α : Type) := List (Nat × α)

def Tab.find {α : Type} (t : Tab α) (k : Nat) : Option α :=
  match t with
  | [] => none
  | (i, x) :: r => if i = k then some x else Tab.find r k

def Tab.getD {α : Type} (t : Tab α) (k : Nat) (d : α) : α := (Tab.find t k).getD d

def Tab.set {α : Type} (t : Tab α) (k : Nat) (x : α) : Tab α :=
  match t with
  | [] => [(k, x)]
  | (i, y) :: r => if k < i then (k, x) :: (i, y) :: r else if i = k then (k, x) :: r else (i, y) :: Tab.set r k x

def Tab.erase {α : Type} (t : Tab α) (k : Nat) : Tab α := t.filter (fun e => e.1 != k)

def Tab.keys {α : Type} (t : Tab α) : List Nat := t.map Prod.fst

def Tab.vals {α : Type} (t : Tab α) : List α := t.map Prod.snd

/-- An update of one entry where it stands. -/
def Tab.mod {α : Type} (t : Tab α) (k : Nat) (f : α → α) : Tab α :=
  t.map (fun e => if e.1 = k then (e.1, f e.2) else e)

/-- An update of every entry. -/
def Tab.all' {α : Type} (t : Tab α) (f : Nat → α → α) : Tab α := t.map (fun e => (e.1, f e.1 e.2))

/-- The list with position k replaced. -/
def setAt {α : Type} : List α → Nat → α → List α
  | [], _, _ => []
  | _ :: r, 0, x => x :: r
  | y :: r, k + 1, x => y :: setAt r k x

/-! ### Memory -/

abbrev Mem := List Host.Cell

/-- The byte at an address; an unlisted address reads 0. -/
def Mem.read (m : Mem) (a : Nat) : Byte :=
  match m with
  | [] => 0
  | (i, x) :: r => if i = a then x else Mem.read r a

/-- One byte written: the cell is listed where the byte is not 0, and removed where it is. -/
def Mem.write (m : Mem) (a : Nat) (b : Byte) : Mem :=
  match m with
  | [] => if b = 0 then [] else [(a, b)]
  | (i, x) :: r =>
      if a < i then (if b = 0 then (i, x) :: r else (a, b) :: (i, x) :: r)
      else if a = i then (if b = 0 then r else (a, b) :: r)
      else (i, x) :: Mem.write r a b

/-- n bytes from an address, rising. -/
def Mem.readN (m : Mem) (a : Nat) : Nat → List Byte
  | 0 => []
  | n + 1 => Mem.read m a :: Mem.readN m (a + 1) n

/-- Bytes written from an address, rising. -/
def Mem.writeN (m : Mem) (a : Nat) : List Byte → Mem
  | [] => m
  | b :: bs => Mem.writeN (Mem.write m a b) (a + 1) bs

/-- n bytes from an address set to 0. -/
def Mem.clear (m : Mem) (a n : Nat) : Mem := m.filter (fun c => decide (c.1 < a) || decide (a + n ≤ c.1))

/-- The canonical form: every address above `lo` (where given) and rising, no byte 0. -/
def Mem.wfFrom : Option Nat → Mem → Bool
  | _, [] => true
  | lo, (i, x) :: r => (match lo with
      | none => true
      | some l => decide (l < i)) && x != 0 && Mem.wfFrom (some i) r

def Mem.wf (m : Mem) : Bool := Mem.wfFrom none m

/-- The same, by the memory's name. -/
abbrev Memory.wf (m : Mem) : Bool := Mem.wf m

end Sys2Proof.Machine
end

