-- ==== Sys2Proof/Machine/State.lean ====
section
/-! DEFINITION. The state of the machine: everything the spec names, as plain data. Tables are sparse (Table.lean): an
entry that is absent is at its reset value. -/

namespace Sys2Proof.Machine

/-! ### Registers and the reconvergence stack (R9 to R22) -/

/-- A capability register: its tag bit and 128 bits (R14, R154). -/
structure Cap where
  tag  : Bool := false
  bits : BitVec 128 := 0
  deriving DecidableEq, Repr

/-- A bypass latch: valid or lost as a whole (R16); its value in each lane. -/
structure Latch where
  valid : Bool := false
  vals  : List Word := []
  deriving DecidableEq, Repr

inductive EntryKind where
  | join | loop | call | trap
  deriving DecidableEq, Repr

/-- A reconvergence-stack entry (R21). -/
structure Entry where
  mask : Word
  pkt  : BitVec 52
  slot : BitVec 2
  kind : EntryKind
  tag  : BitVec 8 := 0
  aux  : Word := 0
  deriving DecidableEq, Repr

/-- A special-function token (R17, R123): a pending one carries the destination (none where W = 1 or code 124), the
lanes with their results and flags, and the cycle at which its last pass ends (R122). -/
inductive Tok where
  | free
  | pending (d : Option (Fin 120)) (vals : List (Nat × Word)) (flags : Word) (ends : Nat)
  | done
  deriving DecidableEq, Repr

inductive BatchStatus where
  | ok | mxerr | reset
  deriving DecidableEq, Repr

/-- What a matrix unit does (R183). -/
inductive MKind where
  | mma | mmas | mmat | mxq | mxrd | mxst | mxclr
  deriving DecidableEq, Repr

/-- A layout record as read (R185): BASE and the four dimensions, stride and extent. -/
structure Layout where
  base : Nat := 0
  dims : List (Int × Nat) := []
  deriving DecidableEq, Repr

/-- A format block as read (R187). -/
structure MFmt where
  word : Word := 0
  ascl : Nat := 0
  bscl : Nat := 0
  deriving DecidableEq, Repr

/-- A matrix unit (R183, R189): its word, the mask, mode and operands captured at issue, the step of an MMAT, the KIND of
an error unit (0: none), and its batch (none: the open set). -/
structure MUnit where
  kind  : MKind
  xm    : Word
  sat   : Bool := false
  acc   : Bool := false
  lay   : Layout := {}
  layA  : Layout := {}
  fmt   : MFmt := {}
  aop   : List (List Word) := []
  idx   : Nat := 0
  d     : Nat := 0
  g     : Nat := 0
  w     : Bool := false
  had   : HadMode := .plain
  k     : Nat := 0
  step  : Nat := 0
  bad   : Nat := 0
  batch : Option Nat := none
  deriving DecidableEq, Repr

/-- A batch of the pane (R17, R198, R200): pending or complete with a status, and the fields of its detail word. -/
structure Batch where
  pending : Bool := false
  status  : BatchStatus := .ok
  kind    : Nat := 0
  banks   : Nat := 0
  accs    : Nat := 0
  deriving DecidableEq, Repr

/-- Errors gathered by a set of units: KIND of the earliest, BANKS, ACCS (R200), whether a reset discarded units. -/
structure MErr where
  kind  : Nat := 0
  banks : Nat := 0
  accs  : Nat := 0
  lost  : Bool := false
  deriving DecidableEq, Repr

/-- What the operand collector holds (R191): FMT, APL and the A rows; no format where the word's block could not be read. -/
structure Collector where
  key : Option (Nat × Nat)
  aop : List (List Word)
  deriving DecidableEq, Repr

/-- The pane's matrix state (R182, R183, R191, R198): tiles, the engine that holds its tile set, the queue of units, the
collector, the batches, the next batch number, how many units the open set has and their errors, the errors of each
batch's units, the mark of R206, and the pending batches in closing order. -/
structure MxPane where
  ta0    : List (List Word) := List.replicate 32 (List.replicate 32 0)
  ta1    : List (List Word) := List.replicate 32 (List.replicate 32 0)
  tileSet : Option Nat := none
  units  : List MUnit := []
  coll   : Option Collector := none
  batches : List Batch := List.replicate 8 {}
  next   : BitVec 3 := 0
  openN  : Nat := 0
  openErr : MErr := {}
  errs   : List MErr := List.replicate 8 {}
  marked : Bool := false
  order  : List Nat := []
  deriving DecidableEq, Repr

/-- Why a pane is parked (R135): a WAITMEM wait, TRAP.HOST (with what its resumption does), a barrier's phase. -/
inductive Park where
  | waitmem
  | host (rtt : Bool) (again : Bool)
  | bar (b : Nat)
  | clbar (b : Nat)
  deriving DecidableEq, Repr

/-- Where a pane is (R135). -/
inductive Place where
  | resident (slot : Nat)
  | ready
  | parked (why : Park)
  | exited
  deriving DecidableEq, Repr

/-- A loop level's buffered values (R110): the body's length and the increment fields. -/
structure LoopBuf where
  pkt  : BitVec 52
  len  : Nat
  incs : List LoopInc
  deriving DecidableEq, Repr

/-- A packet as fetched: three words and the sill (R27); `bad` where the fetch was unresolved or poisoned (R29). -/
structure Packet where
  addr : BitVec 52
  w0   : Word
  w1   : Word
  w2   : Word
  sill : Word
  bad  : Bool := false
  deriving DecidableEq, Repr

/-- A save-area access of R22 that a push or pop waits for: the spill of the oldest on-chip entry, or a refill. -/
inductive SaveAcc where
  | spill (trap : Bool)
  | refill
  deriving DecidableEq, Repr

/-- A pending wait of the pane (R31): the word at its pc has begun to wait. -/
inductive Wait where
  | none
  | begun
  | failed
  deriving DecidableEq, Repr

/-- A pane's WAITMEM (R143, R144): the word's address and object, the expected value and its register, the cycle at which
its time is over; whether it holds a watch of its core; whether the final read is due (its time is over, or its watch is released or
was never taken); whether the word has been compared since the park; the differing value that a write left (R144). -/
structure Watch where
  addr  : Nat
  obj   : Nat
  expect : Word
  d     : Option (Fin 64)
  until_ : Option Nat := none
  holds : Bool := true
  due   : Bool := false
  looked : Bool := false
  got   : Option Word := none
  deriving DecidableEq, Repr

/-- A pane (R10, R17). `inCore` says that its state lies in the core, `moving` that its involuntary departure has begun
(R140), `midGroup` that a save access has held it within a group (R26), `swapped` that its state has been saved, `restoring` that it has a slot and its state is not back yet; `since` is the
cycle at which it took or left its slot. `clock` is what the pane's die must have applied before its next memory word (R249,
R240, R241); `seen` is what the reads and engine operations behind its replies had seen, which the next acquisition adds to
`clock`. -/
structure Pane where
  pid     : Nat := 0
  grid    : Nat := 0
  team    : Nat := 0
  pord    : Nat := 0
  npane   : Nat := 0
  depth   : Nat := 1
  spawned : Bool := false
  part    : Nat := 0
  prio    : Nat := 0
  core    : Nat := 0
  place   : Place := .exited
  inCore  : Bool := false
  moving  : Bool := false
  swapped : Bool := false
  restoring : Bool := false
  lastSlot : Nat := 0
  since   : Nat := 0
  nregs   : Nat := 8
  pc      : BitVec 56 := 0
  nextPc  : Option (BitVec 56) := none
  exiting : Bool := false
  wait    : Wait := .none
  ibuf    : Option Packet := none
  lbuf0   : Option LoopBuf := none
  lbuf1   : Option LoopBuf := none
  v       : List (List Word) := List.replicate 8 (List.replicate 32 0)
  s       : List Word := List.replicate 64 0
  p       : List Word := List.replicate 7 0
  xm      : Word := 0xFFFFFFFF
  c       : List Cap := List.replicate 32 {}
  y0      : Latch := {}
  y1      : Latch := {}
  y2      : Latch := {}
  y3      : Latch := {}
  ac      : List (BitVec 8) := List.replicate 16 0
  acData  : BitVec 16 := 0
  acEng   : BitVec 16 := 0
  tk      : List Tok := List.replicate 16 .free
  mx      : MxPane := {}
  stack   : List Entry := []
  deep    : Nat := 0
  saveAcc : Option SaveAcc := none
  saveBad : Word := 0
  midGroup : Bool := false
  pendTrap : Option (BitVec 8 × Word) := none
  cPend   : Word := 0
  sPend   : BitVec 64 := 0
  relMark : Nat := 0
  acqMark : Nat := 0
  sysMark : Nat := 0
  barRec  : List (Option Nat) := List.replicate 16 none
  clbRec  : List (Option Nat) := List.replicate 16 none
  clbHome : Option Nat := none
  xstat   : Word := 0
  xctl    : Word := 0
  trapvecL : Word := 0
  trapvecH : Word := 0
  stksaveL : Word := 0
  stksaveH : Word := 0
  stklim  : Word := 0
  bconf   : Word := 0
  saveRec : Option Nat := none
  stkArea : Option Nat := none
  clock   : Tab Nat := []
  watch   : Option Watch := none
  waitOn  : Option Park := none
  ctxs    : List Nat := []
  seen    : Tab Nat := []
  deriving DecidableEq, Repr

/-- A named or cluster barrier (R152, R213): `last` is the cycle of its last arrival, `past` the phases that completed lately, with
the cycle of their final arrival (R214). -/
structure Bar where
  phase : Nat := 0
  count : Nat := 0
  total : Option Nat := none
  grid  : Nat := 0
  last  : Nat := 0
  past  : List (Nat × Nat) := []
  deriving DecidableEq, Repr

/-- A team (R141, R151, R152): its scratchpad lies at `spds` in the home core's slice while it has one; the image of
its save record else; its named barriers. -/
structure Team where
  grid    : Nat
  ord     : Nat
  part    : Nat
  home    : Option Nat := none
  spds    : Nat := 0
  scratch : Nat := 0
  bars    : List Bar := List.replicate 16 {}
  image   : List Byte := []
  saveRec : Option Nat := none
  deriving DecidableEq, Repr

/-! ### Memory requests (R165 to R180) -/

inductive Space where
  | sp | ds | dm | tm | pm | hm
  deriving DecidableEq, Repr

/-- Causes of R180, in its order 1 to 3. -/
inductive Cause where
  | unresolved | poisoned | refused
  deriving DecidableEq, Repr

inductive ReqKind where
  | load | store | atomic | red | cld | cst | prefetch | tex | hgrid | posrd | sig | skupd
  deriving DecidableEq, Repr

/-- How far a lane's access is: held at a page that is not resident; parked in a write-protect window or at a duplicated
page; taken out of the park buffer by a new GEN; translated, `copy` for a read-only duplicate; under way to its home;
performed or read; failed. -/
inductive Stage where
  | issued
  | held (tag : Nat)
  | parked
  | replay
  | ported (pa : Nat) (tier1 copy : Bool)
  | queued
  | landed
  | failed (c : Cause)
  deriving DecidableEq, Repr

/-- One lane's access: its address in the space, the bytes it stores or its operand, the bytes it read and the tag that a
CLD read, the lanes it stands for in a fault record, whether it is at its second translation (R230), its write's number,
and the host address of an HM access. -/
structure Lane where
  lane  : Nat
  addr  : Nat
  data  : List Byte := []
  got   : List Byte := []
  gotTag : Bool := false
  mask  : Word := 0
  stage : Stage := .issued
  again : Bool := false
  num   : Nat := 0
  pa    : Nat := 0
  deriving DecidableEq, Repr

/-- One memory word under way. `accepted` is R175's acceptance; `entry` says that it holds a store-origin entry (R179);
`extra` holds the modifier and operands of TEX, HGRID and POSRD; `clock` what the places its lanes read had seen (R240); `peer` the
request of a peer package that this one performs (R367). -/
structure Req where
  rid    : Nat
  kind   : ReqKind
  space  : Space
  pid    : Nat
  core   : Nat
  part   : Nat
  grid   : Nat
  team   : Nat
  pord   : Nat
  pkt    : BitVec 52
  slot   : BitVec 2
  op     : Nat
  obj    : Nat := 0
  vbase  : Nat := 0
  size   : Nat := 4
  d      : Option Nat := none
  regs   : Nat := 1
  sx     : Bool := false
  aop    : AOp := .add
  ac     : Option (Fin 16) := none
  acq    : Bool := false
  rel    : Bool := false
  sys    : Bool := false
  st     : Bool := false
  tag    : Bool := false
  lanes  : List Lane := []
  accepted : Bool := false
  destAccepted : Bool := false
  entry  : Bool := false
  cancelled : Bool := false
  exited : Bool := false
  left   : Bool := false
  xm     : Word := 0
  extra  : List Nat := []
  clock  : Tab Nat := []
  peer   : Option PeerReq := none
  deriving DecidableEq, Repr

/-- What an EVICT holds (R330): the pin, whether the page list has been read, the list, the tokens kept so far (page, slot, mass, position), the
tokens dropped, the next page to scan or write, and the number it took where it came to its EVE later than it issued. -/
structure Evict where
  handle  : Word := 0xFFFFFFFF
  root    : Nat := 0
  listed  : Bool := false
  nextpos : Nat := 0
  tsz     : Nat := 0
  pages   : List (Nat × Nat) := []
  keep    : List (Nat × Nat × Word × Word) := []
  dead    : Nat := 0
  k       : Nat := 0
  code    : Nat := 0
  out     : Word := 0xFFFFFFFF
  arrival : Nat := 0
  deriving DecidableEq, Repr

/-- A package engine command under way (R273): the word, what it captured, its stage and its results. -/
structure Cmd where
  id    : Nat
  i     : Instr
  pid   : Nat
  core  : Nat
  part  : Nat
  grid  : Nat
  team  : Nat
  pord  : Nat
  pkt   : BitVec 52
  slot  : BitVec 2
  caps  : List Cap := []
  words : List Word := []
  lanes : List (Nat × List Word) := []
  xm    : Word := 0
  ftz   : Bool := false
  ac    : Option (Fin 16) := none
  mark  : Nat := 0
  stamp : Tab Nat := []
  stage : Nat := 0
  base  : Nat := 0
  aux   : List Nat := []
  ev    : Evict := {}
  deriving DecidableEq, Repr

/-- A die engine command (R221 to R229): its element count and how far it is, the elements that failed, that wait on a page
(with the tag) and that are to be replayed, its status code, the chain record, ROUTE's rows and how far its copies are, and the
source bytes that a CHAIN in place has read ahead of its writes; what it has paid its port for its next chunk (R359), and whether the
held lines that the chunk under way reads have uncorrectable errors (R219). -/
structure ECmd where
  cmd     : Cmd
  n       : Nat
  running : Bool := false
  next    : Nat := 0
  sent    : Nat := 0
  failed  : List Nat := []
  waiting : List (Nat × Nat) := []
  ready   : List Nat := []
  code    : Nat := 0
  record  : List Word := []
  routes  : List (Nat × Nat) := []
  ahead   : List (Nat × List Byte) := []
  paid    : Nat := 0
  bad     : Bool := false
  deriving DecidableEq, Repr

/-- An engine block of a die (R228, R232). -/
structure Blk where
  cmds : List ECmd := []
  hung : Bool := false
  deriving DecidableEq, Repr

/-- A write in a die's apply queue (R220): its source die and number, its predecessors, its line, place and bytes,
whether an atomic or a reduction makes it, whether its home has performed it, whether it is one of several
operations under one number (R289), and whether it stores a set tag (R159). -/
structure Apply where
  src   : Nat
  num   : Nat
  stamp : Tab Nat
  line  : Nat
  off   : Nat
  bytes : List Byte
  key   : Nat
  rmw   : Bool := false
  done  : Bool := false
  sub   : Bool := false
  tag   : Bool := false
  deriving DecidableEq, Repr

/-- A line the die cache holds (R219): its bytes, whether it is marked for replacement first, and its tagged granules (0 to 3). -/
structure CLine where
  line : Nat
  key  : Nat
  data : List Byte
  first : Bool := false
  tags : List Nat := []
  deriving DecidableEq, Repr

/-- An extent of an object (R230). -/
structure Extent where
  dup   : Nat
  state : Nat
  tier1 : Bool
  pfn   : Nat
  voff  : Nat
  nlen  : Nat
  deriving DecidableEq, Repr

/-- An object-table entry as the port's cache holds it, under the GEN of its fill (R230, R231); `win` is its first
extent's sixteen bytes, which a peer window reads in its own layout (R366). -/
structure Obj where
  gen   : Nat
  part  : Nat
  obj   : Nat
  valid : Bool
  key   : Nat
  kind  : Nat
  vbase : Nat
  len   : Nat
  exts  : List Extent
  win   : Nat := 0
  deriving DecidableEq, Repr

/-- A cluster (R213, R216, R217): its mesh stop and the barrier sets it holds, by partition. -/
structure Cluster where
  failed : Bool := false
  retry  : Nat := 0
  sets   : Tab (List Bar) := []
  deriving DecidableEq, Repr

/-- A compute die: its vector clock (R220), cache, apply queue, object cache, engine blocks, clusters, links; `peerPorts` is the
port that its requests to a peer's object took (R366). -/
structure Die where
  clock   : Tab Nat := []
  lines   : List CLine := []
  applyQ  : List Apply := []
  objs    : List Obj := []
  blks    : List Blk := List.replicate 4 {}
  cls     : List Cluster := List.replicate 4 {}
  dropped : List (Nat × Nat) := []
  links   : List Nat := []
  peerPorts : Tab Nat := []
  dcerr   : Nat := 0
  frozen  : Bool := false
  tmax    : Nat := 0
  tcrit   : Nat := 110
  twarn   : Nat := 100
  deriving DecidableEq, Repr

/-- A spawn bin (R148): its key (entry and grid), threads with eight payload words and the ray context of a callback
thread, the cycle its timer ends and its most recent insertion. -/
structure Bin where
  key     : Option (Nat × Nat) := none
  threads : List (List Word × Option Nat) := []
  ends    : Nat := 0
  touched : Nat := 0
  deriving DecidableEq, Repr

/-- A pane the formation path holds (R149). -/
structure Forming where
  entry   : Nat
  grid    : Nat
  threads : List (List Word × Option Nat)
  deriving DecidableEq, Repr

/-- A matrix engine (R183, R205): hung, and the place of the round-robin. -/
structure MEng where
  hung : Bool := false
  rr   : Nat := 0
  deriving DecidableEq, Repr

/-- A ray record (R297): the ray, its pending treelets with the top first, its closest hit, and its origin: core,
context, and the lane that cast it. -/
structure RayRec where
  ox    : Word
  oy    : Word
  oz    : Word
  tmin  : Word
  dx    : Word
  dy    : Word
  dz    : Word
  tmax  : Word
  rayid : Word
  pend  : List Nat := []
  ovf   : Bool := false
  hit   : Bool := false
  back  : Bool := false
  prim  : Word := 0xFFFFFFFF
  u     : Nat := 0
  v     : Nat := 0
  core  : Nat
  ctx   : Nat
  lane  : Nat
  deriving DecidableEq, Repr

/-- A final record (R309): when and where the ray finished, whether it was invalid or met a fault, and the handle. -/
structure RayFin where
  ray    : RayRec
  ts     : Nat
  stack  : Nat
  inv    : Bool
  fault  : Bool
  handle : Word
  deriving DecidableEq, Repr

/-- A ray context (R300, R311): what the cast captured, the pinned version's handle, whether its rays have been sent, the
lanes whose rays are not placed yet, the rays whose records are not inserted, the callback threads in bins, the panes
that hold such threads and the panes that ever did. -/
structure RayCtx where
  grid    : Nat
  part    : Nat
  cmd     : Nat
  cap     : Cap
  hit     : Nat
  miss    : Nat
  cull    : Cull
  rays    : List (Nat × List Word)
  handle  : Word := 0xFFFFFFFF
  sent    : Bool := false
  flying  : List Nat := []
  left    : Nat := 0
  held    : Nat := 0
  panes   : Nat := 0
  pids    : List Nat := []
  bad     : Bool := false
  deriving DecidableEq, Repr

/-- A core (R133 to R138, R148, R173, R360); `sfnQ` holds the cycles at which the issues of its eight special-function queues have
made their last pass (R122), `pend` the insertions of the cycle into its bins, callback threads marked (R148,
rule 6). -/
structure Core where
  part    : Nat := 0
  busy    : Bool := false
  err     : Bool := false
  out     : Bool := false
  timer   : Nat := 0
  queues  : List (List Nat) := List.replicate 8 []
  bins    : List Bin := List.replicate 16 {}
  forming : List Forming := []
  pend    : List (Bool × (Nat × Nat) × List (List Word × Option Nat)) := []
  engs    : List MEng := List.replicate 2 {}
  sfnQ    : List (List Nat) := List.replicate 8 []
  cmdGrid : Word := 0
  cmdTeam : Word := 0
  cmdPord : Nat := 0
  cmdBusy : Bool := false
  ctxs    : Tab RayCtx := []
  reorder : List RayFin := []
  horIn   : Tab Nat := []
  horizons : Tab Nat := []
  lastTick : Nat := 0
  deriving DecidableEq, Repr

/-- A partition (R349, R216, R231, R394): its control registers, generation, the TDI state. -/
structure Part where
  groups  : BitVec 16 := 0
  share   : BitVec 8 := 0
  en      : Bool := false
  gen     : Nat := 0
  genCur  : Nat := 0
  genDone : Bool := true
  spn     : Nat := 2048
  clbAddr : Nat := 0
  clbV    : Bool := false
  clbSaved : List Nat := []
  tdi     : Nat := 0
  deriving DecidableEq, Repr

/-- An event ring (R386). -/
structure Ring where
  en    : Bool := false
  base  : Nat := 0
  logsz : Nat := 0
  head  : Nat := 0
  tail  : Nat := 0
  lost  : Nat := 0
  warned : Bool := false
  deriving DecidableEq, Repr

/-- An event record (R385), before its 64 bytes are laid out: DETAIL as a list of 32-bit words. -/
structure EvRec where
  typ    : Nat
  part   : Nat
  source : Nat
  ts     : Nat
  seq    : Nat
  detail : List Word
  deriving DecidableEq, Repr

/-- A live grid (R351, R356, R358), from its launch record. -/
structure Grid where
  part    : Nat
  prio    : Nat
  depth   : Nat
  parent  : Option Nat
  entry   : Nat
  nteam   : Nat
  npm1    : Nat
  ftz     : Bool
  mxsat   : Bool
  stklim  : Nat
  stksave : Nat
  psave   : Nat
  psaven  : Nat
  tsave   : Nat
  tsaven  : Nat
  sstk    : Nat
  sstkn   : Nat
  hint    : BitVec 16
  args    : List Word
  caps    : List Cap
  wctr    : List Nat
  wval    : List Nat
  sigctr  : Nat
  siginc  : Nat
  regs    : Nat
  scratch : Nat
  trapvec : Nat
  placed  : Nat := 0
  started : Bool := false
  clock   : Tab Nat := []
  dies    : List Nat := []
  psUsed  : List Nat := []
  tsUsed  : List Nat := []
  stUsed  : List Nat := []
  deriving DecidableEq, Repr

/-- A work queue (R354); `clock` is what the writer of its tail had seen (R242). -/
structure Queue where
  base : Nat := 0
  tail : BitVec 32 := 0
  head : BitVec 32 := 0
  en   : Bool := false
  prio : Nat := 0
  part : Nat := 0
  logsz : Nat := 0
  err  : Bool := false
  clock : Tab Nat := []
  deriving DecidableEq, Repr

/-- An event counter (R353). -/
structure Ctr where
  owner : Nat := 0
  value : BitVec 64 := 0
  clock : Tab Nat := []
  deriving DecidableEq, Repr

/-- Whose access, other than a lane's or an element's, may wait for a page response: a fetch, a stack save access, a save or a
resumption of a pane; a core's formation path; the dispatcher for a queue or a child grid; a pane's watch; a core's switch; a
package engine command or a filtered read, by number; a ray context; a peer's request. -/
inductive Waiter where
  | fetch (pid : Nat)
  | stack (pid : Nat)
  | save (pid : Nat)
  | kernel (core : Nat)
  | launch (k : Nat)
  | watch (pid : Nat)
  | switch (core : Nat)
  | cmd (id : Nat)
  | eng (id : Nat)
  | ray (core ctx : Nat)
  | peer (port : Nat)
  deriving DecidableEq, Repr

/-- Who asks for a page: a request of a core, an engine block of a die, another unit. -/
inductive Asker where
  | req (rid : Nat)
  | blk (die b : Nat)
  | unit (who : Waiter)
  deriving DecidableEq, Repr

/-- A page request in the tag table (R388): its PASID is the partition, `prg` its PRG index. -/
structure PageReq where
  part  : Nat
  obj   : Nat
  page  : Nat
  prg   : Nat
  who   : Asker
  deriving DecidableEq, Repr

/-- A write in a die's park buffer (R268, R248): a lane of a request; a unit's, which performs it itself; an element's of a
die engine command (or of a combiner's elements), with its bytes or operand. `replay` says that it may go on. -/
inductive ParkKind where
  | lane (rid lane : Nat)
  | unit (who : Waiter)
  | elem (cmd : Nat) (is : List Nat) (cap : Cap) (off : Nat) (bytes : List Byte) (op : Option AOp)
  deriving DecidableEq, Repr

structure Parked where
  die    : Nat
  part   : Nat
  obj    : Nat
  kind   : ParkKind
  replay : Bool := false
  deriving DecidableEq, Repr

/-- A parity delta under way (R262): the line, the place of the bytes written, the exclusive or of old and new, that of the TAG fields
of the sideband (R258), and whether a whole line was written, whose old value is read for the delta alone. -/
structure Delta where
  line : Nat
  off  : Nat
  x    : List Byte
  tags : Nat := 0
  whole : Bool := false
  deriving DecidableEq, Repr

/-- What the cells of a degraded channel still hold of a line whose writes went to its parity alone (R264). -/
structure Shadow where
  data : List Byte
  key  : Nat × Nat
  tags : List Nat
  bad  : Bool
  deriving DecidableEq, Repr

/-- A channel's counter block (R266) and RDX counter block (R280). -/
structure ChanCtr where
  reads : Nat := 0
  writes : Nat := 0
  act : Nat := 0
  supact : Nat := 0
  aged : Nat := 0
  delta : Nat := 0
  fullstripe : Nat := 0
  macfail : Nat := 0
  rebuild : Nat := 0
  poison : Nat := 0
  atomics : Nat := 0
  reductions : Nat := 0
  coalesced : Nat := 0
  refused : Nat := 0
  skops : Nat := 0
  deriving DecidableEq, Repr

inductive ChanKind where
  | load | store | rmw | cld | cst
  deriving DecidableEq, Repr

/-- A line access waiting at a channel (R267): its line, the request and lane it serves, its bytes or operand, the tag a
CST stores, and its number in the apply queues (0 for a read). -/
structure ChanItem where
  kind  : ChanKind
  line  : Nat
  pa    : Nat
  tier1 : Bool
  rid   : Nat
  lane  : Nat
  die   : Nat
  part  : Nat
  size  : Nat
  bytes : List Byte := []
  tag   : Bool := false
  op    : AOp := .add
  num   : Nat := 0
  fill  : Bool := true
  deriving DecidableEq, Repr

/-- A ray message (R298): the structure's capability, CULL, ROOT - BASE, the treelet, the handle, the record. -/
structure RayMsg where
  cap     : Cap
  part    : Nat
  cull    : Cull
  root    : Nat
  treelet : Nat
  handle  : Word
  ray     : RayRec
  deriving DecidableEq, Repr

/-- A line of the node buffer; `bad`: it holds an uncorrectable error that no read has met yet (R304). -/
structure NodeLine where
  key  : Nat
  obj  : Nat
  addr : Nat
  tver : Nat
  line : Nat
  data : List Byte
  bad  : Bool := false
  deriving DecidableEq, Repr

/-- What becomes of a ray: a message to the TRV of a base die, or a final record (R302, R307). -/
inductive RayOut where
  | send (stack : Nat) (m : RayMsg)
  | fin (f : RayFin)
  deriving DecidableEq, Repr

/-- The ray traversal unit of a base die (R304 to R308, R314): messages under way to it with the base die each comes from,
the bound queues, the spill ring, the batch that runs with how many of its rays have left and its first
fault, the completion buffer, its translations and node buffer, its
registers and counts. -/
structure Trv where
  inbox   : List (Nat × RayMsg) := []
  queues  : Tab (List RayMsg) := []
  spill   : List RayMsg := []
  run     : Option (List RayMsg) := none
  left    : Nat := 0
  bad     : Option (RayMsg × Nat) := none
  outq    : List RayFin := []
  objs    : List Obj := []
  nodes   : List NodeLine := []
  qdepth  : Nat := 64
  rbase   : Nat := 0
  rsize   : Nat := 0
  rtail   : Nat := 0
  full    : Bool := false
  hung    : Bool := false
  batches : Nat := 0
  spilled : Nat := 0
  ovfrays : Nat := 0
  faults  : Nat := 0
  finished : Nat := 0
  deriving DecidableEq, Repr

/-- A base die. -/
structure Base where
  chdegr  : BitVec 32 := 0
  chans   : Tab ChanCtr := []
  trv     : Trv := {}
  eveHung : Bool := false
  evicts  : Nat := 0
  deadtok : Nat := 0
  tmax    : Nat := 0
  tcrit   : Nat := 110
  twarn   : Nat := 100
  frozen  : Bool := false
  deltas  : List Delta := []
  deriving DecidableEq, Repr

/-- A message that waits for a window: its session at this package (0: link management), virtual lane and payload, and the lane of the
request it carries. -/
structure OutMsg where
  sess : Nat
  vl   : Nat
  msg  : List Byte
  req  : Option (Nat × Nat) := none
  deriving DecidableEq, Repr

/-- A flit sent and not acknowledged: its number, how often it was resent, its bytes, the lane of the request it carries. -/
structure OutFlit where
  lseq   : Nat
  resent : Nat
  bytes  : List Byte
  req    : Option (Nat × Nat) := none
  deriving DecidableEq, Repr

/-- A fabric port and its link (R362 to R365): the flits sent and not acknowledged; the windows of the virtual lanes and the flits that
went each way since they were last advertised; the messages that wait for a window. -/
structure Port where
  up       : Bool := false
  failed   : Bool := false
  authfail : Nat := 0
  retry    : Nat := 0
  dropped  : Nat := 0
  lseq     : Nat := 0
  expect   : Nat := 0
  lack     : Nat := 0
  unacked  : List OutFlit := []
  reqOut   : Bool := false
  txWin    : List Nat := List.replicate 8 0
  rxWin    : List Nat := List.replicate 8 0
  txUsed   : List Nat := List.replicate 8 0
  rxUsed   : List Nat := List.replicate 8 0
  sendQ    : List OutMsg := []
  deriving DecidableEq, Repr

/-- A fabric session (R362, R364, R376): its number at this package's port and at the peer's, the peer package and partition, the local partition, the
port, the key's number, the last sequence number accepted and the last one sent. -/
structure Session where
  num    : Nat
  rnum   : Nat := 0
  peer   : Nat
  ppart  : Nat
  part   : Nat
  port   : Nat
  key    : Nat
  rxSeq  : Nat := 0
  txSeq  : Nat := 0
  failed : Bool := false
  deriving DecidableEq, Repr

/-- A collective under way (R369 to R373): the group, this rank, the sketch header of its source, the next chunk it
contributes, the folds of the chunks it owns with the ranks they hold, contributions that wait for its own, the chunks
whose results are written, the SAT bits gathered, its code; what the ranks heard had seen (R373). -/
structure Coll where
  cmd     : Cmd
  base    : Nat
  started : Bool := false
  ranks   : List (Nat × Nat) := []
  myrank  : Nat := 0
  hdr     : List Word := []
  next    : Nat := 0
  folds   : Tab (List Word × List Nat) := []
  hold    : List CollMsg := []
  got     : List Nat := []
  sat     : Nat := 0
  code    : Nat := 0
  warned  : Bool := false
  clock   : Tab Nat := []
  deriving DecidableEq, Repr

/-- The SPDM responder (R376): the phase it is in, the negotiated algorithms, the transcript, the secure session. -/
structure Spdm where
  phase   : Nat := 0
  algs    : List Nat := []
  script  : List Byte := []
  session : Option Nat := none
  out     : List (List Byte) := []
  ide     : List (List Byte) := []
  via     : Option Nat := none
  deriving DecidableEq, Repr

/-- The life record and its export (R392, R394). -/
structure Life where
  ram   : Tab Nat := []
  flash : Tab Nat := []
  busy  : Bool := false
  err   : Bool := false
  addr  : Nat := 0
  deriving DecidableEq, Repr

/-- Whether the turn's group goes on, is held (no word of it takes effect), or has ended with the pc already set. -/
inductive Issue where
  | go | held | ended
  deriving DecidableEq, Repr

/-- The machine. `pane` is the pane whose turn it is; `panes` are the others. `ref` is the port of a die that has touched
nothing: what such a die has applied. `answered` holds the page responses that a waiting unit has not seen, `parkQ` the park
buffers in park order, `chanEvs` how a line's next access fares at its channel, `parity` the parity lines, `parityTags` the TAG fields of their sidebands, `shadow` what
degraded channels hold, `hmClock` and `lineClock` what the writers of host words and of
lines had seen (R240, R242), `hostClock` what the host's writes name. -/
structure State where
  pane     : Pane := {}
  panes    : Tab Pane := []
  issue    : Issue := .go
  word     : Word := 0
  sill     : Word := 0
  after    : BitVec 56 := 0
  agenda   : List Instr := []
  cycle    : Nat := 0
  cursor   : Nat := 0
  turns    : List Nat := []
  time     : Nat := 0
  freeCount : Nat := 0
  nextRid  : Nat := 1
  nextPid  : Nat := 1
  nextGrid : Nat := 1
  nextSeq  : Nat := 1
  teams    : Tab Team := []
  cores    : Tab Core := []
  dies     : Tab Die := []
  bases    : Tab Base := []
  parts    : Tab Part := []
  reqs     : Tab Req := []
  cmds     : Tab Cmd := []
  colls    : Tab Coll := []
  chanQ    : List ChanItem := []
  ref      : Die := {}
  grids    : Tab Grid := []
  accepted : List Nat := []
  children : Nat := 0
  queues   : Tab Queue := []
  rrQueue  : List Nat := List.replicate 8 0
  ctrs     : Tab Ctr := []
  buckets  : Tab Nat := []
  lastBand : Nat := 0
  pages    : Tab PageReq := []
  answered : List (Waiter × Nat × Nat × Nat × Bool) := []
  rings    : Tab Ring := []
  seqs     : Tab Nat := []
  msix     : List Nat := []
  records  : List EvRec := []
  dm       : Mem := []
  ds       : Mem := []
  hm       : Mem := []
  tags     : List Nat := []
  poisoned : List Nat := []
  lineKey  : Tab (Nat × Nat) := []
  keyGen   : Tab Nat := []
  issued   : Tab Nat := []
  rdup     : Bool := false
  macOn    : Bool := true
  parityOn : Bool := true
  otAddr   : Tab (Tab Nat) := []
  isl      : Tab (Nat × Nat) := []
  ports    : Tab Port := []
  sessions : List Session := []
  ackOut   : List (PeerReq × Option Nat) := []
  pmDone   : Tab Req := []
  collOut  : List (Nat × CollMsg) := []
  collEarly : List CollMsg := []
  elig     : Tab (Nat × List Nat) := []
  pkgNo    : Nat := 0
  images   : List (List Byte × Nat) := []
  roms     : List Byte := []
  spdm     : Spdm := {}
  puf      : Bool := true
  recovery : Bool := false
  powered  : Bool := true
  life     : Life := {}
  invals   : List (Nat × Nat × List Nat) := []
  invalDone : List (Nat × Nat) := []
  parkQ    : List Parked := []
  chanEvs  : Tab Nat := []
  parity   : Mem := []
  parityTags : Tab Nat := []
  shadow   : Tab Shadow := []
  hmClock  : Tab (Tab Nat) := []
  hostClock : Tab Nat := []
  lineClock : Tab (Tab Nat) := []
  temps    : Tab Nat := []
  deriving DecidableEq, Repr

/-- Why the machine stops with a fault: no rule of the spec stops it. -/
inductive Fault where
  deriving DecidableEq, Repr

/-- Why an instruction is refused. -/
inductive Refusal where
  /-- The instruction has no meaning in this model yet (raised by the dispatcher; safe). -/
  | notModelled (mnemonic : String)
  deriving DecidableEq, Repr

/-- What a step or a meaning answers. -/
abbrev Out := Host.Outcome State Fault Refusal

/-- The machine right after reset: no partition, no grid, no pane; every register at the value R17 to R394 state. -/
def State.reset : State := {}

end Sys2Proof.Machine
end

