-- ==== Sys2Proof/Machine/Operands.lean ====
section
/-! DEFINITION. Operand forms: how a word reads and writes the pane's registers, latches and predicates (R12 to R16,
R34, R35, R55, R76), and the shapes of the register words: three-operand, compare, uniform. -/

namespace Sys2Proof.Machine

/-- The pane of the turn, changed. -/
def onPane (f : Pane → Pane) (s : State) : State := { s with pane := f s.pane }

/-- A meaning that changes nothing but the pane of the turn. -/
def done (f : Pane → Pane) (s : State) : Out := .next (onPane f s)

/-- Whether lane L is active (R13). -/
def Pane.active (p : Pane) (L : Nat) : Bool := bit p.xm L

/-- The active lanes, ascending (R55). -/
def Pane.lanes (p : Pane) : List Nat := lanesOf p.xm

def Pane.vreg (p : Pane) (n L : Nat) : Word := (p.v.getD n []).getD L 0

def Pane.sreg (p : Pane) (n : Nat) : Word := p.s.getD n 0

/-- R12: p7 reads as all ones. -/
def Pane.preg (p : Pane) (n : Nat) : Word := if n < 7 then p.p.getD n 0 else 0xFFFFFFFF

def Pane.creg (p : Pane) (n : Nat) : Cap := p.c.getD n {}

def Pane.latch (p : Pane) (k : Nat) : Latch :=
  match k with
  | 0 => p.y0
  | 1 => p.y1
  | 2 => p.y2
  | _ => p.y3

/-- A latch's value in a lane; a lost latch reads 0 (R16). -/
def Latch.val (y : Latch) (L : Nat) : Word := if y.valid then y.vals.getD L 0 else 0

end Sys2Proof.Machine

open Sys2Proof.Machine in
/-- `VRead` without its flag (R55). -/
def Sys2Proof.VSrc.val (p : Pane) (a : VSrc) (L : Nat) : Word :=
  match a with
  | .reg n => p.vreg n.val L
  | .latch k => (p.latch k.val).val L
  | .zero => 0
  | .lit x => x
  | .lane => wordOfNat L

open Sys2Proof.Machine in
/-- Whether a source names a lost latch (R16). -/
def Sys2Proof.VSrc.stale (p : Pane) (a : VSrc) : Bool :=
  match a with
  | .latch k => !(p.latch k.val).valid
  | _ => false

open Sys2Proof.Machine in
/-- `SRead` (R55). -/
def Sys2Proof.SSrc.val (p : Pane) (a : SSrc) : Word :=
  match a with
  | .reg n => p.sreg n.val
  | .zero => 0
  | .lit x => x

open Sys2Proof.Machine in
def Sys2Proof.SOpt.val (p : Pane) (a : SOpt) : Word :=
  match a with
  | .reg n => p.sreg n.val
  | .zero => 0

open Sys2Proof.Machine in
/-- A uniform destination read as a source, 0 for code 124 (R89). -/
def Sys2Proof.SDst.val (p : Pane) (d : SDst) : Word :=
  match d with
  | .reg n => p.sreg n.val
  | .discard => 0

open Sys2Proof.Machine in
/-- The destination read as a source: its register, 0 for code 124 (R99). -/
def Sys2Proof.VDst.val (p : Pane) (d : VDst) (L : Nat) : Word :=
  match d with
  | .reg n => p.vreg n.val L
  | .discard => 0

namespace Sys2Proof.Machine

/-- Bits of XSTAT set (`SetFlag`, R55). -/
def Pane.flag (p : Pane) (f : Word) : Pane := { p with xstat := p.xstat ||| f }

/-- LSTALE where a lost latch is read with XM not 0 (R16). -/
def Pane.stale (p : Pane) (b : Bool) : Pane := p.flag (flagIf (b && p.xm != 0) fLSTALE)

/-- A vector register with lane values replaced in the lanes of a mask. -/
def Pane.vset (p : Pane) (n : Nat) (m : Word) (f : Nat → Word) : Pane :=
  let old := p.v.getD n []
  { p with v := setAt p.v n ((List.range 32).map (fun L => if bit m L then f L else old.getD L 0)) }

/-- `SWrite` to a register number. -/
def Pane.sset (p : Pane) (n : Nat) (x : Word) : Pane := { p with s := setAt p.s n x }

end Sys2Proof.Machine

open Sys2Proof.Machine in
def Sys2Proof.SDst.write (p : Pane) (d : SDst) (x : Word) : Pane :=
  match d with
  | .reg n => p.sset n.val x
  | .discard => p

namespace Sys2Proof.Machine

/-- `PWrite`: a write to p7 is discarded (R12). -/
def Pane.pset (p : Pane) (n : Nat) (x : Word) : Pane := if n < 7 then { p with p := setAt p.p n x } else p

def Pane.cset (p : Pane) (n : Nat) (x : Cap) : Pane := { p with c := setAt p.c n x }

/-- R15: the latch write of a pipe. The older latch moves down; lanes that XM disables keep the written latch's value,
0 where it was lost. -/
def Pane.latchX (p : Pane) (f : Nat → Word) : Pane :=
  { p with y2 := p.y0,
           y0 := ⟨true, (List.range 32).map (fun L => if p.active L then f L else p.y0.val L)⟩ }

def Pane.latchY (p : Pane) (f : Nat → Word) : Pane :=
  { p with y3 := p.y1,
           y1 := ⟨true, (List.range 32).map (fun L => if p.active L then f L else p.y1.val L)⟩ }

/-- The register write of a V destination: suppressed by W = 1 and by code 124 (R35). -/
def Pane.vdst (p : Pane) (w : Bool) (d : VDst) (f : Nat → Word) : Pane :=
  match w, d with
  | false, .reg n => p.vset n.val p.xm f
  | _, _ => p

/-- The flags of the active lanes together (R67). -/
def Pane.laneFlags (p : Pane) (f : Nat → Word) : Word := p.lanes.foldl (fun a L => a ||| f L) 0

/-- A per-lane result of the X pipe: the register, y0 and the flags of the active lanes (R15, R67, R76). -/
def resultX (w : Bool) (d : VDst) (stale : Bool) (f : Nat → Word × Word) (p : Pane) : Pane :=
  (((p.vdst w d (fun L => (f L).1)).latchX (fun L => (f L).1)).flag (p.laneFlags (fun L => (f L).2))).stale stale

/-- A per-lane result of the Y pipe. -/
def resultY (w : Bool) (d : VDst) (stale : Bool) (f : Nat → Word × Word) (p : Pane) : Pane :=
  (((p.vdst w d (fun L => (f L).1)).latchY (fun L => (f L).1)).flag (p.laneFlags (fun L => (f L).2))).stale stale

/-- Two sources, with flags. -/
def xVV (w : Bool) (d : VDst) (a b : VSrc) (f : Word → Word → Word × Word) (p : Pane) : Pane :=
  resultX w d (a.stale p || b.stale p) (fun L => f (a.val p L) (b.val p L)) p

/-- Two sources, no flags. -/
def xVV' (w : Bool) (d : VDst) (a b : VSrc) (f : Word → Word → Word) (p : Pane) : Pane :=
  xVV w d a b (fun x y => (f x y, 0)) p

/-- One source, with flags. -/
def xV (w : Bool) (d : VDst) (a : VSrc) (f : Word → Word × Word) (p : Pane) : Pane :=
  resultX w d (a.stale p) (fun L => f (a.val p L)) p

def yVV (w : Bool) (d : VDst) (a b : VSrc) (f : Word → Word → Word) (p : Pane) : Pane :=
  resultY w d (a.stale p || b.stale p) (fun L => (f (a.val p L) (b.val p L), 0)) p

def yV (w : Bool) (d : VDst) (a : VSrc) (f : Word → Word) (p : Pane) : Pane :=
  resultY w d (a.stale p) (fun L => (f (a.val p L), 0)) p

end Sys2Proof.Machine

open Sys2Proof.Machine in
/-- The addend of IMAD and FFMA (R80, R92), as it stood before the word's own latch write. -/
def Sys2Proof.Addend.val (p : Pane) (d : VDst) (c : Addend) (L : Nat) : Word :=
  match c with
  | .dest => d.val p L
  | .y0 => p.y0.val L
  | .y1 => p.y1.val L
  | .lit x => x

open Sys2Proof.Machine in
def Sys2Proof.Addend.stale (p : Pane) (c : Addend) : Bool :=
  match c with
  | .y0 => !p.y0.valid
  | .y1 => !p.y1.valid
  | _ => false

namespace Sys2Proof.Machine

/-- Three sources of a multiply-add. -/
def xMad (w : Bool) (d : VDst) (a b : VSrc) (c : Addend) (f : Word → Word → Word → Word × Word) (p : Pane) : Pane :=
  resultX w d (a.stale p || b.stale p || c.stale p) (fun L => f (a.val p L) (b.val p L) (c.val p d L)) p

/-- R85: a compare over the active lanes, combined into PD. -/
def cmpLanes (pd : PReg) (m : Comb) (stale : Bool) (f : Nat → Bool × Word) (p : Pane) : Pane :=
  let old := p.preg pd.val
  let new := maskOf (fun L => if p.active L then combine m (bit old L) (f L).1 else bit old L)
  ((p.pset pd.val new).flag (p.laneFlags (fun L => (f L).2))).stale stale

/-- A uniform result of two sources (R89). -/
def sSS (d : SDst) (a b : SSrc) (f : Word → Word → Word) (p : Pane) : Pane := d.write p (f (a.val p) (b.val p))

/-- XCTL.FTZ (R19). -/
def Pane.ftz (p : Pane) : Bool := bit p.xctl 0

/-- XCTL.MXSAT (R19). -/
def Pane.mxsat (p : Pane) : Bool := bit p.xctl 1

end Sys2Proof.Machine
end

