-- ==== Sys2Proof/Machine/Ops.lean ====
section
/-! DEFINITION. The named operations over the state: units by number, event records, translation and device memory as
its home channels see it, the die's view, and requests. -/

namespace Sys2Proof.Machine

/-! ### Units by number -/

def State.core (s : State) (c : Nat) : Core := Tab.getD s.cores c {}
def State.modCore (s : State) (c : Nat) (f : Core → Core) : State := { s with cores := Tab.set s.cores c (f (s.core c)) }

/-- A die that nothing has touched holds no line and has applied what `ref` has (R220). -/
def State.die (s : State) (d : Nat) : Die := Tab.getD s.dies d s.ref
def State.modDie (s : State) (d : Nat) (f : Die → Die) : State := { s with dies := Tab.set s.dies d (f (s.die d)) }

def State.base (s : State) (g : Nat) : Base := Tab.getD s.bases g {}
def State.modBase (s : State) (g : Nat) (f : Base → Base) : State := { s with bases := Tab.set s.bases g (f (s.base g)) }

def State.part (s : State) (p : Nat) : Part := Tab.getD s.parts p {}
def State.modPart (s : State) (p : Nat) (f : Part → Part) : State := { s with parts := Tab.set s.parts p (f (s.part p)) }

def State.port (s : State) (k : Nat) : Port := Tab.getD s.ports k {}
def State.modPort (s : State) (k : Nat) (f : Port → Port) : State := { s with ports := Tab.set s.ports k (f (s.port k)) }

def State.modReq (s : State) (r : Nat) (f : Req → Req) : State := { s with reqs := Tab.mod s.reqs r f }
def State.modCmd (s : State) (k : Nat) (f : Cmd → Cmd) : State := { s with cmds := Tab.mod s.cmds k f }
def State.modGrid (s : State) (g : Nat) (f : Grid → Grid) : State := { s with grids := Tab.mod s.grids g f }

def State.chan (s : State) (g c : Nat) : ChanCtr := Tab.getD (s.base g).chans c {}
def State.modChan (s : State) (g c : Nat) (f : ChanCtr → ChanCtr) : State :=
  s.modBase g (fun b => { b with chans := Tab.set b.chans c (f (Tab.getD b.chans c {})) })

/-- The die of a global core (R1). -/
def dieOf (core : Nat) : Nat := core / 24

/-- The cluster of a core within its die (R1). -/
def clusterOf (core : Nat) : Nat := core % 24 / 6

/-- The stack group of a die (R1). -/
def groupOf (die : Nat) : Nat := die / 4

/-! ### Panes -/

def State.allPanes (s : State) : List Pane := s.pane :: Tab.vals s.panes

def State.getPane (s : State) (pid : Nat) : Option Pane :=
  if s.pane.pid = pid then some s.pane else Tab.find s.panes pid

def State.modPane (s : State) (pid : Nat) (f : Pane → Pane) : State :=
  if s.pane.pid = pid then { s with pane := f s.pane } else { s with panes := Tab.mod s.panes pid f }

/-- The pane `pid` becomes the pane of the turn. -/
def State.checkOut (s : State) (pid : Nat) : State :=
  if s.pane.pid = pid then s
  else
    match Tab.find s.panes pid with
    | none => s
    | some p => { s with pane := p, panes := Tab.set (Tab.erase s.panes pid) s.pane.pid s.pane }

/-- A step of another pane than the one of the turn. -/
def State.asPane (s : State) (pid : Nat) (f : State → State) : State :=
  let t := f (s.checkOut pid)
  ({ t with issue := s.issue, word := s.word, sill := s.sill, after := s.after } : State).checkOut s.pane.pid

/-- The slot a pane holds. -/
def Place.slot : Place → Option Nat
  | .resident k => some k
  | _ => none

def Place.live : Place → Bool
  | .exited => false
  | _ => true

/-- The panes of a core that have not exited. -/
def State.corePanes (s : State) (c : Nat) : List Pane := s.allPanes.filter (fun p => p.core == c && p.place.live)

/-- The pane that holds a slot of a core. -/
def State.slotPane (s : State) (c k : Nat) : Option Pane :=
  (s.corePanes c).find? (fun p => p.place.slot == some k)

/-- A team by grid and ordinal. -/
def teamKey (grid team : Nat) : Nat := grid * 2 ^ 32 + team

def State.team (s : State) (grid team : Nat) : Option Team := Tab.find s.teams (teamKey grid team)

def State.modTeam (s : State) (grid team : Nat) (f : Team → Team) : State :=
  { s with teams := Tab.mod s.teams (teamKey grid team) f }

/-- PANEINFO (R20). -/
def paneInfo (p : Pane) : Word :=
  wordOfNat ((if p.spawned then 2 ^ 30 else 0) + p.core % 2 ^ 11 * 2 ^ 19 + p.depth % 16 * 2 ^ 15 +
    (p.place.slot.getD p.lastSlot) % 32 * 2 ^ 10 + p.npane % 32 * 2 ^ 5 + p.pord % 32)

/-- SPDS (R17): the DS address of the team's scratchpad. -/
def State.spds (s : State) (p : Pane) : Nat :=
  match s.team p.grid p.team with
  | some t => t.spds
  | none => 0

/-- The bytes of the team's scratchpad (R162). -/
def State.scratch (s : State) (p : Pane) : Nat :=
  match s.team p.grid p.team with
  | some t => t.scratch
  | none => 0

/-- The DS address of byte 0 of a core's slice (R1, R162). -/
def sliceBase (core : Nat) : Nat := dieOf core * 2 ^ 24 + core % 24 * 2 ^ 19

/-! ### Event records (R385, R386) -/

/-- The 64 bytes of a record; DETAIL is laid out as words from bit 128 up (log entry 12). -/
def EvRec.bytes (r : EvRec) : List Byte :=
  toBytes 8 r.ts ++ [BitVec.ofNat 8 (r.source % 128), BitVec.ofNat 8 r.part, BitVec.ofNat 8 r.typ, 0] ++
    toBytes 4 r.seq ++ (((r.detail ++ List.replicate 12 0).take 12).map (fun (w : Word) => toBytes 4 w.toNat)).flatten

/-- Whether a ring takes records (R386). -/
def Ring.usable (r : Ring) : Bool := r.en && decide (6 ≤ r.logsz) && decide (r.logsz ≤ 20)

/-- The class of a record type (R385). -/
def recClass (typ : Nat) : Nat :=
  if typ = 0x01 ∨ typ = 0x09 ∨ typ = 0x0D then 1
  else if typ = 0x03 ∨ typ = 0x04 ∨ typ = 0x08 then 2
  else if typ = 0x05 ∨ typ = 0x06 ∨ typ = 0x0C then 3
  else if typ = 0x07 ∨ typ = 0x0E then 4
  else if typ = 0x0A then 5
  else if typ = 0x02 ∨ typ = 0x0F then 6
  else 0

/-- R386: a record is written to its ring and its MSI-X vector sent, or discarded with LOST raised; a disabled ring 0
takes nothing (log entry 13). -/
def State.deliver (s : State) (r : EvRec) : State :=
  let own := Tab.getD s.rings r.part {}
  let k := if own.usable && (s.part r.part).tdi == 2 then r.part else 0
  let g := Tab.getD s.rings k {}
  if !g.usable then s
  else if (g.tail + 2 ^ 32 - g.head) % 2 ^ 32 = 2 ^ g.logsz then
    { s with rings := Tab.set s.rings k { g with lost := min (g.lost + 1) 0xFFFFFFFF, warned := true },
             msix := if g.warned then s.msix else s.msix ++ [8 * k + 7] }
  else
    { s with hm := Mem.writeN s.hm (g.base + 64 * (g.tail % 2 ^ g.logsz)) r.bytes,
             rings := Tab.set s.rings k { g with tail := (g.tail + 1) % 2 ^ 32 },
             msix := s.msix ++ [8 * k + recClass r.typ] }

/-- A host record: TS is now, SEQ counts the source's records (R385). -/
def State.record (s : State) (typ part source : Nat) (detail : List Word) : State :=
  let n := Tab.getD s.seqs source 0
  let r : EvRec := ⟨typ, part, source, s.time, n, detail⟩
  ({ s with seqs := Tab.set s.seqs source ((n + 1) % 2 ^ 32), records := s.records ++ [r] }).deliver r

/-- The words of a pane's identity in a record: GRIDID, TEAMID, ordinal. -/
def ident (grid team pord : Nat) : List Word := [wordOfNat grid, wordOfNat team, wordOfNat pord]

/-- The address of a word: its packet and slot (R9). -/
def pcOf (pkt : BitVec 52) (slot : BitVec 2) : Nat := pkt.toNat * 16 + slot.toNat * 4

/-! ### Objects and translation (R230, R231, R256) -/

/-- n bits of a number from bit lo. -/
def nbitsOf (x lo n : Nat) : Nat := x / 2 ^ lo % 2 ^ n

/-- R256: the capacity of a stack. -/
def State.capacity (s : State) : Nat := if s.parityOn then 31 * 25165824 * 64 else 32 * 25165824 * 64

/-- R256: whether a tier-0 physical address exists. -/
def State.tier0Ok (s : State) (pa : Nat) : Bool := decide (pa < 2 ^ 40) && decide (pa % 2 ^ 36 < s.capacity)

/-- R257: the data channel of a line of a stack. -/
def State.chanOf (s : State) (pa : Nat) : Nat × Nat :=
  let l := pa % 2 ^ 36 / 64
  (pa / 2 ^ 36 % 16, if s.parityOn then (l / 31 + 1 + l % 31) % 32 else l % 32)

/-- The channel line of a line (R257): with parity on, its stripe. -/
def State.chanLine (s : State) (pa : Nat) : Nat := if s.parityOn then pa % 2 ^ 36 / 64 / 31 else pa % 2 ^ 36 / 64 / 32

/-- The parity channel of a line's stripe (R257). -/
def State.parityChan (pa : Nat) : Nat := pa % 2 ^ 36 / 64 / 31 % 32

/-- The data lines of a line's stripe (R257). -/
def stripeLines (line : Nat) : List Nat :=
  (List.range 31).map (fun i => line / 2 ^ 30 * 2 ^ 30 + line % 2 ^ 30 / 31 * 31 + i)

/-- Where the model keeps the parity line of a line's stripe. -/
def parityAddr (line : Nat) : Nat := line / 2 ^ 30 * 2 ^ 36 + line % 2 ^ 30 / 31 * 64

/-- A line as a record names it: stack, channel, line (R385). -/
def State.lineName (s : State) (pa : Nat) : List Word :=
  [wordOfNat (s.chanOf pa).1, wordOfNat (s.chanOf pa).2, wordOfNat (pa / 64 % 2 ^ 30)]

/-- OTBASE of a partition in a die (R394): its address where V = 1. -/
def State.otbase (s : State) (die part : Nat) : Option Nat :=
  let x := Tab.getD (Tab.getD s.otAddr die []) part 0
  if x % 2 = 1 then some (nbitsOf x 5 51 * 32) else none

def parseExtent (x : Nat) : Extent :=
  { dup := nbitsOf x 106 16, state := nbitsOf x 104 2, tier1 := nbitsOf x 103 1 == 1, pfn := nbitsOf x 48 48,
    voff := nbitsOf x 24 24, nlen := nbitsOf x 0 24 }

/-- Whether any of the lines of a physical run is poisoned. -/
def State.linePoison (s : State) (pa n : Nat) : Bool :=
  (List.range ((pa + n - 1) / 64 + 1 - pa / 64)).any (fun i => s.poisoned.contains (pa / 64 + i))

/-- The object entry as the table holds it now; the table and the extent lists lie at physical tier-0 addresses (log
entry 14). -/
def State.readObj (s : State) (die part obj : Nat) : Option Obj :=
  match s.otbase die part with
  | none => none
  | some ot =>
      let x := ofBytes (Mem.readN s.dm (ot + 32 * obj) 32)
      let lst := nbitsOf x 48 56
      let n := nbitsOf x 28 20
      if !s.tier0Ok (ot + 32 * obj) || s.linePoison (ot + 32 * obj) 32 ||
          (x % 2 == 1 && decide (0 < n) && (!s.tier0Ok lst || s.linePoison lst (16 * n))) then none
      else some
        { gen := (s.part part).genCur, part := part, obj := obj, valid := x % 2 == 1, key := nbitsOf x 20 8,
          kind := nbitsOf x 18 2, vbase := nbitsOf x 104 56, len := nbitsOf x 160 40,
          exts := if x % 2 = 1 then
            (List.range n).map (fun i => parseExtent (ofBytes (Mem.readN s.dm (lst + 16 * i) 16))) else [],
          win := ofBytes (Mem.readN s.dm lst 16) }

/-- The line at which a read of the object table is poisoned or leads to no address; none where the partition has no table. -/
def State.tableFault (s : State) (die part obj : Nat) : Option Nat :=
  (s.otbase die part).bind (fun ot =>
    let x := ofBytes (Mem.readN s.dm (ot + 32 * obj) 32)
    let bad := fun (pa n : Nat) => !s.tier0Ok pa || s.linePoison pa n
    if bad (ot + 32 * obj) 32 then some (ot + 32 * obj)
    else if x % 2 = 1 ∧ 0 < nbitsOf x 28 20 ∧ bad (nbitsOf x 48 56) (16 * nbitsOf x 28 20) = true then some (nbitsOf x 48 56)
    else none)

/-- The entries an object table cache holds (R230). -/
def objCap : Nat := 16384

/-- A list without its oldest entries, where it is longer than n. -/
def keepLast {α : Type} (n : Nat) (l : List α) : List α := l.drop (l.length - n)

/-- The entry through the port's cache: a held entry of the current GEN, else the table's, which the port then holds in
place of its oldest entry. A table read that is poisoned or unresolvable is reported (R232). -/
def State.lookupObj (s : State) (die part obj : Nat) : State × Option Obj :=
  let gen := (s.part part).genCur
  match (s.die die).objs.find? (fun o => o.part == part && o.obj == obj && o.gen == gen) with
  | some o => (s, some o)
  | none =>
      match s.readObj die part obj with
      | none =>
          (match s.tableFault die part obj with
            | some pa => s.record 0x03 part die ((s.lineName pa) ++ [2])
            | none => s, none)
      | some o =>
          (s.modDie die (fun d =>
            { d with objs := keepLast objCap (d.objs.filter (fun p => !(p.part == part && p.obj == obj)) ++ [o]) }), some o)

/-- The outcome of a translation. -/
inductive Trans where
  | refused
  | absent (ext : Extent)
  | migrating (pa : Nat) (tier1 : Bool)
  | ok (pa : Nat) (tier1 : Bool)
  deriving DecidableEq, Repr

/-- The extent of an object that covers an offset. -/
def Obj.ext (o : Obj) (off : Nat) : Option Extent :=
  o.exts.find? (fun e => decide (e.voff * 65536 ≤ off) && decide (off < (e.voff + e.nlen) * 65536))

/-- R230: the translation of a virtual address of an object for a space of kind 0 (device), 1 (peer) or 2 (host). An offset at or
beyond LEN is refused even where an extent covers it (DESIGN CHOICE, log entry 98); an extent that does not begin inside its stack is
refused as a whole (R256). -/
def State.transObj (s : State) (o : Obj) (key kind va : Nat) : Trans :=
  if !o.valid || o.key != key || o.kind != kind || va < o.vbase || o.len ≤ va - o.vbase then .refused
  else
    let off := va - o.vbase
    match o.ext off with
    | none => .refused
    | some e =>
        if e.state = 3 then .refused
        else if e.state = 0 then .absent e
        else
          let pa := e.pfn * 65536 + (off - e.voff * 65536)
          if kind = 0 && !e.tier1 && !(s.tier0Ok (e.pfn * 65536) && s.tier0Ok pa) then .refused
          else if e.state = 2 then .migrating pa e.tier1
          else .ok pa e.tier1

def State.translate (s : State) (die part obj key kind va : Nat) : State × Trans :=
  match s.lookupObj die part obj with
  | (s, none) => (s, .refused)
  | (s, some o) => (s, s.transObj o key kind va)

/-- The objects of a partition whose entries are listed in memory, rising. -/
def State.objIds (s : State) (die part : Nat) : List Nat :=
  match s.otbase die part with
  | none => []
  | some ot =>
      ((s.dm.filter (fun c => decide (ot ≤ c.1) && decide (c.1 < ot + 2 ^ 21) && (c.1 - ot) % 32 == 0)).map
        (fun c => (c.1 - ot) / 32))

/-! ### Device memory at its home channels (R257 to R266) -/

/-- The generation of a key slot (R259: a rewritten slot leaves lines unreadable). -/
def State.slotGen (s : State) (key : Nat) : Nat := Tab.getD s.keyGen key 0

/-- Whether a line was last written under a key of the current generation (R260). Lines start under key 0 (R265). -/
def State.keyOk (s : State) (key line : Nat) : Bool :=
  Tab.getD s.lineKey line (0, 0) == (key, s.slotGen key)

def satInc (x : Nat) : Nat := min (x + 1) 0xFFFFFFFF

/-- A counter of the lifetime record (R392), by its kind and unit: 0 rebuilds, 1 poisonings and 2 MAC failures of a
channel, 3 seconds in the temperature bins and 4 droop bins of an island, 5 watchdog events of a matrix engine, 6 retrains of a port,
7 powered hours, 8 starts. Their width is not stated; they saturate at 2^32 - 1 (log entry 31). -/
def State.lifeAdd (s : State) (kind unit : Nat) : State :=
  let k := kind * 2 ^ 20 + unit
  { s with life := { s.life with ram := Tab.set s.life.ram k (satInc (Tab.getD s.life.ram k 0)) } }

/-- The bin of a temperature: 5 degrees each up to 125, and one above (R392). -/
def tempBin (c : Nat) : Nat := min 25 (c / 5)

/-- A second has passed: each island counts it in the bin of its temperature (R391, R392). -/
def State.lifeSecond (s : State) : State :=
  (List.range 1104).foldl (fun s i => s.lifeAdd 3 (26 * i + tempBin (Config.islandTemp s.time i))) s

/-- The ticks of the time-stamp in a second (R2). -/
def second : Nat := 1000000000

/-- R264: whether a line's channel is degraded and its reads cannot be served by rebuild. -/
def State.degradedDead (s : State) (pa : Nat) : Bool :=
  let (g, c) := s.chanOf pa
  bit (s.base g).chdegr c && (!s.parityOn || decide (1 < popCount (s.base g).chdegr))

/-- Whether every other channel of a line's stack can be read, so that the line can be rebuilt (R261, R264). -/
def State.rebuildable (s : State) (pa : Nat) : Bool :=
  let (g, c) := s.chanOf pa
  s.parityOn && popCount (setBit (s.base g).chdegr c false) == 0

def xorBytes (a b : List Byte) : List Byte := List.zipWith (fun x y => x ^^^ y) a b

/-- The tagged granules of a line, 0 to 3. -/
def State.lineTags (s : State) (line : Nat) : List Nat := (List.range 4).filter (fun i => s.tags.contains (4 * line + i))

/-- The TAG field of a sideband with some granules tagged (R258). -/
def tagField (ts : List Nat) : Nat := ((List.range 4).map (fun i => if ts.contains i then 2 ^ i else 0)).foldl (· + ·) 0

/-- The granules a TAG field names. -/
def tagList (n : Nat) : List Nat := (List.range 4).filter (fun i => n / 2 ^ i % 2 = 1)

/-- A line's tags replaced. -/
def State.setTags (s : State) (line : Nat) (ts : List Nat) : State :=
  { s with tags := s.tags.filter (fun g => g / 4 != line) ++ ts.map (fun i => 4 * line + i) }

/-- The TAG field of the parity line of a line's stripe. -/
def State.parityTag (s : State) (line : Nat) : Nat := Tab.getD s.parityTags (parityAddr line) 0

def State.xorParity (s : State) (d : Delta) : State :=
  let a := parityAddr d.line + d.off
  { s with parity := Mem.writeN s.parity a (xorBytes (Mem.readN s.parity a d.x.length) d.x),
           parityTags := Tab.set s.parityTags (parityAddr d.line) (s.parityTag d.line ^^^ d.tags) }

/-- R262: the parity channel applies a delta, in one read and one write of the parity line; the old value of a line written whole has
been read for it. A channel that is degraded by then receives none (R264). -/
def State.applyDelta (s : State) (g : Nat) (d : Delta) : State :=
  let k := State.parityChan (d.line * 64)
  let s := s.modBase g (fun b => { b with deltas := b.deltas.erase d })
  if bit (s.base g).chdegr k then s
  else
    let s := if d.whole then s.modChan g (s.chanOf (64 * d.line)).2 (fun k => { k with reads := satInc k.reads }) else s
    (s.xorParity d).modChan g k (fun k => { k with delta := satInc k.delta, reads := satInc k.reads, writes := satInc k.writes })

/-- How a line's access fares at a channel of its stack, where an event has said so (R261, R267): its activates and, of a request on bus B,
its age are counted; the flag says that the line read is not the one written. -/
def State.takeEv (s : State) (busB : Bool) (pa c : Nat) : State × Bool :=
  let e := Tab.getD s.chanEvs (pa / 64) 0
  if e = 0 then (s, false)
  else
    let g := (s.chanOf pa).1
    (({ s with chanEvs := Tab.erase s.chanEvs (pa / 64) } : State).modChan g c (fun k =>
      { k with act := if e / 2 % 2 = 1 then satInc k.act else k.act, supact := if e / 4 % 2 = 1 then satInc k.supact else k.supact,
               aged := if busB ∧ e / 8 % 2 = 1 then satInc k.aged else k.aged }), e % 2 == 1)

/-- R263: a rebuild takes the stripe: the deltas of its writes are applied first, and every other channel is read over bus B (R267);
the flag says that one of the other lines was not read as written. -/
def State.takeStripe (s : State) (pa : Nat) : State × Bool :=
  let (g, c) := s.chanOf pa
  let s := ((s.base g).deltas.filter (fun d => parityAddr d.line == parityAddr (pa / 64))).foldl (fun s d => s.applyDelta g d) s
  let s := ((List.range 32).filter (· != c)).foldl (fun s k => s.modChan g k (fun x => { x with reads := satInc x.reads })) s
  ((stripeLines (pa / 64)).filter (· != pa / 64)).foldl (fun acc l =>
    let (s, bad) := acc.1.takeEv true (64 * l) (acc.1.chanOf (64 * l)).2
    (s, acc.2 || bad)) (s, false)

/-- The exclusive or of a stripe's other lines and its parity line, and of their TAG fields (R261). The model holds lines deciphered,
and so their parity (log entry 89). -/
def State.rebuilt (s : State) (line : Nat) : List Byte × List Nat :=
  ((stripeLines line).filter (· != line)).foldl (fun x l =>
    (xorBytes x.1 (Mem.readN s.dm (64 * l) 64), tagList (tagField x.2 ^^^ tagField (s.lineTags l))))
    (Mem.readN s.parity (parityAddr line) 64, tagList (s.parityTag line))

/-- Whether a line rebuilt from its stripe is the line as it was written, and so passes its MAC. -/
def State.rebuildsOwn (s : State) (line : Nat) : Bool := s.rebuilt line == (Mem.readN s.dm (64 * line) 64, s.lineTags line)

/-- R261: a line that fails its MAC is poisoned, counted and reported; `first` says that a first read of it failed. -/
def State.poisonLine (s : State) (part pa : Nat) (first : Bool) : State :=
  let (g, c) := s.chanOf pa
  let s := ({ s with poisoned := if s.poisoned.contains (pa / 64) then s.poisoned else s.poisoned ++ [pa / 64] } : State).modChan g c
    (fun k => { k with macfail := if first then satInc k.macfail else k.macfail, poison := satInc k.poison,
                       writes := if bit (s.base g).chdegr c then k.writes else satInc k.writes })
  let s := s.lifeAdd 1 (32 * g + c)
  (if first then s.lifeAdd 2 (32 * g + c) else s).record 0x03 part (64 + g) (s.lineName pa ++ [2])

/-- R261: a line rebuilt within its access and written back, counted and reported; the write-back is a full-stripe write (R262). -/
def State.rebuildLine (s : State) (part pa : Nat) : State :=
  let (g, c) := s.chanOf pa
  let s := (s.modChan g c (fun k =>
    { k with macfail := satInc k.macfail, rebuild := satInc k.rebuild, writes := satInc k.writes })).modChan g (State.parityChan pa)
      (fun k => { k with fullstripe := satInc k.fullstripe })
  ((s.lifeAdd 0 (32 * g + c)).lifeAdd 2 (32 * g + c)).record 0x03 part (64 + g) (s.lineName pa ++ [1])

/-- What a read of a line finds: poison; the line as it was written; a line written under other keys, unchecked. -/
inductive LineState where
  | poison
  | own
  | foreign
  deriving DecidableEq, Repr

/-- R260, R261: the MAC under the access's key; `first` says that the line itself was read. -/
def State.checkKey (s : State) (key pa : Nat) (first : Bool) : State × LineState :=
  if s.keyOk key (pa / 64) then (s, .own)
  else if s.macOn then ((if first && s.rebuildable pa then (s.takeStripe pa).1 else s).poisonLine key pa first, .poison)
  else (s, .foreign)

/-- What a degraded channel's cells keep of a line that is written for the first time. -/
def State.keepShadow (s : State) (line : Nat) : State :=
  if (Tab.find s.shadow line).isSome then s
  else
    let x : Shadow := ⟨Mem.readN s.dm (64 * line) 64, Tab.getD s.lineKey line (0, 0), s.lineTags line, s.poisoned.contains line⟩
    { s with shadow := Tab.set s.shadow line x }

/-- A line of a degraded channel becomes what its stripe gives for it; the cells keep what they hold (R264). -/
def State.fromStripe (s : State) (line : Nat) : State :=
  let x := s.rebuilt line
  if s.rebuildsOwn line then s
  else ({ s.keepShadow line with dm := Mem.writeN s.dm (64 * line) x.1 } : State).setTags line x.2

/-- A line read at its channel (R260, R261, R264). -/
def State.openLine (s : State) (busB : Bool) (key pa : Nat) : State × LineState :=
  let line := pa / 64
  let (g, c) := s.chanOf pa
  let (s, bad) := s.takeEv busB pa c
  if bit (s.base g).chdegr c then
    if s.poisoned.contains line then (s, .poison)
    else if s.degradedDead pa then (s.poisonLine key pa false, .poison)
    else
      let (s, worse) := s.takeStripe pa
      if s.macOn && (worse || !s.rebuildsOwn line) then (s.poisonLine key pa false, .poison)
      else (s.fromStripe line).checkKey key pa false
  else
    let s := s.modChan g c (fun k => { k with reads := satInc k.reads })
    if s.poisoned.contains line then (s, .poison)
    else if bad && s.macOn then
      if s.rebuildable pa then
        let (s, worse) := s.takeStripe pa
        if !worse && s.keyOk key line && s.rebuildsOwn line then (s.rebuildLine key pa, .own)
        else (s.poisonLine key pa true, .poison)
      else (s.poisonLine key pa true, .poison)
    else s.checkKey key pa true

/-- What bytes of a line written under other keys read as: of a line's 64 bytes, those from a place on. -/
def foreignBytes (key line : Nat) (written : Nat × Nat) (data : List Byte) (off n : Nat) : List Byte :=
  (List.range n).map (fun i => Config.wrongKeyByte key line written ((data.drop ((off + i) / 16 * 16)).take 16) (off + i))

/-- A read at the home channel, tier 0: the bytes, or none for poison. -/
def State.homeRead (s : State) (busB : Bool) (key pa n : Nat) : State × Option (List Byte) :=
  match s.openLine busB key pa with
  | (s, .poison) => (s, none)
  | (s, .own) => (s, some (Mem.readN s.dm pa n))
  | (s, .foreign) => (s, some (foreignBytes key (pa / 64) (Tab.getD s.lineKey (pa / 64) (0, 0)) (Mem.readN s.dm (pa / 64 * 64) 64) (pa % 64) n))

/-- The tagged granules of a line after a write of n bytes: those it touches lose their tags (R159); `tag` stores a set one. -/
def State.tagsAfter (s : State) (pa n : Nat) (tag : Bool) : List Nat :=
  (s.lineTags (pa / 64)).filter (fun i => decide (i < pa % 64 / 16) || decide ((pa % 64 + n - 1) / 16 < i)) ++
    (if tag then [pa % 64 / 16] else [])

/-- A line put back as its channel's cells hold it. -/
def State.dropShadow (s : State) (line : Nat) (x : Shadow) : State :=
  { s with dm := Mem.writeN s.dm (64 * line) x.data, lineKey := Tab.set s.lineKey line x.key,
           tags := s.tags.filter (fun g => g / 4 != line) ++ x.tags.map (fun i => 4 * line + i),
           poisoned := s.poisoned.filter (· != line) ++ (if x.bad then [line] else []),
           shadow := Tab.erase s.shadow line }

/-- R264: channels of a stack that are no longer degraded serve what their cells hold. -/
def State.setDegraded (s : State) (g : Nat) (w : BitVec 32) : State :=
  let s := s.modBase g (fun b => { b with chdegr := w })
  s.shadow.foldl (fun s e => if (s.chanOf (64 * e.1)).1 = g ∧ bit w (s.chanOf (64 * e.1)).2 = false then s.dropShadow e.1 e.2 else s) s

/-- The bytes of a line and its tags replaced, with their delta and that of the sideband (R262) or, in a degraded channel, by their
delta alone (R264). -/
def State.putLine (s : State) (key pa : Nat) (b : List Byte) (ts : List Nat) (whole : Bool) : State :=
  let line := pa / 64
  let (g, c) := s.chanOf pa
  let deg := bit (s.base g).chdegr c
  let d : Delta := ⟨line, pa % 64, xorBytes (Mem.readN s.dm pa b.length) b, tagField (s.lineTags line) ^^^ tagField ts, whole && !deg⟩
  let s := if deg then s.keepShadow line else s.modChan g c (fun k => { k with writes := satInc k.writes })
  let s := ({ s with dm := Mem.writeN s.dm pa b, poisoned := s.poisoned.filter (· != line),
                     lineKey := Tab.set s.lineKey line (key, s.slotGen key) } : State).setTags line ts
  if s.parityOn && !bit (s.base g).chdegr (State.parityChan pa) then s.modBase g (fun x => { x with deltas := x.deltas ++ [d] })
  else s

/-- Whether deltas under way hold new data for every byte of a line. -/
def deltasCover (ds : List Delta) (line : Nat) : Bool :=
  (List.range 64).all (fun i => ds.any (fun d => d.line == line && decide (d.off ≤ i) && decide (i < d.off + d.x.length)))

/-- R262: the stripes of a stack for all of whose lines new data stand are written whole: the parity line is computed from them, and no
delta is sent. The old value of a line written whole is not read. -/
def State.fullStripes (s : State) (g : Nat) : State :=
  let new := (s.base g).deltas
  (((new.map Delta.line).filter (fun l => l % 2 ^ 30 % 31 == 0)).eraseDups).foldl (fun s l =>
    if (stripeLines l).all (deltasCover new) then
      let mine := new.filter (fun d => parityAddr d.line == parityAddr l)
      let s := mine.foldl State.xorParity (s.modBase g (fun b => { b with deltas := b.deltas.filter (fun d => !mine.contains d) }))
      s.modChan g (State.parityChan (64 * l)) (fun k => { k with fullstripe := satInc k.fullstripe, writes := satInc k.writes })
    else s) s

/-! ### Lines of either tier -/

/-- A line's number, apart for the two tiers (host memory lies beside tier 1) and the slices. -/
def lineId (pa : Nat) (tier1 : Bool) : Nat := if tier1 then 2 ^ 58 + pa / 64 else pa / 64

/-- Whether a tier-1 line was last written under a key; one never written through the package holds what system software placed
there under the key it is read with (R230, R261; log entry 90). -/
def State.keyOk1 (s : State) (key line : Nat) : Bool :=
  match Tab.find s.lineKey line with
  | some k => k == (key, s.slotGen key)
  | none => true

/-- A physical read of either tier; tier-1 lines carry no MAC (R261). -/
def State.physRead (s : State) (busB : Bool) (key pa n : Nat) (tier1 : Bool) : State × Option (List Byte) :=
  if tier1 then
    (s, some (if s.keyOk1 key (lineId pa true) then Mem.readN s.hm pa n
      else foreignBytes key (lineId pa true) (Tab.getD s.lineKey (lineId pa true) (0, 0)) (Mem.readN s.hm (pa / 64 * 64) 64) (pa % 64) n))
  else s.homeRead busB key pa n

/-- The 64 bytes that an access under a key finds in a line of either tier; none for poison. -/
def State.openAt (s : State) (busB : Bool) (key pa : Nat) (tier1 : Bool) : State × Option (List Byte) :=
  s.physRead busB key (pa / 64 * 64) 64 tier1

/-- A line opened for a write of n bytes: what the bytes beside them are. None where the write is not performed: a partial write of
a poisoned line (R261), or one whose degraded channel's old value cannot be rebuilt (R264). -/
def State.openWrite (s : State) (busB : Bool) (key pa n : Nat) (tier1 : Bool) : State × Option (List Byte) :=
  if tier1 || !(decide (pa % 64 = 0) && n == 64) then s.openAt busB key pa tier1
  else
    let (g, c) := s.chanOf pa
    let s := (s.takeEv busB pa c).1
    if s.degradedDead pa then (s.poisonLine key pa false, none)
    else if bit (s.base g).chdegr c then ((s.takeStripe pa).1.fromStripe (pa / 64), some (List.replicate 64 0))
    else (s, some (List.replicate 64 0))

/-- Two clocks merged. -/
def mergeClock (a b : Tab Nat) : Tab Nat := b.foldl (fun t e => Tab.set t e.1 (max (Tab.getD t e.1 0) e.2)) a

/-- A line with bytes replaced. -/
def patch (data : List Byte) (off : Nat) (b : List Byte) : List Byte :=
  data.take off ++ b ++ data.drop (off + b.length)

/-- An opened line written: `b` at its place, beside the bytes `x` that the opening found, with the tags it then has; `whole` says that
the line was opened without a read. -/
def State.putAt (s : State) (key pa : Nat) (tier1 : Bool) (x b : List Byte) (ts : List Nat) (whole : Bool) : State :=
  let lo := pa / 64 * 64
  let y := patch x (pa % 64) b
  if tier1 then
    { s with hm := Mem.writeN s.hm lo y, lineKey := Tab.set s.lineKey (lineId pa true) (key, s.slotGen key) }
  else if Mem.readN s.dm lo 64 = x ∨ b.length = 64 then s.putLine key pa b ts whole
  else s.putLine key lo y ts false

/-- The same; the granules of `b` lose their tags, but for one that a tag is stored with. -/
def State.closeAt (s : State) (key pa : Nat) (tier1 : Bool) (x b : List Byte) (tag : Bool) : State :=
  s.putAt key pa tier1 x b (s.tagsAfter pa b.length tag) (b.length == 64)

/-- A write inside one line of either tier; false where it is not performed. -/
def State.physWrite (s : State) (busB : Bool) (key pa : Nat) (tier1 : Bool) (b : List Byte) (tag : Bool) : State × Bool :=
  match s.openWrite busB key pa b.length tier1 with
  | (s, none) => (s, false)
  | (s, some x) => (s.closeAt key pa tier1 x b tag, true)

/-! ### The die's view and its clock (R219, R220, R244) -/

/-- The line number that stands for a slice byte's write in the apply queues; no die holds it. -/
def sliceLine (addr : Nat) : Nat := 2 ^ 59 + addr / 4

/-- Advances the source die's clock: the number and the predecessors of its next write (R220). -/
def State.stamp (s : State) (die : Nat) : State × Nat × Tab Nat :=
  let c := (s.die die).clock
  let n := Tab.getD s.issued die 0 + 1
  ({ s with issued := Tab.set s.issued die n }.modDie die (fun d => { d with clock := Tab.set c die n }), n, c)

/-- A held line after a write of bytes: the granules they touch lose their tags, but for a stored one (R159). -/
def CLine.write (l : CLine) (off : Nat) (b : List Byte) (tag : Bool) : CLine :=
  { l with data := patch l.data off b,
           tags := l.tags.filter (fun g => decide (g < off / 16) || decide ((off + b.length - 1) / 16 < g)) ++
             (if tag then [off / 16] else []) }

/-- The copy of a line a die holds is updated where it holds one under the key. -/
def Die.updLine (d : Die) (key line off : Nat) (b : List Byte) (tag : Bool) : Die :=
  { d with lines := d.lines.map (fun l => if l.line = line ∧ l.key = key then l.write off b tag else l) }

/-- Whether a stamp's predecessors have been applied. -/
def Die.covers (d : Die) (stamp : Tab Nat) : Bool := stamp.all (fun e => decide (e.2 ≤ Tab.getD d.clock e.1 0))

def Die.holds (d : Die) (line : Nat) : Bool := d.lines.any (fun l => l.line == line)

/-- The line number that stands for a whole SKUPD in the apply queues (R289). -/
def skLine : Nat := 2 ^ 60

/-- Whether the entry at a place of a die's apply queue may be applied: its source's writes go in order, after their
predecessors (R220); its home has performed it, or the die holds the line; the writes to one line keep their home order, which is the
queue's: the die's view never moves backward when it reads the line from its home again (R244, R245, R267). The operations of a SKUPD
come before its own entry. -/
def Die.mayApply (d : Die) (self k : Nat) : Bool :=
  match d.applyQ[k]? with
  | none => false
  | some a =>
      (a.src == self || ((a.num == Tab.getD d.clock a.src 0 + 1 || (a.sub && decide (a.num ≤ Tab.getD d.clock a.src 0))) &&
        d.covers (Tab.erase a.stamp a.src))) &&
      (a.line != skLine || !(d.applyQ.any (fun b => b.sub && b.src == a.src && b.num == a.num))) &&
      (a.done || (d.holds a.line && !a.rmw)) &&
      (d.applyQ.take k).all (fun b => b.line != a.line)

/-- The entry applied: the die's copy, its clock. -/
def Die.applyAt (d : Die) (self k : Nat) : Die :=
  match d.applyQ[k]? with
  | none => d
  | some a =>
      let d := if a.bytes.isEmpty then d else d.updLine a.key a.line a.off a.bytes a.tag
      { d with applyQ := d.applyQ.eraseIdx k,
               clock := if a.src = self ∨ a.sub = true then d.clock else Tab.set d.clock a.src a.num }

/-- A number no die has. -/
def noDie : Nat := 64

/-- `ref` applies what it may, until nothing is left. -/
def Die.settle (d : Die) : Nat → Die
  | 0 => d
  | n + 1 =>
      match (List.range d.applyQ.length).find? (fun k => d.mayApply noDie k) with
      | none => d
      | some k => (d.applyAt noDie k).settle n

/-- A write enters the apply queue of every other die that has been touched; an operation's result also that of its
own die, and with it every write of its own that comes behind another write to its line (R244: the home order). -/
def State.broadcast (s : State) (a : Apply) (own : Bool) : State :=
  { s with dies := s.dies.map (fun e => if e.1 = a.src && !own then e else (e.1, { e.2 with applyQ := e.2.applyQ ++ [a] })),
           ref := { s.ref with applyQ := s.ref.applyQ ++ [a] } }

/-- Whether a die must wait before it reads a line from its home: it has not applied a write to it (R244). -/
def State.lineBusy (s : State) (die line : Nat) : Bool := (s.die die).applyQ.any (fun a => a.line == line)

/-- R144: a write that becomes visible at a die wakes the panes there that watch its word, where the word then differs from the
value they expect: the watch keeps the value it saw. -/
def State.wake (s : State) (die line off : Nat) (b : List Byte) : State :=
  s.allPanes.foldl (fun s p =>
    match p.watch with
    | none => s
    | some w =>
        if w.due || w.got.isSome || dieOf p.core != die then s
        else
          match (s.readObj die p.part w.obj).map (fun o => s.transObj o p.part 0 w.addr) with
          | some (.ok pa t) | some (.migrating pa t) =>
              let k := pa % 64
              if lineId pa t != line || decide (off + b.length ≤ k) || decide (k + 4 ≤ off) then s
              else
                let l := match (s.die die).lines.find? (fun l => l.line == line && l.key == p.part) with
                  | some l => l.data
                  | none => Mem.readN (if t then s.hm else s.dm) (pa / 64 * 64) 64
                let v := wordOfNat (ofBytes (((patch l off b).drop k).take 4))
                if v = w.expect then s
                else s.modPane p.pid (fun p => { p with watch := some { w with got := some v, holds := false } })
          | _ => s) s

/-- A die's own write, stamped: its copy is updated at once, or in its turn behind the writes to the line that the die has still to
apply (R219, R244). -/
def State.ownWrite (s : State) (a : Apply) : State :=
  if s.lineBusy a.src a.line then s.broadcast a true
  else ((s.modDie a.src (fun d => d.updLine a.key a.line a.off a.bytes a.tag)).broadcast a false).wake a.src a.line a.off a.bytes

/-- What a line's writers had seen, with the writes of a source and number themselves (R242). -/
def State.noteWriters (s : State) (src num : Nat) : State :=
  (s.ref.applyQ.filter (fun a => a.src == src && a.num == num && !a.bytes.isEmpty)).foldl (fun s a =>
    { s with lineClock :=
        Tab.set s.lineClock a.line (mergeClock (Tab.getD s.lineClock a.line []) (Tab.set a.stamp src num)) }) s

/-- The home has performed a write: its entries say so, with the bytes it left. -/
def State.performed (s : State) (src num : Nat) (bytes : Option (List Byte)) : State :=
  let s := s.noteWriters src num
  let f := fun (d : Die) => { d with applyQ := d.applyQ.map (fun a =>
    if a.src = src ∧ a.num = num then { a with done := true, bytes := bytes.getD a.bytes } else a) }
  let r := f s.ref
  { s with dies := s.dies.map (fun e => (e.1, f e.2)), ref := r.settle r.applyQ.length }

/-- A line whose write was not performed is held by no die. -/
def State.dropLine (s : State) (line : Nat) : State :=
  { s with dies := s.dies.map (fun e => (e.1, { e.2 with lines := e.2.lines.filter (fun l => l.line != line) })) }

/-- Whether the die's own operation on a line has not been applied there: its copy is not up to date (R167). -/
def State.ownBusy (s : State) (die line : Nat) : Bool :=
  (s.die die).applyQ.any (fun a => a.line == line && a.src == die)

/-- Whether a write of the die to a line is under way to its home. -/
def State.writeQueued (s : State) (die line : Nat) : Bool :=
  s.chanQ.any (fun c => c.line == line && c.die == die && c.num != 0)

/-- The lines of 64 bytes a die cache of 32 MiB holds (R2, R219). -/
def cacheLines : Nat := 524288

/-- The lines of a die cache once room for one more is made: a line marked for replacement first goes before any other, and at
once; else the oldest line where the cache is full (R163, R219; log entry 88). -/
def makeRoom (ls : List CLine) : List CLine :=
  match ls.findIdx? CLine.first with
  | some k => ls.eraseIdx k
  | none => keepLast (cacheLines - 1) ls

/-- A die keeps a line it has read, unless writes to it are under way. -/
def State.keepLine (s : State) (die : Nat) (l : CLine) : State :=
  if s.lineBusy die l.line || s.writeQueued die l.line || (s.die die).lines.any (fun k => k.line == l.line && k.key == l.key) then s
  else s.modDie die (fun x => { x with lines := makeRoom x.lines ++ [l] })

/-- R219: the lines of an access with .ST are marked for replacement first once it is done. -/
def State.markFirst (s : State) (die line : Nat) (st : Bool) : State :=
  if st then s.modDie die (fun d => { d with lines := d.lines.map (fun l => if l.line = line then { l with first := true } else l) })
  else s

/-- R273, R316: every write that a stamp names has been performed at its home. -/
def State.homeDone (s : State) (stamp : Tab Nat) : Bool :=
  s.ref.applyQ.all (fun a => a.done || decide (Tab.getD stamp a.src 0 < a.num))

/-- The same for the writes that a command's fork edge names: a SKUPD only where it was stamped at the command's issue
(R239, R288, R293). -/
def State.forkDone (s : State) (now issue : Tab Nat) : Bool :=
  s.ref.applyQ.all (fun a => a.done || decide (Tab.getD (if a.line = skLine then issue else now) a.src 0 < a.num))

/-! ### Operations at the home (R168, R245) -/

/-- R168: the new 32-bit value of an operation; `w` is the value .CAS swaps in. -/
def aopVal (op : AOp) (old v w : Word) : Word :=
  match op with
  | .add => old + v
  | .min => iminVal false old v
  | .max => imaxVal false old v
  | .umin => iminVal true old v
  | .umax => imaxVal true old v
  | .and => old &&& v
  | .or => old ||| v
  | .xor => old ^^^ v
  | .fadd => atomFadd old v
  | .fmin => (fminmaxVal false false old v).1
  | .fmax => (fminmaxVal false true old v).1
  | .hadd2 => (onHalves2 (haddEl F16) old v).1
  | .bhadd2 => (onHalves2 (haddEl BF16) old v).1
  | .xchg => v
  | .cas => if old = v then w else old

/-- R168: the new bytes of an operation of 4 or 8 bytes; the operand bytes hold the value and, for .CAS, the swap. -/
def aopBytes (op : AOp) (size : Nat) (old opnd : List Byte) : List Byte :=
  let o := ofBytes old
  let v := ofBytes (opnd.take size)
  let w := ofBytes ((opnd.drop size).take size)
  if size = 8 then
    toBytes 8 (match op with
      | .xchg => v
      | .cas => if o = v then w else o
      | _ => (o + v) % 2 ^ 64)
  else toBytes 4 (aopVal op (wordOfNat o) (wordOfNat v) (wordOfNat w)).toNat

/-! ### Service of the lines at their channels (R267) -/

/-- A lane of a request changed. -/
def Req.modLane (r : Req) (lane : Nat) (f : Lane → Lane) : Req :=
  { r with lanes := r.lanes.map (fun l => if l.lane = lane then f l else l) }

def State.setLane (s : State) (rid lane : Nat) (f : Lane → Lane) : State := s.modReq rid (fun r => r.modLane lane f)

/-- A line's read: its bytes, and the line the die then keeps. -/
def State.serveLoad (s : State) (c : ChanItem) : State :=
  match s.physRead false c.part c.pa c.size c.tier1 with
  | (s, none) => s.setLane c.rid c.lane (fun l => { l with stage := .failed .poisoned })
  | (s, some b) =>
      let s := s.setLane c.rid c.lane (fun l =>
        { l with stage := .landed, got := b, gotTag := !c.tier1 && s.tags.contains (c.pa / 16) })
      if !c.fill || !(if c.tier1 then s.keyOk1 c.part c.line else s.keyOk c.part c.line) then s
      else s.keepLine c.die ⟨c.line, c.part, Mem.readN (if c.tier1 then s.hm else s.dm) (c.pa / 64 * 64) 64,
        ((Tab.find s.reqs c.rid).map Req.st).getD false, if c.tier1 then [] else s.lineTags c.line⟩

/-- A write or an operation that its home does not perform: no die applies it or keeps the line. -/
def State.serveFail (s : State) (c : ChanItem) : State :=
  ((s.setLane c.rid c.lane (fun l => { l with stage := .failed .poisoned })).dropLine c.line).performed c.die c.num (some [])

def State.serveStore (s : State) (c : ChanItem) : State :=
  match s.physWrite false c.part c.pa c.tier1 c.bytes (c.kind == .cst && c.tag) with
  | (s, false) => s.serveFail c
  | (s, true) =>
      (s.setLane c.rid c.lane (fun l => { l with stage := .landed })).performed c.die c.num none

/-- How an operation is counted at its reduction engine (R280). -/
inductive OpCount where
  | atomic
  | reduction
  | sketch
  | none
  deriving DecidableEq, Repr

/-- R277: the reduction engine of a word. -/
def State.rdxAt (s : State) (pa : Nat) (tier1 : Bool) : Nat × Nat :=
  if tier1 then (pa / 4096 % 16, pa / 64 % 32) else s.chanOf pa

/-- Counts an operation performed or not (R280). -/
def State.rdxCount (s : State) (pa : Nat) (tier1 : Bool) (kind : OpCount) (ok coalesced : Bool) : State :=
  let (g, c) := s.rdxAt pa tier1
  if kind = .none then s
  else s.modChan g c (fun k =>
    if !ok then { k with refused := satInc k.refused }
    else { k with atomics := if kind = .atomic then satInc k.atomics else k.atomics,
                  reductions := if kind = .reduction then satInc k.reductions else k.reductions,
                  skops := if kind = .sketch then satInc k.skops else k.skops,
                  coalesced := if coalesced then satInc k.coalesced else k.coalesced })

/-- How a queued operation is counted: a returning atomic, or a reduction. -/
def State.itemCount (s : State) (c : ChanItem) : OpCount :=
  if ((Tab.find s.reqs c.rid).map (fun r => r.kind == .atomic)).getD false then .atomic else .reduction

/-- The leading operations of a line's items under one key. -/
def leadOps (part : Nat) : List ChanItem → List ChanItem
  | [] => []
  | c :: r => if c.kind = .rmw ∧ c.part = part then c :: leadOps part r else []

/-- One operation on an open line of bytes `y`: each reads the value immediately before it in home order and writes immediately
after it (R245). -/
def State.opOne (s : State) (y : List Byte) (c : ChanItem) (joins : Bool) : State × List Byte :=
  let old := (y.drop (c.pa % 64)).take c.size
  let new := aopBytes c.op c.size old c.bytes
  let s := s.rdxCount c.pa c.tier1 (s.itemCount c) true joins
  ((s.setLane c.rid c.lane (fun l => { l with stage := .landed, got := old })).performed c.die c.num (some new),
    patch y (c.pa % 64) new)

/-- R278: operations queued together at a line are applied in a single access, in their order: one read, one write, one parity
delta. -/
def State.serveOps (s : State) (ops : List ChanItem) : State :=
  match ops with
  | [] => s
  | c :: rest =>
      match s.openAt false c.part c.pa c.tier1 with
      | (s, none) => (c :: rest).foldl (fun s d => (s.rdxCount d.pa d.tier1 (s.itemCount d) false false).serveFail d) s
      | (s, some x) =>
          let first := s.opOne x c false
          let (s, y) := rest.foldl (fun (acc : State × List Byte) d => acc.1.opOne acc.2 d true) first
          let ts := (c :: rest).foldl (fun ts d =>
            ts.filter (fun i => decide (i < d.pa % 64 / 16) || decide ((d.pa % 64 + d.size - 1) / 16 < i))) (s.lineTags (c.pa / 64))
          let lo := (rest.map (fun d => d.pa % 64)).foldl min (c.pa % 64)
          let hi := (rest.map (fun d => d.pa % 64 + d.size)).foldl max (c.pa % 64 + c.size)
          s.putAt c.part (c.pa / 64 * 64 + lo) c.tier1 x ((y.drop lo).take (hi - lo)) ts false

def State.serve (s : State) (c : ChanItem) : State :=
  match c.kind with
  | .load | .cld => s.serveLoad c
  | .store | .cst => s.serveStore c
  | .rmw => s.serveOps [c]

/-- R278: the operations that the queue of an engine holds: the oldest 128 that have come to its channel. -/
def State.rdxQueue (s : State) (pa : Nat) (tier1 : Bool) : List ChanItem :=
  (s.chanQ.filter (fun c => c.kind == .rmw && s.rdxAt c.pa c.tier1 == s.rdxAt pa tier1)).take 128

/-- The oldest item of a line is served; operations queued together behind one another are one access. -/
def State.serveLine (s : State) (line : Nat) : State :=
  match s.chanQ.filter (fun c => c.line == line) with
  | [] => s
  | c :: rest =>
      let ops := (leadOps c.part (c :: rest)).filter (fun d => d == c || (s.rdxQueue c.pa c.tier1).contains d)
      let now := if ops.isEmpty then [c] else ops
      let s := { s with chanQ := s.chanQ.filter (fun d => !now.contains d) }
      if ops.isEmpty then s.serve c else s.serveOps ops

/-- Every item of a line is served, in arrival order: what stands before a unit's own access to the line. -/
def State.drainLine (s : State) (line : Nat) : Nat → State
  | 0 => s
  | n + 1 => if s.chanQ.any (fun c => c.line == line) then (s.serveLine line).drainLine line n else s

/-- The lines of a physical run are drained. -/
def State.drain (s : State) (pa n : Nat) (tier1 : Bool) : State :=
  (List.range ((pa + n - 1) / 64 + 1 - pa / 64)).foldl (fun s i => s.drainLine (lineId (pa + 64 * i) tier1) s.chanQ.length) s

/-! ### Accesses of units (R224, R230, R267, R268) -/

/-- Whose access it is, other than a lane's: the unit, the die whose port translates it and whose clock it bears, its partition;
whether it writes; whether it waits for an extent that is migrating; whether it asks again for a page that a success response
left absent (R29, R350); whether it comes over command bus B (R267); the core whose mesh stop it passes (R217); whether it
reads at the home channel, never from a duplicate (R290, R316, R330); whether it reads through the die's view, whose lines need no link
(R219, R232). -/
structure Via where
  who   : Waiter
  die   : Nat
  part  : Nat
  write : Bool := false
  hold  : Bool := false
  again : Bool := false
  busB  : Bool := false
  core  : Option Nat := none
  home  : Bool := false
  view  : Bool := false
  deriving DecidableEq, Repr

/-- A run of bytes cut at line borders: offsets and lengths. -/
def lineCuts (pa n : Nat) : List (Nat × Nat) :=
  (List.range ((pa + n - 1) / 64 + 1 - pa / 64)).map (fun i =>
    let lo := max pa ((pa / 64 + i) * 64)
    (lo - pa, min (pa + n) ((pa / 64 + i + 1) * 64) - lo))

/-- A unit's write inside an opened line, performed at its home and stamped with the die's clock. -/
def State.unitPut (s : State) (v : Via) (pa : Nat) (tier1 : Bool) (x b : List Byte) : State :=
  let (s, n, st) := (s.closeAt v.part pa tier1 x b false).stamp v.die
  (s.ownWrite { src := v.die, num := n, stamp := st, line := lineId pa tier1, off := pa % 64, bytes := b, key := v.part }).performed
    v.die n none

/-- A unit's write of runs of bytes, after what has arrived at their lines; where a line of them cannot be written, nothing is
written (R224). -/
def State.unitWrites (s : State) (v : Via) (runs : List (Nat × Bool × List Byte)) : State × Bool :=
  let cuts : List (Nat × Bool × List Byte) := (runs.map (fun r =>
    (lineCuts r.1 r.2.2.length).map (fun c => (r.1 + c.1, r.2.1, (r.2.2.drop c.1).take c.2)))).flatten
  let (s, xs) := cuts.foldl (fun (acc : State × Option (List (List Byte))) c =>
    match acc.2 with
    | none => acc
    | some l =>
        match (acc.1.drain c.1 c.2.2.length c.2.1).openWrite v.busB v.part c.1 c.2.2.length c.2.1 with
        | (s, none) => (s, none)
        | (s, some x) => (s, some (l ++ [x]))) (s, some [])
  match xs with
  | none => (s, false)
  | some xs => ((cuts.zip xs).foldl (fun s e => s.unitPut v e.1.1 e.1.2.1 e.2 e.1.2.2) s, true)

def State.unitWrite (s : State) (v : Via) (pa : Nat) (tier1 : Bool) (b : List Byte) : State × Bool := s.unitWrites v [(pa, tier1, b)]

/-- A run of bytes at places, cut at line borders. -/
def placeCuts (runs : List (Nat × Bool × Nat)) : List (Nat × Bool × Nat) :=
  runs.flatMap (fun r => (lineCuts r.1 r.2.2).map (fun c => (r.1 + c.1, r.2.1, c.2)))

/-- The parts of an operation written in the lines it has opened, each stamped, or entered under one number (R289). -/
def State.opParts (s : State) (v : Via) (num : Option Nat) : List ((Nat × Bool × Nat) × List Byte) → List Byte → State
  | [], _ => s
  | ((pa, tier1, n), x) :: r, b =>
      let new := b.take n
      let s := s.closeAt v.part pa tier1 x new false
      let a : Apply := { src := v.die, num := 0, stamp := [], line := lineId pa tier1, off := pa % 64, bytes := new,
                         key := v.part, rmw := true }
      let s := match num with
        | some k => s.broadcast { a with num := k, done := true, sub := true } true
        | none =>
            let (s, k, st) := s.stamp v.die
            (s.broadcast { a with num := k, stamp := st } true).performed v.die k (some new)
      s.opParts v num r (b.drop n)

/-- An indivisible operation of a unit at the home of a run of bytes (R226, R245, R272), which may lie in two lines: `f` gives the new
bytes, or none to leave them; `num` is the number it is stamped with, where it is one of several under it (R289). The old bytes; none
where the home does not perform it. It is served as it comes, joined with no other (log entry 102). -/
def State.unitOps (s : State) (v : Via) (kind : OpCount) (num : Option Nat) (runs : List (Nat × Bool × Nat))
    (f : List Byte → Option (List Byte)) : State × Option (List Byte) :=
  let cuts := placeCuts runs
  let (pa, tier1, _) := cuts.headD (0, false, 0)
  let (s, xs) := cuts.foldl (fun (acc : State × Option (List (List Byte))) c =>
    match acc.2 with
    | none => acc
    | some l =>
        match (acc.1.drain c.1 c.2.2 c.2.1).openAt v.busB v.part c.1 c.2.1 with
        | (s, none) => (s, none)
        | (s, some x) => (s, some (l ++ [x]))) (s, some [])
  match xs with
  | none => (s.rdxCount pa tier1 kind false false, none)
  | some xs =>
      let old := ((cuts.zip xs).map (fun e => (e.2.drop (e.1.1 % 64)).take e.1.2.2)).flatten
      let s := s.rdxCount pa tier1 kind true false
      match f old with
      | none => (s, some old)
      | some new => (s.opParts v num (cuts.zip xs) new, some old)

/-- The same at one place. -/
def State.unitOp (s : State) (v : Via) (kind : OpCount) (num : Option Nat) (pa n : Nat) (tier1 : Bool)
    (f : List Byte → Option (List Byte)) : State × Option (List Byte) := s.unitOps v kind num [(pa, tier1, n)] f

/-- A read of a unit at the home, after what has arrived there. -/
def State.unitRead (s : State) (v : Via) (pa n : Nat) (tier1 : Bool) : State × Option (List Byte) :=
  (lineCuts pa n).foldl (fun (acc : State × Option (List Byte)) c =>
    match acc.2 with
    | none => acc
    | some b =>
        match (acc.1.drain (pa + c.1) c.2 tier1).physRead v.busB v.part (pa + c.1) c.2 tier1 with
        | (s, none) => (s, none)
        | (s, some x) => (s, some (b ++ x))) (s, some [])

/-- R219: an uncorrectable error in a held line discards it, counted and reported. -/
def State.lineError (s : State) (die part line : Nat) : State :=
  let s := s.modDie die (fun d => { d with lines := d.lines.filter (fun l => l.line != line), dcerr := satInc d.dcerr })
  s.record 0x03 part die (s.lineName (64 * line) ++ [1])

/-- The line of a place as its home holds it, for a die to keep; none where the key has not written it. -/
def State.homeLine (s : State) (key pa : Nat) (tier1 first : Bool) : Option CLine :=
  let line := lineId pa tier1
  if if tier1 then s.keyOk1 key line else s.keyOk key line then
    some ⟨line, key, Mem.readN (if tier1 then s.hm else s.dm) (pa / 64 * 64) 64, first, if tier1 then [] else s.lineTags line⟩
  else none

/-- Whether the path of a die to a stack group crosses a failed link. -/
def State.pathFailed (s : State) (die group : Nat) : Bool :=
  groupOf die != group && (s.die die).links.contains (Config.linkOf die group)

/-- What a unit's access gives: it waits, it fails for a cause, or a value. -/
inductive PRes (α : Type) where
  | wait
  | fail (c : Cause)
  | ok (x : α)
  deriving DecidableEq, Repr

/-- An access goes on with its value. -/
def andThen {α β : Type} (r : State × PRes α) (k : State → α → State × PRes β) : State × PRes β :=
  match r with
  | (s, .wait) => (s, .wait)
  | (s, .fail c) => (s, .fail c)
  | (s, .ok x) => k s x

/-- A line read from its home through a die's view, which the die then keeps, but for a duplicate's (R219). -/
def State.dieMiss (s : State) (v : Via) (pa n : Nat) (tier1 : Bool) : State × PRes (List Byte) :=
  if s.lineBusy v.die (lineId pa tier1) then (s, .wait)
  else if !tier1 && s.pathFailed v.die (pa / 2 ^ 36) then (s, .fail .refused)
  else
    match s.unitRead v pa n tier1 with
    | (s, none) => (s, .fail .poisoned)
    | (s, some b) => ((match s.homeLine v.part pa tier1 false with
        | some l => s.keepLine v.die l
        | none => s), .ok b)

/-- A read of a unit through a die's view: the copy the die holds, else the home's line once the die has applied every write to it;
`bad` says that the copies it hits have uncorrectable errors: each is discarded and its line read again (R219). -/
def State.dieRead1 (s : State) (v : Via) (bad : Bool) (pa n : Nat) (tier1 : Bool) : State × PRes (List Byte) :=
  let line := lineId pa tier1
  match (s.die v.die).lines.find? (fun l => l.line == line && l.key == v.part) with
  | some l =>
      if s.ownBusy v.die line then (s, .wait)
      else if bad then (s.lineError v.die v.part line).dieMiss v pa n tier1
      else (s, .ok ((l.data.drop (pa % 64)).take n))
  | none => s.dieMiss v pa n tier1

def State.dieRead (s : State) (v : Via) (bad : Bool) (pa n : Nat) (tier1 : Bool) : State × PRes (List Byte) :=
  (lineCuts pa n).foldl (fun acc c => andThen acc (fun s b =>
    andThen (s.dieRead1 v bad (pa + c.1) c.2 tier1) (fun s x => (s, .ok (b ++ x))))) (s, .ok [])

/-! ### The pane's outstanding requests -/

/-- The requests of a pane. -/
def State.paneReqs (s : State) (pid : Nat) : List Req := (Tab.vals s.reqs).filter (fun r => r.pid == pid)

def Req.isRead (r : Req) : Bool :=
  match r.kind with
  | .load | .atomic | .cld | .tex | .hgrid | .posrd => true
  | _ => false

def Req.isWrite (r : Req) : Bool :=
  match r.kind with
  | .store | .red | .cst | .sig | .skupd => true
  | _ => false

/-- A read has landed when its request is gone from the table; a write is done for ordering when accepted (R175). -/
def Req.done (r : Req) : Bool := if r.isRead then false else if r.isWrite then r.accepted else true

/-- Every earlier store accepted and every earlier load and atomic landed (R167, R228, R238, R273). -/
def State.quiet (s : State) (pid mark : Nat) : Bool :=
  (s.paneReqs pid).all (fun r => decide (mark ≤ r.rid) || r.done)

/-- Earlier peer and host stores accepted at their destinations (R238). -/
def State.quietSys (s : State) (pid mark : Nat) : Bool :=
  (s.paneReqs pid).all (fun r => decide (mark ≤ r.rid) || !(r.isWrite && (r.space == .pm || r.space == .hm)) ||
    r.destAccepted)

/-- Every earlier load, CLD, filtered read and atomic landed. -/
def State.quietReads (s : State) (pid mark : Nat) : Bool :=
  (s.paneReqs pid).all (fun r => decide (mark ≤ r.rid) || !r.isRead)

/-- What the reads and operations behind a pane's replies had seen is acquired: at a WAITAC, a WAITMEM and a fence with an acquire
part (R239 to R241, R249). -/
def Pane.acquire (p : Pane) : Pane := { p with clock := mergeClock p.clock p.seen, seen := [] }

/-- What a reply had seen is kept until the pane's next acquisition. -/
def Pane.sees (p : Pane) (c : Tab Nat) : Pane := { p with seen := mergeClock p.seen c }

/-- Whether a memory word of the pane may issue, by its fences and its acquiring words (R167, R238); its die must have applied
what its acquisitions name (R240, R241, R249). -/
def State.memMayIssue (s : State) : Bool :=
  let p := s.pane
  s.quiet p.pid p.relMark && s.quietReads p.pid p.acqMark && s.quietSys p.pid p.sysMark &&
  (s.paneReqs p.pid).all (fun r => !(r.acq && r.isRead)) && (s.die (dieOf p.core)).covers p.clock

/-- The store-origin entries a core holds (R179). -/
def State.originUsed (s : State) (core : Nat) : Nat :=
  ((Tab.vals s.reqs).filter (fun r => r.core == core && r.entry)).length

/-! ### The issue of a turn -/

/-- The word does not issue: no word of its group takes effect in this turn (R36). -/
def held (s : State) : State := { s with issue := .held }

/-- The pane issues nothing more in this turn; its pc stands at the word that waits. -/
def ended (s : State) : State := { s with issue := .ended }

/-- A free value: the counter of the state advances (log entry 6). -/
def State.fresh (s : State) : State × Word := ({ s with freeCount := s.freeCount + 1 }, Config.freeWord s.freeCount)

/-- ac[k] rises by 1 (R175). -/
def Pane.acUp (p : Pane) (k : Fin 16) : Pane := { p with ac := setAt p.ac k.val (p.ac.getD k.val 0 + 1) }

def Pane.acDown (p : Pane) (k : Fin 16) : Pane := { p with ac := setAt p.ac k.val (p.ac.getD k.val 0 - 1) }

/-- A counter at 255 stalls issue (R17). -/
def Pane.acFull (p : Pane) (k : Fin 16) : Bool := p.ac.getD k.val 0 == 255

/-- The error flags of a counter (R177). -/
def Pane.acMark (p : Pane) (k : Fin 16) (data eng : Bool) : Pane :=
  { p with acData := if data then p.acData ||| (1 <<< k.val) else p.acData,
           acEng := if eng then p.acEng ||| (1 <<< k.val) else p.acEng }

/-! ### Translation of units' accesses (R22, R29, R142, R216, R230, R350), duplicates, parked writes and page requests -/

/-- The place of an extent in its object's list. -/
def Obj.extIx (o : Obj) (off : Nat) : Nat :=
  o.exts.findIdx (fun e => decide (e.voff * 65536 ≤ off) && decide (off < (e.voff + e.nlen) * 65536))

/-- An object's number over all partitions, as DUP events name it. -/
def objNo (part obj : Nat) : Nat := part * 65536 + obj

/-- The other holders of a read-only copy of the extent at an offset (R269). -/
def dupOthers (e : Extent) : List Nat :=
  (List.range 16).filter (fun h => e.dup / 2 ^ h % 2 == 1 && h != e.pfn / 2 ^ 20 % 16)

/-- The dies whose ports must acknowledge an invalidation: those of the groups that hold a copy. -/
def dupDies (e : Extent) : List Nat := ((dupOthers e).map (fun g => [4 * g, 4 * g + 1, 4 * g + 2, 4 * g + 3])).flatten

/-- The invalidation of an extent: the dies that have not acknowledged it; none where none has been sent. -/
def State.inval (s : State) (objno ext : Nat) : Option (List Nat) :=
  (s.invals.find? (fun e => e.1 == objno && e.2.1 == ext)).map (fun e => e.2.2)

/-- A write's way at an extent with copies: it goes on, or it parks, the invalidation sent (R248, R269). -/
def State.dupWrite (s : State) (part obj : Nat) (o : Obj) (e : Extent) (off : Nat) : State × Bool :=
  if !s.rdup || (dupOthers e).isEmpty then (s, true)
  else
    match s.inval (objNo part obj) (o.extIx off) with
    | some l => (s, l.isEmpty)
    | none => ({ s with invals := s.invals ++ [(objNo part obj, o.extIx off, dupDies e)] }, false)

/-- The address a read takes from a read-only copy in the die's own group (R269). -/
def State.dupRead (s : State) (die part obj : Nat) (o : Obj) (e : Extent) (off pa : Nat) : Option Nat :=
  let g := groupOf die
  if s.rdup && (dupOthers e).contains g && !(s.die die).dropped.contains (objNo part obj, o.extIx off) then
    some (g * 2 ^ 36 + pa % 2 ^ 36)
  else none

/-- The entries of a die's park buffer (R268). -/
def State.parkedCount (s : State) (die : Nat) : Nat := (s.parkQ.filter (fun p => p.die == die)).length

/-- The parked write of a die that is replayed next (R268: in park order). -/
def State.replayHead (s : State) (die : Nat) : Option Parked := s.parkQ.find? (fun p => p.die == die && p.replay)

/-- A write parks, at the end of the buffer; with the buffer full it is held at the port. -/
def State.park (s : State) (p : Parked) : State :=
  if 256 ≤ s.parkedCount p.die then s else { s with parkQ := s.parkQ ++ [p] }

def State.unparked (s : State) (k : ParkKind) : State := { s with parkQ := s.parkQ.filter (fun p => p.kind != k) }

/-- Whether a write that was parked must wait for those parked before it. -/
def State.replayWaits (s : State) (die : Nat) (k : ParkKind) : Bool :=
  s.parkQ.any (fun p => p.kind == k && p.replay) && (s.replayHead die).any (fun p => p.kind != k)

/-- The tag of a page request of one asker that is under way for a page: a block merges its requests for one page (R229). -/
def State.pageTag (s : State) (part obj page : Nat) (who : Asker) : Option Nat :=
  (s.pages.find? (fun e => e.2.part == part && e.2.obj == obj && e.2.page == page && e.2.who == who)).map Prod.fst

/-- R388: a request takes the lowest free entry of the tag table, and the lowest free PRG index of its partition; unsent where its
partition holds 512 or the table is full. -/
def State.sendPage (s : State) (part obj page : Nat) (who : Asker) : State × Option Nat :=
  match s.pageTag part obj page who with
  | some t => (s, some t)
  | none =>
      let mine := s.pages.filter (fun e => e.2.part == part)
      if 512 ≤ mine.length ∨ 4096 ≤ s.pages.length then (s, none)
      else
        match (List.range 4096).find? (fun t => (Tab.find s.pages t).isNone),
              (List.range 512).find? (fun g => mine.all (fun e => e.2.prg != g)) with
        | some t, some g => ({ s with pages := Tab.set s.pages t ⟨part, obj, page, g, who⟩ }, some t)
        | _, _ => (s, none)

/-- The response that a unit has got for a page. -/
def State.answer (s : State) (w : Waiter) (part obj page : Nat) : Option Bool :=
  (s.answered.find? (fun a => a.1 == w && a.2.1 == part && a.2.2.1 == obj && a.2.2.2.1 == page)).map (fun a => a.2.2.2.2)

def State.unanswer (s : State) (w : Waiter) (part obj page : Nat) : State :=
  { s with answered := s.answered.filter (fun a => !(a.1 == w && a.2.1 == part && a.2.2.1 == obj && a.2.2.2.1 == page)) }

/-- A unit's operation is over: the responses it got and its place in the park buffer go. -/
def State.forget (s : State) (w : Waiter) : State :=
  { s with answered := s.answered.filter (fun a => a.1 != w), parkQ := s.parkQ.filter (fun p => p.kind != .unit w) }

/-- A unit's write to a migrating extent or a duplicated page parks (R248, R268); one that meets a window again parks again. -/
def State.unitPark (s : State) (v : Via) (obj : Nat) : State :=
  if s.parkQ.any (fun p => p.kind == .unit v.who && !p.replay) then s
  else (s.unparked (.unit v.who)).park ⟨v.die, v.part, obj, .unit v.who, false⟩

/-- Whether the mesh stop of a core has failed (R217). -/
def State.stopFailed (s : State) (core : Nat) : Bool :=
  (((s.die (dieOf core)).cls).getD (clusterOf core) {}).failed

/-- A unit's read at its place: refused over a failed link, but for one through the die's view (R219, R232). -/
def State.overLink (s : State) (v : Via) (pa : Nat) (tier1 : Bool) : State × PRes (Nat × Bool) :=
  if !v.view && !tier1 && s.pathFailed v.die (pa / 2 ^ 36) then (s, .fail .refused) else (s, .ok (pa, tier1))

/-- A unit's access to an object's page at its port (R230, R232, R268, R269): held at an extent that is not resident; unresolved
after a failure response, or where a success response leaves the extent not resident; at a migrating extent a write parks and a
read is served from the old frames. -/
def State.unitObj (s : State) (v : Via) (obj va : Nat) : State × PRes (Nat × Bool) :=
  match s.lookupObj v.die v.part obj with
  | (s, none) => (s, .fail .refused)
  | (s, some o) =>
      if v.core.any s.stopFailed then (s, .fail .refused)
      else
      let off := va - o.vbase
      let ans := s.answer v.who v.part obj (off / 4096)
      if ans = some false then (s, .fail .unresolved)
      else
        match s.transObj o v.part 0 va with
        | .refused => (s, .fail .refused)
        | .absent _ =>
            if ans = some true ∧ v.again = false then (s, .fail .unresolved)
            else (((s.unanswer v.who v.part obj (off / 4096)).sendPage v.part obj (off / 4096) (.unit v.who)).1, .wait)
        | .migrating pa t =>
            if v.write then (s.unitPark v obj, .wait)
            else if v.hold then (s, .wait)
            else s.overLink v pa t
        | .ok pa t =>
            match (if t then none else o.ext off) with
            | none => (s, .ok (pa, t))
            | some e =>
                if v.write then
                  if s.pathFailed v.die (pa / 2 ^ 36) then (s, .fail .refused)
                  else if s.replayWaits v.die (.unit v.who) then (s, .wait)
                  else
                    match s.dupWrite v.part obj o e off with
                    | (s, true) => (s, .ok (pa, t))
                    | (s, false) => (s.unitPark v obj, .wait)
                else s.overLink v (if v.home then pa else (s.dupRead v.die v.part obj o e off pa).getD pa) t

/-- The lowest valid device object of a partition that covers an address (log entry 15). -/
def State.objAt (s : State) (die part va : Nat) : Option Nat :=
  (s.objIds die part).find? (fun o => match s.readObj die part o with
    | some b => b.valid && b.kind == 0 && decide (b.vbase ≤ va) && decide (va < b.vbase + b.len)
    | none => false)

/-- Such an access by address alone. -/
def State.unitTrans (s : State) (v : Via) (va : Nat) : State × PRes (Nat × Bool) :=
  match s.objAt v.die v.part va with
  | none => (s, .fail .refused)
  | some o => s.unitObj v o va

/-- A run of bytes cut at page borders: offsets and lengths. -/
def pageCuts (va n : Nat) : List (Nat × Nat) :=
  (List.range ((va + n - 1) / 4096 + 1 - va / 4096)).map (fun i =>
    let lo := max va ((va / 4096 + i) * 4096)
    (lo - va, min (va + n) ((va / 4096 + i + 1) * 4096) - lo))

/-- The places of a run of bytes, page by page, with their lengths; `at_` gives the place of an offset. -/
def State.places (s : State) (at_ : State → Nat → State × PRes (Nat × Bool)) (cuts : List (Nat × Nat)) :
    State × PRes (List (Nat × Bool × Nat)) :=
  cuts.foldl (fun acc c => andThen acc (fun s l => andThen (at_ s c.1) (fun s p => (s, .ok (l ++ [(p.1, p.2, c.2)]))))) (s, .ok [])

/-- The bytes at places, read at their homes. -/
def State.readPlaces (s : State) (v : Via) (ps : List (Nat × Bool × Nat)) : State × PRes (List Byte) :=
  ps.foldl (fun acc p => andThen acc (fun s b =>
    match s.unitRead v p.1 p.2.2 p.2.1 with
    | (s, none) => (s, .fail .poisoned)
    | (s, some x) => (s, .ok (b ++ x)))) (s, .ok [])

/-- Runs of bytes cut to the lengths of places. -/
def cutTo : List (Nat × Bool × Nat) → List Byte → List (Nat × Bool × List Byte)
  | [], _ => []
  | p :: ps, b => (p.1, p.2.1, b.take p.2.2) :: cutTo ps (b.drop p.2.2)

/-- Bytes written at places, all of them or none; a parked write has then been replayed. -/
def State.writePlaces (s : State) (v : Via) (ps : List (Nat × Bool × Nat)) (b : List Byte) : State × PRes Unit :=
  match s.unitWrites v (cutTo ps b) with
  | (s, true) => (s.unparked (.unit v.who), .ok ())
  | (s, false) => (s.unparked (.unit v.who), .fail .poisoned)

/-- A run of an object's bytes cut where its pages end, which lie by its offsets (R230). -/
def State.objCuts (s : State) (v : Via) (obj va n : Nat) : List (Nat × Nat) :=
  match (s.lookupObj v.die v.part obj).2 with
  | some o => pageCuts (va - o.vbase) n
  | none => pageCuts va n

/-- The same for a run given by its address alone. -/
def State.vaCuts (s : State) (v : Via) (va n : Nat) : List (Nat × Nat) :=
  match s.objAt v.die v.part va with
  | some o => s.objCuts v o va n
  | none => pageCuts va n

/-- Bytes read at their home by a unit without a capability (R350). -/
def State.readVA (s : State) (v : Via) (va n : Nat) : State × PRes (List Byte) :=
  andThen (s.places (fun s o => s.unitTrans v (va + o)) (s.vaCuts v va n)) (fun s ps => s.readPlaces v ps)

/-- Bytes written at their home by a unit without a capability. -/
def State.writeVA (s : State) (v : Via) (va : Nat) (b : List Byte) : State × PRes Unit :=
  andThen (s.places (fun s o => s.unitTrans { v with write := true } (va + o)) (s.vaCuts v va b.length)) (fun s ps => s.writePlaces v ps b)

/-- What a waiting unit leaves: its page requests, its parked write; none where there is nothing new. -/
def State.waited (s t : State) : Option State :=
  if t.pages = s.pages ∧ t.answered = s.answered ∧ t.parkQ = s.parkQ ∧ t.invals = s.invals then none
  else some { s with pages := t.pages, answered := t.answered, parkQ := t.parkQ, invals := t.invals }

/-! ### The reconvergence stack (R21, R22) -/

def EntryKind.code : EntryKind → Nat
  | .join => 0 | .loop => 1 | .call => 2 | .trap => 3

/-- R21: an entry's sixteen bytes. -/
def Entry.bytes (e : Entry) : List Byte :=
  toBytes 16 (e.mask.toNat + e.pkt.toNat * 2 ^ 32 + e.slot.toNat * 2 ^ 84 + e.kind.code * 2 ^ 86 +
    e.tag.toNat * 2 ^ 88 + e.aux.toNat * 2 ^ 96)

/-- R21: the entry sixteen bytes hold. -/
def Entry.ofBytes (b : List Byte) : Entry :=
  let x := Machine.ofBytes b
  { mask := BitVec.ofNat 32 x, pkt := BitVec.ofNat 52 (x / 2 ^ 32), slot := BitVec.ofNat 2 (x / 2 ^ 84),
    kind := (match x / 2 ^ 86 % 4 with
      | 0 => .join
      | 1 => .loop
      | 2 => .call
      | _ => .trap),
    tag := BitVec.ofNat 8 (x / 2 ^ 88), aux := BitVec.ofNat 32 (x / 2 ^ 96) }

/-- The words of an entry as a record carries it. -/
def Entry.words (e : Entry) : List Word :=
  let x := Machine.ofBytes e.bytes
  [wordOfNat x, wordOfNat (x / 2 ^ 32), wordOfNat (x / 2 ^ 64), wordOfNat (x / 2 ^ 96)]

/-- N of R22. -/
def Pane.cap (p : Pane) : Nat := 16 + p.stklim.toNat % 2 ^ 13

/-- STKSAVE (R17). -/
def Pane.stksave (p : Pane) : Nat := bits p.stksaveH 0 24 * 2 ^ 32 + bits p.stksaveL 4 28 * 16

/-- The trap handler's packet address; 0 for none (R17). -/
def Pane.trapvec (p : Pane) : Nat := bits p.trapvecH 0 24 * 2 ^ 32 + bits p.trapvecL 4 28 * 16

/-- The packet and the slot of a pc (R9). -/
def pcPkt (pc : BitVec 56) : BitVec 52 := (pc >>> 4).setWidth 52
def pcSlot (pc : BitVec 56) : BitVec 2 := (pc >>> 2).setWidth 2
def mkPc (pkt : BitVec 52) (slot : BitVec 2) : BitVec 56 := (pkt.setWidth 56 <<< 4) ||| (slot.setWidth 56 <<< 2)

/-- The pc `SetPC` takes effect with at the end of the group (R31, R55). -/
def setNext (pc : BitVec 56) (p : Pane) : Pane := { p with nextPc := some pc }

/-! ### Leaving the slot (R25), the ready queues (R136) -/

/-- The number of no core: a pane whose team has no home core stands there (R141). -/
def noCore : Nat := 1536

/-- A pane joins the tail of its priority's ready queue on its core. -/
def State.enqueue (s : State) (pid : Nat) : State :=
  match s.getPane pid with
  | none => s
  | some p =>
      let s := s.modPane pid (fun p => { p with place := .ready })
      if p.core = noCore then s
      else s.modCore p.core (fun c => { c with queues := setAt c.queues p.prio (c.queues.getD p.prio [] ++ [pid]) })

def State.unqueue (s : State) (core pid : Nat) : State :=
  s.modCore core (fun c => { c with queues := c.queues.map (fun q => q.filter (· != pid)) })

/-- R16, R25: a voluntary departure loses the latches and keeps the rest in the core. -/
def Pane.leave (p : Pane) (place : Place) (cycle : Nat) : Pane :=
  { p with y0 := {}, y1 := {}, y2 := {}, y3 := {}, place := place, inCore := true, since := cycle,
           lastSlot := p.place.slot.getD p.lastSlot }

/-! ### Barriers (R152, R214) -/

/-- What a fixed total stands for: 0 means all panes that have not exited. -/
def barNeed (all : Nat) (t : Option Nat) : Nat :=
  match t with
  | none => 0
  | some 0 => all
  | some n => n

/-- The phase completes where its count has reached its total. -/
def Bar.settle (b : Bar) (all cycle : Nat) : Bar :=
  if 0 < b.count && decide (barNeed all b.total ≤ b.count) then
    { b with phase := b.phase + 1, count := 0, total := none,
             past := b.past.filter (fun e => decide (cycle < e.2 + 16)) ++ [(b.phase, b.last)] } else b

/-- The panes of a team that have not exited. -/
def State.teamLive (s : State) (grid team : Nat) : Nat :=
  (s.allPanes.filter (fun p => p.grid == grid && p.team == team && p.place.live)).length

/-- Panes parked at a team barrier whose phase has completed become ready (R135). -/
def State.wakeBar (s : State) (grid team : Nat) : State :=
  s.allPanes.foldl (fun s p =>
    match p.place, s.team grid team with
    | .parked (.bar b), some t =>
        if p.grid = grid ∧ p.team = team ∧ p.barRec.getD b none ≠ some (t.bars.getD b {}).phase then s.enqueue p.pid else s
    | _, _ => s) s

/-- Every barrier of a team is looked at again: at an arrival and at an EXIT of a team pane (R152). -/
def State.settleTeam (s : State) (grid team : Nat) : State :=
  (s.modTeam grid team (fun t =>
    { t with bars := t.bars.map (fun b => b.settle (s.teamLive grid team) s.cycle) })).wakeBar grid team

/-- The panes of a grid placed on a cluster that have not exited (R213). -/
def State.clusterLive (s : State) (grid cl : Nat) : Nat :=
  (s.allPanes.filter (fun p => p.grid == grid && p.core / 6 == cl && p.place.live)).length

def State.cluster (s : State) (cl : Nat) : Cluster := (s.die (cl / 4)).cls.getD (cl % 4) {}

def State.modCluster (s : State) (cl : Nat) (f : Cluster → Cluster) : State :=
  s.modDie (cl / 4) (fun d => { d with cls := setAt d.cls (cl % 4) (f (d.cls.getD (cl % 4) {})) })

def State.clBars (s : State) (cl part : Nat) : List Bar := Tab.getD (s.cluster cl).sets part (List.replicate 16 {})

/-- Panes parked at a cluster barrier whose phase has completed become ready. -/
def State.wakeCl (s : State) (cl part : Nat) : State :=
  s.allPanes.foldl (fun s p =>
    match p.place with
    | .parked (.clbar b) =>
        if p.part = part ∧ p.clbHome = some cl ∧ p.clbRec.getD b none ≠ some ((s.clBars cl part).getD b {}).phase then
          s.enqueue p.pid else s
    | _ => s) s

/-- Whether a cluster has a partition's barrier set still to load from its block (R216). -/
def State.clLoading (s : State) (cl part : Nat) : Bool :=
  (Tab.find (s.cluster cl).sets part).isNone && (s.part part).clbV && (s.part part).clbSaved.contains cl

/-- A cluster's barriers of one partition looked at again; a failed mesh stop completes none (R217). -/
def State.settleCl (s : State) (cl part : Nat) : State :=
  if (s.cluster cl).failed || s.clLoading cl part then s
  else
    let bs := (s.clBars cl part).map (fun b => b.settle (s.clusterLive b.grid cl) s.cycle)
    (s.modCluster cl (fun c => { c with sets := Tab.set c.sets part bs })).wakeCl cl part

/-! ### Spawn bins (R148) -/

/-- A bin forms its pane: the threads go to the formation path. -/
def State.formBin (s : State) (core b : Nat) : State :=
  let bin := (s.core core).bins.getD b {}
  match bin.key with
  | none => s
  | some (e, g) => s.modCore core (fun c =>
      { c with bins := setAt c.bins b {}, forming := c.forming ++ [⟨e, g, bin.threads⟩] })

/-- Rule 7 of R148: with no pane of a grid left on the core, its bins form their panes. -/
def State.formGrid (s : State) (core grid : Nat) : State :=
  if (s.corePanes core).any (fun p => p.grid == grid) then s
  else (List.range 16).foldl (fun s b =>
    match ((s.core core).bins.getD b {}).key with
    | some (_, g) => if g = grid then s.formBin core b else s
    | none => s) s

/-! ### The end of a pane (R114) -/

/-- R178: replies outstanding at an EXIT are discarded when they come, their failures reported (R177); atomics are performed, stores
and reductions drain. A load that was cancelled has no reply to come. -/
def Req.atExit (pid : Nat) (r : Req) : Option Req :=
  if r.pid = pid ∧ ¬ r.exited then
    (match r.kind with
      | .prefetch => none
      | _ => if r.cancelled then none else some { r with exited := true })
  else some r

/-- A list without an element, where one is given. -/
def dropOpt (l : List Nat) (k : Option Nat) : List Nat :=
  match k with
  | some k => l.filter (· != k)
  | none => l

/-- The pane's own part of its end. -/
def Pane.ending (p : Pane) : Pane :=
  { p with place := .exited, inCore := false, moving := false, swapped := false, restoring := false, exiting := false, stack := [], deep := 0, wait := .none,
           midGroup := false,
           tk := List.replicate 16 .free, mx := {}, watch := none, waitOn := none }

/-- The ray contexts of a callback pane count it no longer. -/
def State.ctxDrop (s : State) (core : Nat) (ctxs : List Nat) : State :=
  s.modCore core (fun c => { c with ctxs := ctxs.foldl (fun t k => Tab.mod t k (fun x => { x with panes := x.panes - 1 })) c.ctxs })

/-- A team none of whose panes is left goes. -/
def State.dropTeam (s : State) (grid team : Nat) : State :=
  if s.teamLive grid team == 0 then { s with teams := Tab.erase s.teams (teamKey grid team) } else s

/-- The grid's save areas the pane held are free. -/
def State.dropAreas (s : State) (p : Pane) : State :=
  s.modGrid p.grid (fun g => { g with psUsed := dropOpt g.psUsed p.saveRec, stUsed := dropOpt g.stUsed p.stkArea })

def State.dropReqs (s : State) (pid : Nat) : State :=
  { s with reqs := s.reqs.filterMap (fun (e : Nat × Req) => (Req.atExit pid e.2).map (fun r => (e.1, r))) }

/-- EXIT: the slot, the register blocks and the tile set are free at once; entries, tokens and queued units go. -/
def State.endPane (s : State) (pid : Nat) : State :=
  match s.getPane pid with
  | none => s
  | some p =>
      ((((((((s.unqueue p.core pid).modPane pid Pane.ending).dropReqs pid).dropAreas p).ctxDrop p.core p.ctxs).settleTeam
        p.grid p.team).settleCl (p.core / 6) p.part).dropTeam p.grid p.team).formGrid p.core p.grid

/-! ### Taking a trap (R22, R126 to R130) and returning from one (R129) -/

/-- The host record of TRAP.HOST: k, the PC, PANEINFO, TEAMID, GRIDID, the entry carried and NOPUSH (R130, R385). -/
def State.hostRecord (s : State) (k : Word) (e : Option Entry) (nopush : Bool) : State :=
  let p := s.pane
  s.record 0x01 p.part (dieOf p.core)
    ([k, wordOfNat p.pc.toNat, wordOfNat (p.pc.toNat / 2 ^ 32), paneInfo p, wordOfNat p.team, wordOfNat p.grid] ++
      (match e with
        | some e => e.words
        | none => [0, 0, 0, 0]) ++ [boolWord nopush])

/-- The pane parks as TRAP.HOST does; `rtt` says that its resumption performs the RTT of R129, `again` that it issues
again from its word. -/
def State.hostPark (s : State) (rtt again : Bool) : State :=
  ended (onPane (fun p =>
    { p.leave (.parked (.host rtt again)) s.cycle with
      nextPc := none, exiting := false, wait := if rtt || again then .none else .begun }) s)

/-- A trap entry for the word at the pc. -/
def Pane.trapEntry (p : Pane) (cause : BitVec 8) (detail : Word) : Entry :=
  { mask := p.xm, pkt := pcPkt p.pc, slot := pcSlot p.pc, kind := .trap, tag := cause, aux := detail }

/-- R177: the error flags of a counter cleared. -/
def Pane.acClear (p : Pane) (k : Fin 16) : Pane :=
  { p with acData := p.acData &&& ~~~((1 : BitVec 16) <<< k.val),
           acEng := p.acEng &&& ~~~((1 : BitVec 16) <<< k.val) }

/-- The status of a batch set to OK (R199). -/
def MxPane.batchOk (m : MxPane) (b : Nat) : MxPane :=
  { m with batches := setAt m.batches b { m.batches.getD b {} with status := .ok } }

/-- What the entry of a trap clears: the flags of the counter that a WAITAC's engine error names (R177; a WAITMEM's has its
wait failed), the status of the batch that a matrix error names (R199). -/
def Pane.trapClears (p : Pane) (cause : BitVec 8) (detail : Word) : Pane :=
  if cause = 0x0C ∧ p.wait = .begun then p.acClear ⟨detail.toNat % 16, Nat.mod_lt _ (by decide)⟩
  else if cause = 0x0B then { p with mx := p.mx.batchOk (detail.toNat % 8) }
  else p

/-- Trap entry once there is room on chip: the push, and the handler at TRAPVEC, slot 0; without a handler the pane
parks as TRAP.HOST does, its record carrying the entry (R128); k of that record is 0 (DESIGN CHOICE, log entry 12). -/
def State.enterTrap (s : State) (cause : BitVec 8) (detail : Word) : State :=
  let p := s.pane
  let e := p.trapEntry cause detail
  let s := onPane (fun p =>
    { p.trapClears cause detail with
      stack := e :: p.stack, deep := p.deep + 1, nextPc := none, exiting := false, wait := .none, pendTrap := none, saveBad := 0,
      midGroup := false }) s
  if p.trapvec = 0 then (s.hostRecord 0 (some e) false).hostPark true false
  else ended (onPane (fun p => { p with pc := BitVec.ofNat 56 p.trapvec }) s)

/-- R22, rule 5: a trap push that cannot be made. The record's k holds the cause in bits 15:8 and the detail in bits 7:0 (DESIGN
CHOICE, log entry 12). -/
def State.noPush (s : State) (cause : BitVec 8) (detail why : Word) : State :=
  let e := s.pane.trapEntry cause detail
  let s := onPane (fun p => { p with pendTrap := none, saveBad := 0, midGroup := false }) s
  ((s.hostRecord (0x0D00 ||| why) (some e) true).hostPark false true)

/-- Taking a trap: the word takes no effect, earlier words of its group have taken effect, a pc they set and an EXIT
among them are dropped (R31). A full stack on chip first spills entry D - 16; entries a refill brought back lie in the save area
still (R22). -/
def takeTrap (cause : BitVec 8) (detail : Word) (s : State) : State :=
  let p := s.pane
  if p.cap ≤ p.deep then s.noPush cause detail 1
  else if 16 ≤ p.stack.length then
    ended (onPane (fun p =>
      { p with
        saveAcc := some (.spill true), pendTrap := some (cause, detail), nextPc := none, exiting := false, saveBad := 0,
        stack := p.stack.take 16 }) s)
  else s.enterTrap cause detail

/-- Causes of R127. -/
def cIllegal : BitVec 8 := 0x01
def cPacket : BitVec 8 := 0x02
def cOperand : BitVec 8 := 0x03
def cTarget : BitVec 8 := 0x04
def cBounds : BitVec 8 := 0x05
def cRights : BitVec 8 := 0x06
def cTag : BitVec 8 := 0x07
def cAlign : BitVec 8 := 0x08
def cBkpt : BitVec 8 := 0x09
def cTrap : BitVec 8 := 0x0A
def cMatrix : BitVec 8 := 0x0B
def cEngine : BitVec 8 := 0x0C
def cSave : BitVec 8 := 0x0D

/-- A push by a word (R22, rules 2 and 4): the entry is pushed, or the word waits for a spill, or it traps. -/
def pushEntry (e : Entry) (s : State) : State × Bool :=
  let p := s.pane
  if p.saveBad ≠ 0 then (takeTrap cSave p.saveBad (onPane (fun p => { p with saveBad := 0 }) s), false)
  else if p.cap - 1 < p.deep + 1 then (takeTrap cSave 1 s, false)
  else if 16 ≤ p.stack.length then
    (ended (onPane (fun p => { p with saveAcc := some (.spill false), stack := p.stack.take 16, midGroup := true }) s), false)
  else (onPane (fun p => { p with stack := e :: p.stack, deep := p.deep + 1 }) s, true)

/-- Whether `n` pops must first read an entry back, and the outcome of that read (R22). -/
def popReady (n : Nat) (s : State) : State × Bool :=
  let p := s.pane
  if p.saveBad ≠ 0 then (takeTrap cSave p.saveBad (onPane (fun p => { p with saveBad := 0 }) s), false)
  else if p.stack.length < min p.deep (16 + n) then (ended (onPane (fun p => { p with saveAcc := some .refill, midGroup := true }) s), false)
  else (s, true)

/-- The stack without its top entry. -/
def Pane.pop (p : Pane) : Pane := { p with stack := p.stack.tail, deep := p.deep - 1 }

/-- The checks of a pop of the top entry (R21, R22): `k` runs where it can be made; SLOT 3 is an illegal target (log
entry 16). -/
def popThen (n : Nat) (e : Entry) (k : State → State) (s : State) : State :=
  match popReady n s with
  | (s, false) => s
  | (s, true) => if e.slot = 3 then takeTrap cTarget (wordOfNat (pcOf e.pkt e.slot)) s else k s

/-- The word after a word, by R27. -/
def nextWord (pkt : BitVec 52) (slot : BitVec 2) : BitVec 56 :=
  if slot = 0 then mkPc pkt 1 else if slot = 1 then mkPc pkt 2 else mkPc (pkt + 1) 0

/-- R129: where an RTT resumes. -/
def rttTarget (e : Entry) : BitVec 56 :=
  if e.tag = cBkpt ∨ e.tag = cTrap then nextWord e.pkt e.slot else mkPc e.pkt e.slot

/-- The return from a trap (R129); `leave` says that the loop entry below is popped too (R110), which SLOT 3 there makes an illegal
target as at any other pop. -/
def returnTrap (e : Entry) (leave : Bool) (s : State) : State :=
  popThen (if leave then 2 else 1) e (fun s =>
    let k := onPane (fun p => setNext (rttTarget e) { (if leave then p.pop.pop else p.pop) with xm := e.mask })
    match leave, s.pane.stack.tail.head? with
    | true, some o => if o.slot = 3 then takeTrap cTarget (wordOfNat (pcOf o.pkt o.slot)) s else k s
    | _, _ => k s) s

/-- R107: the mismatch word of a required kind. -/
def mismatch (k : EntryKind) : Word := wordOfNat (3 + 4 * k.code)

end Sys2Proof.Machine
end

