-- ==== Sys2Proof/Machine/Arith.lean ====
section
/-! DEFINITION. The X-pipe words: integer, FP32, packed-half arithmetic and conversion (R79 to R85, R91 to R98). Each
takes effect within its turn (R76) and traps on no data value (R77). -/

namespace Sys2Proof.Machine

/-- R79: IADD. -/
def execIadd (w : Bool) (m : SatMode) (d : VDst) (a b : VSrc) (s : State) : Out :=
  done (xVV' w d a b (iaddVal m)) s

/-- R79: IADDC. -/
def execIaddc (w : Bool) (d : VDst) (a b : VSrc) (s : State) : Out :=
  done (xVV' w d a b iaddcVal) s

/-- R79: ISUB. -/
def execIsub (w : Bool) (m : SatMode) (d : VDst) (a b : VSrc) (s : State) : Out :=
  done (xVV' w d a b (isubVal m)) s

/-- R80: IMUL. -/
def execImul (w : Bool) (d : VDst) (a b : VSrc) (s : State) : Out :=
  done (xVV' w d a b imulVal) s

/-- R80: IMULH. -/
def execImulh (w : Bool) (u : Bool) (d : VDst) (a b : VSrc) (s : State) : Out :=
  done (xVV' w d a b (imulhVal u)) s

/-- R80: IMAD. -/
def execImad (w : Bool) (c : Addend) (d : VDst) (a b : VSrc) (s : State) : Out :=
  done (xMad w d a b c (fun x y z => (imadVal x y z, 0))) s

/-- R81: IDIV. -/
def execIdiv (w : Bool) (m : DivMode) (d : VDst) (a b : VSrc) (s : State) : Out :=
  done (xVV' w d a b (idivVal m)) s

/-- R82: IMIN. -/
def execImin (w : Bool) (u : Bool) (d : VDst) (a b : VSrc) (s : State) : Out :=
  done (xVV' w d a b (iminVal u)) s

/-- R82: IMAX. -/
def execImax (w : Bool) (u : Bool) (d : VDst) (a b : VSrc) (s : State) : Out :=
  done (xVV' w d a b (imaxVal u)) s

/-- R82: IABS. -/
def execIabs (w : Bool) (d : VDst) (a : VSrc) (s : State) : Out :=
  done (xV w d a (fun x => (iabsVal x, 0))) s

/-- R83: LEA. -/
def execLea (w : Bool) (sh : Fin 4) (d : VDst) (a b : VSrc) (s : State) : Out :=
  done (xVV' w d a b (leaVal sh.val)) s

/-- R85: ISET. -/
def execIset (pd : PReg) (cond : ICond) (m : Comb) (a b : VSrc) (s : State) : Out :=
  done (fun p =>
    cmpLanes pd m (a.stale p || b.stale p) (fun L => (icondHolds cond (a.val p L) (b.val p L), 0)) p) s

/-- R84: SEL by p0 to p3. -/
def execSel (w : Bool) (q : Fin 4) (d : VDst) (a b : VSrc) (s : State) : Out :=
  done (fun p =>
    resultX w d (a.stale p || b.stale p) (fun L => (if bit (p.preg q.val) L then a.val p L else b.val p L, 0)) p) s

/-- R84: MOV. -/
def execMov (w : Bool) (d : VDst) (a : VSrc) (s : State) : Out :=
  done (xV w d a (fun x => (x, 0))) s

/-- R84: MOVS. -/
def execMovs (w : Bool) (d : VDst) (a : SSrc) (s : State) : Out :=
  done (fun p => resultX w d false (fun _ => (a.val p, 0)) p) s

/-- R84: MOV of an immediate. -/
def execMovImm (w : Bool) (d : VDst) (imm : BitVec 16) (s : State) : Out :=
  done (resultX w d false (fun _ => (immWord imm, 0))) s

/-- R79: IADD of an immediate. -/
def execIaddImm (w : Bool) (d : VDst) (imm : BitVec 16) (s : State) : Out :=
  done (fun p => resultX w d false (fun L => (wordOfNat (uns (d.val p L) + uns (immWord imm)), 0)) p) s

/-- R91: FADD. -/
def execFadd (w : Bool) (rm : Rm) (d : VDst) (a b : VSrc) (s : State) : Out :=
  done (fun p => xVV w d a b (faddVal p.ftz rm) p) s

/-- R91: FSUB. -/
def execFsub (w : Bool) (rm : Rm) (d : VDst) (a b : VSrc) (s : State) : Out :=
  done (fun p => xVV w d a b (fsubVal p.ftz rm) p) s

/-- R91: FMUL. -/
def execFmul (w : Bool) (rm : Rm) (d : VDst) (a b : VSrc) (s : State) : Out :=
  done (fun p => xVV w d a b (fmulVal p.ftz rm) p) s

/-- R92: FFMA, rounding to nearest. -/
def execFfma (w : Bool) (c : Addend) (d : VDst) (a b : VSrc) (s : State) : Out :=
  done (fun p => xMad w d a b c (ffmaVal p.ftz .rn) p) s

/-- R92: FFMA with a rounding mode, its addend the destination. -/
def execFfmaRm (w : Bool) (rm : Rm) (d : VDst) (a b : VSrc) (s : State) : Out :=
  done (fun p => xMad w d a b .dest (ffmaVal p.ftz rm) p) s

/-- R93: FMIN. -/
def execFmin (w : Bool) (d : VDst) (a b : VSrc) (s : State) : Out :=
  done (fun p => xVV w d a b (fminmaxVal p.ftz false) p) s

/-- R93: FMAX. -/
def execFmax (w : Bool) (d : VDst) (a b : VSrc) (s : State) : Out :=
  done (fun p => xVV w d a b (fminmaxVal p.ftz true) p) s

/-- R94: FSET. -/
def execFset (pd : PReg) (cond : FCond) (m : Comb) (a b : VSrc) (s : State) : Out :=
  done (fun p =>
    cmpLanes pd m (a.stale p || b.stale p) (fun L => fcondHolds p.ftz cond (a.val p L) (b.val p L)) p) s

/-- R95: FCLASS. -/
def execFclass (w : Bool) (d : VDst) (a : VSrc) (s : State) : Out :=
  done (fun p => xV w d a (fun x => (fclassVal p.ftz x, 0)) p) s

/-- R96: FRND. -/
def execFrnd (w : Bool) (rm : Rm) (d : VDst) (a : VSrc) (s : State) : Out :=
  done (fun p => xV w d a (frndVal p.ftz rm) p) s

/-- R97: HADD2. -/
def execHadd2 (w : Bool) (f : HFmt) (d : VDst) (a b : VSrc) (s : State) : Out :=
  done (xVV w d a b (onHalves2 (haddEl (hfmt f)))) s

/-- R97: HMUL2. -/
def execHmul2 (w : Bool) (f : HFmt) (d : VDst) (a b : VSrc) (s : State) : Out :=
  done (xVV w d a b (onHalves2 (hmulEl (hfmt f)))) s

/-- R97: HFMA2, its addend the destination. -/
def execHfma2 (w : Bool) (f : HFmt) (d : VDst) (a b : VSrc) (s : State) : Out :=
  done (xMad w d a b .dest (onHalves3 (hfmaEl (hfmt f)))) s

/-- R97: HMIN2. -/
def execHmin2 (w : Bool) (f : HFmt) (d : VDst) (a b : VSrc) (s : State) : Out :=
  done (xVV w d a b (onHalves2 (hminmaxEl (hfmt f) false))) s

/-- R97: HMAX2. -/
def execHmax2 (w : Bool) (f : HFmt) (d : VDst) (a b : VSrc) (s : State) : Out :=
  done (xVV w d a b (onHalves2 (hminmaxEl (hfmt f) true))) s

/-- R98: CVT. -/
def execCvt (w : Bool) (df sf : CFmt) (rm : Rm) (d : VDst) (a : VSrc) (s : State) : Out :=
  done (fun p => xV w d a (cvtVal p.ftz df sf rm) p) s

end Sys2Proof.Machine
end

