-- ==== Sys2Proof/WellFormed.lean ====
section
/-! DEFINITION. Which terms of `Instr` stand for an encoding: the conditions that the operand types leave open. One
literal per word (the packet has one sill, R28); no literal where the sill holds a modifier (R163, R221, R273); runs of
registers inside v0 to v119 (R35); the modifiers R164 admits; the conversion pairs of R47. -/

namespace Sys2Proof

/-- The literal a vector source holds. -/
def VSrc.lits : VSrc → List Word
  | .lit x => [x]
  | _ => []

/-- The literal a uniform source holds. -/
def SSrc.lits : SSrc → List Word
  | .lit x => [x]
  | _ => []

/-- The literal an addend holds. -/
def Addend.lits : Addend → List Word
  | .lit x => [x]
  | _ => []

/-- The literal a WAITAC threshold holds. -/
def Thr.lits : Thr → List Word
  | .lit x => [x]
  | _ => []

/-- Every literal of a word is the one sill of its packet. -/
def sameLits : List Word → Bool
  | [] => true
  | x :: xs => xs.all (· == x)

/-- A run of `n` registers from a data operand: one register, or a latch, a zero, a literal or the lane index, when `n`
is 1; registers inside v0 to v119 when it is more (R35). For a run of several, the code 124 and a latch are no operands (DESIGN
CHOICE, log entry 107: R35 and R165 do not say what such a run is). -/
def VSrc.runOk (n : Nat) : VSrc → Bool
  | .reg r => r.val + n ≤ 120
  | _ => n ≤ 1

/-- As `VSrc.runOk`, for a destination. -/
def VDst.runOk (n : Nat) : VDst → Bool
  | .reg r => r.val + n ≤ 120
  | .discard => n ≤ 1

/-- The fields that R109 refuses: KIND 0b00 with a register, KIND 0b01 with register 63. -/
def LoopInc.fits : LoopInc → Bool
  | .bad f => (decide (0 < f.val) && decide (f.val < 64)) || f.val == 127
  | _ => true

/-- The registers one access of a size moves (R165). -/
def MSize.regs : MSize → Nat
  | .d => 2
  | .q => 4
  | _ => 1

/-- The bytes of a size (R163). -/
def MSize.bytes : MSize → Nat
  | .w => 4
  | .b => 1
  | .h => 2
  | .d => 8
  | .q => 16

/-- The modifier word a memory word runs under: 0 when E = 0 (R163). -/
def modOf : Option MMod → MMod
  | some m => m
  | none => {}

/-- The registers an atomic names from vD: twice as many for .CAS (R168). -/
def atomRegs (m : MMod) : Nat :=
  m.size.regs * (if m.opc = .cas then 2 else 1)

/-- The kinds of memory word that R164 tells apart. -/
inductive MemKind where
  | ldSpDs | stSpDs | atSpDs | ldDm | stDm | atDm | redDm | pfDm | stPm | redPm | ldHm | stHm | cld | cst
  deriving DecidableEq, Repr

/-- R164: the modifier values a word admits. -/
def MMod.admitted (k : MemKind) (m : MMod) : Bool :=
  (m.ord != .none || m.scope == .pane) &&
  match k with
  | .ldSpDs => m.opc == .add && !m.st && !m.p && (m.ord == .none || m.ord == .acq) &&
      (!m.sx || m.size == .b || m.size == .h)
  | .stSpDs => m.opc == .add && !m.st && !m.p && !m.sx && (m.ord == .none || m.ord == .rel)
  | .atSpDs => !m.st && !m.p && !m.sx &&
      (m.size == .w || (m.size == .d && (m.opc == .add || m.opc == .xchg || m.opc == .cas)))
  | .ldDm => m.opc == .add && (m.ord == .none || m.ord == .acq) && (!m.sx || m.size == .b || m.size == .h)
  | .stDm => m.opc == .add && !m.sx && (m.ord == .none || m.ord == .rel)
  | .atDm => !m.st && !m.sx &&
      (m.size == .w || (m.size == .d && (m.opc == .add || m.opc == .xchg || m.opc == .cas)))
  | .redDm => !m.st && !m.sx && m.size == .w && (m.ord == .none || m.ord == .rel) &&
      m.opc != .xchg && m.opc != .cas
  | .pfDm => m.opc == .add && !m.sx && m.size == .w && m.ord == .none
  | .stPm => m.opc == .add && !m.st && !m.sx && (m.ord == .none || m.ord == .rel)
  | .redPm => !m.st && !m.sx && m.size == .w && (m.ord == .none || m.ord == .rel) && m.opc != .xchg && m.opc != .cas
  | .ldHm => m.opc == .add && !m.st && (m.ord == .none || m.ord == .acq) && (!m.sx || m.size == .b || m.size == .h)
  | .stHm => m.opc == .add && !m.st && !m.sx && (m.ord == .none || m.ord == .rel)
  | .cld => m.opc == .add && !m.st && !m.sx && !m.p && m.size == .w && m.scale == 0 &&
      (m.ord == .none || m.ord == .acq)
  | .cst => m.opc == .add && !m.st && !m.sx && !m.p && m.size == .w && m.scale == 0 &&
      (m.ord == .none || m.ord == .rel)

/-- The address operand of a memory word: a register pair when P = 1 (R163). -/
def addrOk (m : MMod) (a : VSrc) : Bool :=
  a.runOk (if m.p then 2 else 1)

/-- With E = 1 the sill is the modifier word, and no operand is a literal. -/
def noLitIf (m : Option MMod) (l : List Word) : Bool :=
  m.isNone || l.isEmpty

/-- The conditions of a load. -/
def loadOk (k : MemKind) (d : Fin 120) (a : VSrc) (m : Option MMod) : Bool :=
  (modOf m).admitted k && d.val + (modOf m).size.regs ≤ 120 && addrOk (modOf m) a && noLitIf m a.lits

/-- The conditions of a store or a reduction. -/
def storeOk (k : MemKind) (d a : VSrc) (m : Option MMod) : Bool :=
  (modOf m).admitted k && d.runOk (modOf m).size.regs && addrOk (modOf m) a && noLitIf m (d.lits ++ a.lits) &&
    sameLits (d.lits ++ a.lits)

/-- The conditions of an atomic. -/
def atomOk (k : MemKind) (d : VDst) (a : VSrc) (m : Option MMod) : Bool :=
  (modOf m).admitted k && d.runOk (atomRegs (modOf m)) && addrOk (modOf m) a && noLitIf m a.lits

/-- Integer formats of CVT. -/
def CFmt.isInt : CFmt → Bool
  | .i32 | .u32 | .i16 | .u16 | .i8 | .u8 => true
  | _ => false

/-- R47: the conversion pairs, destination first; the source formats end at U32. -/
def cvtPair (df sf : CFmt) : Bool :=
  match df, sf with
  | .f32, .f32 => false
  | .f32, .f16 | .f32, .bf16 | .f32, .f8e4 | .f32, .f8e5 | .f32, .e8m0 | .f32, .i32 | .f32, .u32 => true
  | _, .f32 => true
  | .f16, .bf16 | .bf16, .f16 => true
  | .f8e4, .f16 | .f8e5, .f16 | .f8e4, .bf16 | .f8e5, .bf16 => true
  | .u32, .i32 | .i16, .i32 | .u16, .i32 | .i8, .i32 | .u8, .i32 => true
  | .i32, .u32 | .i16, .u32 | .u16, .u32 | .i8, .u32 | .u8, .u32 => true
  | _, _ => false

/-- The registers of HGRID's result (R172). -/
def HgMod.regs (m : HgMod) : Nat :=
  (m.nlev.val + 1) * (if m.f4 then 2 else 1)

/-- The operation of a reduction, or a fold (R168: .XCHG and .CAS are atomics only). -/
def AOp.reduces : AOp → Bool
  | .xchg | .cas => false
  | _ => true

/-- A well-formed instruction: one that an encoding stands for. Events are named by no encoding, and every event term
is well formed. -/
def Instr.wf : Instr → Bool
  | .iadd _ _ _ a b | .iaddc _ _ a b | .isub _ _ _ a b | .imul _ _ a b | .imulh _ _ _ a b | .idiv _ _ _ a b
  | .imin _ _ _ a b | .imax _ _ _ a b | .lea _ _ _ a b | .iset _ _ _ a b | .sel _ _ _ a b | .fadd _ _ _ a b
  | .fsub _ _ _ a b | .fmul _ _ _ a b | .fmin _ _ a b | .fmax _ _ a b | .fset _ _ _ a b | .hadd2 _ _ _ a b
  | .hmul2 _ _ _ a b | .hfma2 _ _ _ a b | .hmin2 _ _ _ a b | .hmax2 _ _ _ a b | .ffmaRm _ _ _ a b | .and _ _ a b
  | .or _ _ a b | .xor _ _ a b | .andn _ _ a b | .shl _ _ a b | .shr _ _ a b | .sar _ _ a b | .rotl _ _ a b
  | .bfx _ _ _ a b | .bfi _ _ a b | .shfl _ _ _ a b | .reorder _ _ a b => sameLits (a.lits ++ b.lits)
  | .imad _ c _ a b | .ffma _ c _ a b => sameLits (c.lits ++ a.lits ++ b.lits)
  | .cvt _ df sf rm _ _ => cvtPair df sf && (!(df.isInt && sf.isInt) || rm == .rn)
  | .sadd _ a b | .ssub _ a b | .smul _ a b | .sshl _ _ a b | .sand _ a b | .sor _ a b | .slea _ _ a b
  | .sset _ _ _ a b => sameLits (a.lits ++ b.lits)
  | .ldsp d a _ _ m | .ldds d a _ _ m => loadOk .ldSpDs d a m
  | .lddm d a _ _ m => loadOk .ldDm d a m
  | .ldhm d a _ _ m => loadOk .ldHm d a m
  | .stsp d a _ _ m | .stds d a _ _ m => storeOk .stSpDs d a m
  | .stdm d a _ _ m => storeOk .stDm d a m
  | .sthm d a _ _ m => storeOk .stHm d a m
  | .stpm d a _ m => storeOk .stPm d a m
  | .reddm d a _ m => storeOk .redDm d a m
  | .redpm d a _ m => storeOk .redPm d a m
  | .atsp d a _ _ m | .atds d a _ _ m => atomOk .atSpDs d a m
  | .atdm d a _ _ m => atomOk .atDm d a m
  | .pfdm a _ m => (modOf m).admitted .pfDm && addrOk (modOf m) a && noLitIf m a.lits
  | .tex d a _ _ m => d.val + ((m.getD {}).nres.val + 1) ≤ 120 && a.val + 2 ≤ 120
  | .hgrid d a _ _ m => d.val + (m.getD {}).regs ≤ 120 && a.val + 3 ≤ 120
  | .cld _ a _ _ m => (modOf m).admitted .cld && noLitIf m a.lits
  | .cst _ a _ _ m => (modOf m).admitted .cst && noLitIf m a.lits
  | .waitmem _ a _ t => t.isNone || a.lits.isEmpty
  | .spawn d _ n => d.runOk n.val
  | .scat _ _ _ _ esz _ red =>
      match red with
      | none => true
      | some op => op.reduces && esz.val == 2
  | .skupd _ a b | .atmass _ a b => a.lits.isEmpty && b.lits.isEmpty
  | .skqry _ a _ _ => a.lits.isEmpty
  | .loop _ _ i0 i1 i2 i3 => [i0, i1, i2, i3].all LoopInc.fits
  | _ => true

end Sys2Proof
end

