-- ==== Sys2Proof/Decode.lean ====
section
/-! DEFINITION. Decoding an instruction word with its packet's sill, in the order of R36 (steps 2 and 3), the packet
checks of R32, and the encoder. A word is a number below 2^32; bit 31, the chain bit, belongs to the packet and is not
looked at here. -/

namespace Sys2Proof

/-- Why a word is no instruction (R36, R48). -/
inductive Reject where
  | illegalInstruction
  | illegalOperand
  deriving DecidableEq, Repr

/-- Bits [lo + n - 1 : lo] of a word. -/
def fld (w lo n : Nat) : Nat := w / 2 ^ lo % 2 ^ n

def fOp (w : Nat) : Nat := fld w 23 7
def fW (w : Nat) : Bool := fld w 30 1 == 1
def fD (w : Nat) : Nat := fld w 16 7
def fA (w : Nat) : Nat := fld w 9 7
def fB (w : Nat) : Nat := fld w 2 7
def fM (w : Nat) : Nat := fld w 0 2

/-- R36, step 2: a reserved value, or an unassigned opcode. -/
def needI (c : Bool) : Except Reject Unit := if c then .ok () else .error .illegalInstruction

/-- R36, step 3: an operand code its class does not allow. -/
def needO (c : Bool) : Except Reject Unit := if c then .ok () else .error .illegalOperand

/-! ### Operand fields (R34, R35) -/

/-- Class V as a source; `lit` is the sill where a literal may stand. -/
def decVSrc (lit : Option Word) (n : Nat) : Except Reject VSrc :=
  if h : n < 120 then .ok (.reg ⟨n, h⟩)
  else if n = 120 then .ok (.latch 0)
  else if n = 121 then .ok (.latch 1)
  else if n = 122 then .ok (.latch 2)
  else if n = 123 then .ok (.latch 3)
  else if n = 124 then .ok .zero
  else if n = 126 then .ok .lane
  else if n = 125 then
    match lit with
    | some x => .ok (.lit x)
    | none => .error .illegalOperand
  else .error .illegalOperand

def decVDst (n : Nat) : Except Reject VDst :=
  if h : n < 120 then .ok (.reg ⟨n, h⟩) else if n = 124 then .ok .discard else .error .illegalOperand

def decSSrc (lit : Option Word) (n : Nat) : Except Reject SSrc :=
  if h : n < 64 then .ok (.reg ⟨n, h⟩)
  else if n = 124 then .ok .zero
  else if n = 125 then
    match lit with
    | some x => .ok (.lit x)
    | none => .error .illegalOperand
  else .error .illegalOperand

def decSDst (n : Nat) : Except Reject SDst :=
  if h : n < 64 then .ok (.reg ⟨n, h⟩) else if n = 124 then .ok .discard else .error .illegalOperand

def decSOpt (n : Nat) : Except Reject SOpt :=
  if h : n < 64 then .ok (.reg ⟨n, h⟩) else if n = 124 then .ok .zero else .error .illegalOperand

/-- A number below a bound: a class P or C field, or the first register of a run (R35). -/
def decFin (b n : Nat) : Except Reject (Fin b) :=
  if h : n < b then .ok ⟨n, h⟩ else .error .illegalOperand

/-- A status run: its first register, or 124 to discard it (R221, R273). -/
def decStatus (b n : Nat) : Except Reject (Option (Fin b)) :=
  if n = 124 then .ok none else if h : n < b then .ok (some ⟨n, h⟩) else .error .illegalOperand

/-! ### Modifier fields; a value that is not listed is reserved (R43, R47, R48) -/

def decSat : Nat → Except Reject SatMode
  | 0 => .ok .wrap | 1 => .ok .sat | 2 => .ok .usat | _ => .error .illegalInstruction

def decU : Nat → Except Reject Bool
  | 0 => .ok false | 1 => .ok true | _ => .error .illegalInstruction

def decRm : Nat → Rm
  | 0 => .rn | 1 => .rz | 2 => .ru | _ => .rd

def decDiv : Nat → DivMode
  | 0 => .quo | 1 => .quoU | 2 => .rem | _ => .remU

def decICond : Nat → Except Reject ICond
  | 0 => .ok .eq | 1 => .ok .ne | 2 => .ok .lt | 3 => .ok .le | 4 => .ok .gt | 5 => .ok .ge | 6 => .ok .ltu
  | 7 => .ok .leu | 8 => .ok .gtu | 9 => .ok .geu | _ => .error .illegalInstruction

def decFCond : Nat → Except Reject FCond
  | 0 => .ok .eq | 1 => .ok .ne | 2 => .ok .lt | 3 => .ok .le | 4 => .ok .gt | 5 => .ok .ge | 6 => .ok .un
  | 7 => .ok .ord | _ => .error .illegalInstruction

def decComb : Nat → Except Reject Comb
  | 0 => .ok .set | 1 => .ok .and | 2 => .ok .or | _ => .error .illegalInstruction

def decHFmt : Nat → Except Reject HFmt
  | 0 => .ok .f16 | 1 => .ok .bf16 | _ => .error .illegalInstruction

def decCFmt : Nat → Except Reject CFmt
  | 0 => .ok .f32 | 1 => .ok .f16 | 2 => .ok .bf16 | 3 => .ok .f8e4 | 4 => .ok .f8e5 | 5 => .ok .e8m0 | 6 => .ok .i32
  | 7 => .ok .u32 | 8 => .ok .i16 | 9 => .ok .u16 | 10 => .ok .i8 | 11 => .ok .u8 | _ => .error .illegalInstruction

def decSh : Nat → Except Reject ShMode
  | 0 => .ok .left | 1 => .ok .lsr | 2 => .ok .asr | _ => .error .illegalInstruction

def decShfl : Nat → ShflMode
  | 0 => .idx | 1 => .up | 2 => .dn | _ => .xor

def decVote : Nat → VoteMode
  | 0 => .all | 1 => .any | 2 => .bal | _ => .eq

def decLaneOp : Nat → Except Reject LaneOp
  | 0 => .ok .add | 1 => .ok .min | 2 => .ok .max | 3 => .ok .umin | 4 => .ok .umax | 5 => .ok .and | 6 => .ok .or
  | 7 => .ok .xor | 8 => .ok .fadd | 9 => .ok .fmin | 10 => .ok .fmax | _ => .error .illegalInstruction

def decSfn : Nat → Except Reject SfnOp
  | 0 => .ok .exp2 | 1 => .ok .log2 | 2 => .ok .rcp | 3 => .ok .rsq | 4 => .ok .sqrt | 5 => .ok .sin | 6 => .ok .cos
  | 7 => .ok .tanh | 8 => .ok .sig | 9 => .ok .gelu | _ => .error .illegalInstruction

def decFOrd : Nat → Except Reject FOrd
  | 1 => .ok .rel | 2 => .ok .acq | 3 => .ok .ar | _ => .error .illegalInstruction

def decOrd : Nat → Ord
  | 0 => .none | 1 => .rel | 2 => .acq | _ => .ar

def decScope : Nat → Except Reject Scope
  | 0 => .ok .pane | 1 => .ok .team | 2 => .ok .core | 3 => .ok .clu | 4 => .ok .die | 5 => .ok .pkg | 6 => .ok .sys
  | _ => .error .illegalInstruction

def decSize : Nat → Except Reject MSize
  | 0 => .ok .w | 1 => .ok .b | 2 => .ok .h | 3 => .ok .d | 4 => .ok .q | _ => .error .illegalInstruction

def decAOp : Nat → Except Reject AOp
  | 0 => .ok .add | 1 => .ok .min | 2 => .ok .max | 3 => .ok .umin | 4 => .ok .umax | 5 => .ok .and | 6 => .ok .or
  | 7 => .ok .xor | 8 => .ok .fadd | 9 => .ok .fmin | 10 => .ok .fmax | 11 => .ok .hadd2 | 12 => .ok .bhadd2
  | 13 => .ok .xchg | 14 => .ok .cas | _ => .error .illegalInstruction

def decChFmt : Nat → Except Reject ChFmt
  | 0 => .ok .f32 | 1 => .ok .f16 | 2 => .ok .bf16 | _ => .error .illegalInstruction

/-- Bits [8:7] of MXQ: HAD and HN (R194); HN = 1 without HAD is reserved. -/
def decHad : Nat → Except Reject HadMode
  | 0 => .ok .plain | 2 => .ok .had16 | 3 => .ok .had32 | _ => .error .illegalInstruction

def decCull : Nat → Except Reject Cull
  | 0 => .ok .none | 1 => .ok .back | 2 => .ok .front | _ => .error .illegalInstruction

/-- OP and FMT of COLL (R369): bits [2:0] and [4:3] of MOD. -/
def decColl : Nat → Except Reject CollOp
  | 0 => .ok .sumF32 | 8 => .ok .sumI32 | 1 => .ok .maxF32 | 9 => .ok .maxI32 | 2 => .ok .skadd | 3 => .ok .bcast
  | 4 => .ok .gath | _ => .error .illegalInstruction

/-- The CSR numbers of R17; every other number is unassigned, an illegal operand. -/
def decCsr : Nat → Except Reject Csr
  | 0 => .ok .xstat | 1 => .ok .xctl | 2 => .ok .trapvecL | 3 => .ok .trapvecH | 4 => .ok .stksaveL | 5 => .ok .stksaveH
  | 6 => .ok .stklim | 7 => .ok .stkdep | 8 => .ok .bconf | 9 => .ok .paneinfo | 10 => .ok .teamid | 11 => .ok .gridid
  | 12 => .ok .spds | _ => .error .illegalOperand

/-- One increment field of LOOP (R109): bits [7:6] the kind, [5:0] the register. -/
def decLoopInc (f : Nat) : LoopInc :=
  let r := f % 64
  match f / 64 % 4 with
  | 0 => if r = 0 then .none else .bad ⟨r, Nat.lt_trans (Nat.mod_lt _ (by decide)) (by decide)⟩
  | 1 => if h : r < 63 then .addNext ⟨r, h⟩ else .bad 127
  | 2 => .inc ⟨f % 64, Nat.mod_lt _ (by decide)⟩
  | _ => .dec ⟨f % 64, Nat.mod_lt _ (by decide)⟩

/-- The modifier word of R163, from the sill. -/
def decMMod (s : Nat) : Except Reject MMod := do
  needI (fld s 24 8 == 0 && fld s 0 6 == 0)
  let opc ← decAOp (fld s 20 4)
  let scope ← decScope (fld s 17 3)
  let size ← decSize (fld s 6 3)
  let sc := fld s 9 3
  if h : sc < 5 then
    .ok { opc := opc, scope := scope, ord := decOrd (fld s 15 2), st := fld s 14 1 == 1, sx := fld s 13 1 == 1,
          p := fld s 12 1 == 1, scale := ⟨sc, h⟩, size := size }
  else .error .illegalInstruction

/-- The modifier of a memory word of a kind: none with E = 0; R164 decides what is reserved. -/
def decMod (k : MemKind) (e : Bool) (sill : Word) : Except Reject (Option MMod) :=
  if e then do
    let m ← decMMod sill.toNat
    needI (m.admitted k)
    .ok (some m)
  else .ok none

def decTexMod (s : Nat) : Except Reject TexMod := do
  needI (fld s 6 26 == 0 && fld s 2 2 == 0)
  .ok { clamp := fld s 5 1 == 1, lin := fld s 4 1 == 1, nres := ⟨fld s 0 2, Nat.mod_lt _ (by decide)⟩ }

def decHgMod (s : Nat) : Except Reject HgMod := do
  needI (fld s 10 22 == 0 && fld s 0 5 == 0)
  .ok { nlev := ⟨fld s 6 4, Nat.mod_lt _ (by decide)⟩, f4 := fld s 5 1 == 1 }

/-- The literal of a memory word: with E = 1 the sill is its modifier (R163). -/
def memLit (e : Bool) (sill : Word) : Option Word := if e then none else some sill

def finMod (b n : Nat) (h : 0 < b) : Fin b := ⟨n % b, Nat.mod_lt _ h⟩

def fSel (w : Nat) : PReg := finMod 8 (fld w 20 3) (by decide)
def fOff (w : Nat) : BitVec 20 := BitVec.ofNat 20 (fld w 0 20)
def fImm (w : Nat) : BitVec 16 := BitVec.ofNat 16 (fld w 0 16)
def fBase (w : Nat) : Fin 32 := finMod 32 (fld w 4 5) (by decide)
def fAc (w : Nat) : Fin 16 := finMod 16 (fld w 0 4) (by decide)

/-- The addend of IMAD and FFMA (R80, R92): M = 3 takes the sill. -/
def decAddend (sill : Word) : Nat → Addend
  | 0 => .dest | 1 => .y0 | 2 => .y1 | _ => .lit sill

/-! ### One decoder a layout -/

/-- Three V operands, the modifier already read. -/
def decVVV (sill : Word) (w : Nat) (k : VDst → VSrc → VSrc → Instr) : Except Reject Instr := do
  let d ← decVDst (fD w)
  let a ← decVSrc (some sill) (fA w)
  let b ← decVSrc (some sill) (fB w)
  .ok (k d a b)

/-- A V destination and one V source; B is class 0. -/
def decVV0 (sill : Word) (w : Nat) (k : VDst → VSrc → Instr) : Except Reject Instr := do
  needI (fB w == 0)
  let d ← decVDst (fD w)
  let a ← decVSrc (some sill) (fA w)
  .ok (k d a)

/-- Three S operands; W is reserved. -/
def decSSS (sill : Word) (w : Nat) (k : SDst → SSrc → SSrc → Instr) : Except Reject Instr := do
  needI (!fW w)
  let d ← decSDst (fD w)
  let a ← decSSrc (some sill) (fA w)
  let b ← decSSrc (some sill) (fB w)
  .ok (k d a b)

/-- A row without an M entry requires M = 0 (R44). -/
def m0 (w : Nat) : Except Reject Unit := needI (fM w == 0)

/-- Opcodes 0x00 to 0x20: the X pipe (R44). -/
def decX (sill : Word) (w : Nat) : Except Reject Instr :=
  let wb := fW w
  match fOp w with
  | 0x00 => do let m ← decSat (fM w); decVVV sill w (.iadd wb m)
  | 0x01 => do m0 w; decVVV sill w (.iaddc wb)
  | 0x02 => do let m ← decSat (fM w); decVVV sill w (.isub wb m)
  | 0x03 => do m0 w; decVVV sill w (.imul wb)
  | 0x04 => do let u ← decU (fM w); decVVV sill w (.imulh wb u)
  | 0x05 => decVVV sill w (.imad wb (decAddend sill (fM w)))
  | 0x06 => decVVV sill w (.idiv wb (decDiv (fM w)))
  | 0x07 => do let u ← decU (fM w); decVVV sill w (.imin wb u)
  | 0x08 => do let u ← decU (fM w); decVVV sill w (.imax wb u)
  | 0x09 => do m0 w; decVV0 sill w (.iabs wb)
  | 0x0A => decVVV sill w (.lea wb (finMod 4 (fM w) (by decide)))
  | 0x0B => do
      needI (!wb)
      let m ← decComb (fM w)
      let c ← decICond (fld w 16 4)
      let a ← decVSrc (some sill) (fA w)
      let b ← decVSrc (some sill) (fB w)
      .ok (.iset (fSel w) c m a b)
  | 0x0C => decVVV sill w (.sel wb (finMod 4 (fM w) (by decide)))
  | 0x0D => do m0 w; decVV0 sill w (.mov wb)
  | 0x0E => do
      m0 w
      needI (fB w == 0)
      let d ← decVDst (fD w)
      let a ← decSSrc (some sill) (fA w)
      .ok (.movs wb d a)
  | 0x0F => do let d ← decVDst (fD w); .ok (.movImm wb d (fImm w))
  | 0x10 => decVVV sill w (.fadd wb (decRm (fM w)))
  | 0x11 => decVVV sill w (.fsub wb (decRm (fM w)))
  | 0x12 => decVVV sill w (.fmul wb (decRm (fM w)))
  | 0x13 => decVVV sill w (.ffma wb (decAddend sill (fM w)))
  | 0x14 => do m0 w; decVVV sill w (.fmin wb)
  | 0x15 => do m0 w; decVVV sill w (.fmax wb)
  | 0x16 => do
      needI (!wb)
      let m ← decComb (fM w)
      let c ← decFCond (fld w 16 4)
      let a ← decVSrc (some sill) (fA w)
      let b ← decVSrc (some sill) (fB w)
      .ok (.fset (fSel w) c m a b)
  | 0x17 => do m0 w; decVV0 sill w (.fclass wb)
  | 0x18 => decVV0 sill w (.frnd wb (decRm (fM w)))
  | 0x19 => do let f ← decHFmt (fM w); decVVV sill w (.hadd2 wb f)
  | 0x1A => do let f ← decHFmt (fM w); decVVV sill w (.hmul2 wb f)
  | 0x1B => do let f ← decHFmt (fM w); decVVV sill w (.hfma2 wb f)
  | 0x1C => do let f ← decHFmt (fM w); decVVV sill w (.hmin2 wb f)
  | 0x1D => do let f ← decHFmt (fM w); decVVV sill w (.hmax2 wb f)
  | 0x1E => do
      let df ← decCFmt (fld w 5 4)
      let sf ← decCFmt (fld w 2 3)
      needI (cvtPair df sf)
      needI (!(df.isInt && sf.isInt) || fM w == 0)
      let d ← decVDst (fD w)
      let a ← decVSrc (some sill) (fA w)
      .ok (.cvt wb df sf (decRm (fM w)) d a)
  | 0x1F => decVVV sill w (.ffmaRm wb (decRm (fM w)))
  | 0x20 => do let d ← decVDst (fD w); .ok (.iaddImm wb d (fImm w))
  | _ => .error .illegalInstruction

/-- Opcodes 0x28 to 0x3D: logic and uniform words of the Y pipe (R44). -/
def decY (sill : Word) (w : Nat) : Except Reject Instr :=
  let wb := fW w
  match fOp w with
  | 0x28 => do m0 w; decVVV sill w (.and wb)
  | 0x29 => do m0 w; decVVV sill w (.or wb)
  | 0x2A => do m0 w; decVVV sill w (.xor wb)
  | 0x2B => do m0 w; decVVV sill w (.andn wb)
  | 0x2C => do m0 w; decVVV sill w (.shl wb)
  | 0x2D => do m0 w; decVVV sill w (.shr wb)
  | 0x2E => do m0 w; decVVV sill w (.sar wb)
  | 0x2F => do m0 w; decVVV sill w (.rotl wb)
  | 0x30 => do let s ← decU (fM w); decVVV sill w (.bfx wb s)
  | 0x31 => do m0 w; decVVV sill w (.bfi wb)
  | 0x32 => do
      m0 w
      needI (fB w < 3)
      let d ← decVDst (fD w)
      let a ← decVSrc (some sill) (fA w)
      match fB w with
      | 0 => .ok (.popc wb d a)
      | 1 => .ok (.clz wb d a)
      | _ => .ok (.brev wb d a)
  | 0x33 => do m0 w; decSSS sill w .sadd
  | 0x34 => do m0 w; decSSS sill w .ssub
  | 0x35 => do m0 w; decSSS sill w .smul
  | 0x36 => do let m ← decSh (fM w); decSSS sill w (.sshl m)
  | 0x37 => do m0 w; decSSS sill w .sand
  | 0x38 => do m0 w; decSSS sill w .sor
  | 0x39 => do
      m0 w
      needI (!wb && fB w == 0)
      let d ← decSDst (fD w)
      let a ← decSSrc (some sill) (fA w)
      .ok (.smov d a)
  | 0x3A => do
      needI (!wb)
      let m ← decComb (fM w)
      let c ← decICond (fld w 16 4)
      let a ← decSSrc (some sill) (fA w)
      let b ← decSSrc (some sill) (fB w)
      .ok (.sset (fSel w) c m a b)
  | 0x3B => decSSS sill w (.slea (finMod 4 (fM w) (by decide)))
  | 0x3C => do needI (!wb); let d ← decSDst (fD w); .ok (.smovImm d (fImm w))
  | 0x3D => do needI (!wb); let d ← decSDst (fD w); .ok (.saddImm d (fImm w))
  | _ => .error .illegalInstruction

/-- A word of the branch family (R40): bit 30 is reserved. -/
def decBr (w : Nat) (k : PReg → BitVec 20 → Instr) : Except Reject Instr := do
  needI (!fW w)
  .ok (k (fSel w) (fOff w))

/-- A word all of whose fields below the opcode are 0. -/
def decBare (w : Nat) (i : Instr) : Except Reject Instr := do
  needI (!fW w && fld w 0 23 == 0)
  .ok i

/-- BAR and CLBAR (R39): kind in [11:10], order in [9:8], the participant count in D. -/
def decBar (w : Nat) (arrive wait sync : SOpt → Fin 16 → Ord → Instr) : Except Reject Instr := do
  needI (!fW w && fld w 0 8 == 0 && fld w 10 2 != 3)
  let d ← decSOpt (fD w)
  let n : Fin 16 := finMod 16 (fld w 12 4) (by decide)
  let o := decOrd (fld w 8 2)
  match fld w 10 2 with
  | 0 => .ok (arrive d n o)
  | 1 => .ok (wait d n o)
  | _ => .ok (sync d n o)

/-- The predicate words, opcode 0x49 (R38, R47). -/
def decPred (w : Nat) : Except Reject Instr := do
  needI (!fW w && fld w 9 5 == 0 && fM w == 0 && fB w < 5)
  let pd := fSel w
  let pa : PReg := finMod 8 (fld w 17 3) (by decide)
  let pb : PReg := finMod 8 (fld w 14 3) (by decide)
  match fB w with
  | 0 => .ok (.pand pd pa pb)
  | 1 => .ok (.por pd pa pb)
  | 2 => .ok (.pxor pd pa pb)
  | 3 => do needI (pb.val == 0); .ok (.pnot pd pa)
  | _ => do needI (pb.val == 0); .ok (.pmov pd pa)

/-- Opcode 0x4A (R47). -/
def decSys (w : Nat) : Except Reject Instr := do
  needI (!fW w && fD w == 0 && fM w == 0)
  match fB w with
  | 0 => do needI (fA w == 0); .ok .nop
  | 1 => do needI (fA w == 0); .ok .exit
  | 2 => do needI (fA w == 0); .ok .yield
  | 3 => .ok (.trap (BitVec.ofNat 7 (fA w)))
  | 4 => .ok (.trapHost (BitVec.ofNat 7 (fA w)))
  | 5 => do needI (fA w == 0); .ok .rtt
  | 6 => do needI (fA w == 0); .ok .bkpt
  | 7 => do
      needI (fA w / 32 == 0)
      let o ← decFOrd (fA w / 8 % 4)
      let s ← decScope (fA w % 8)
      .ok (.fence o s)
  | _ => .error .illegalInstruction

/-- LOOP (R39, R109): the sill holds four increment fields. -/
def decLoop (sill : Word) (w : Nat) : Except Reject Instr := do
  needI (!fW w && fld w 0 12 == 0)
  let s := sill.toNat
  let inc := fun (i : Nat) => decLoopInc (fld s (8 * i) 8)
  let d ← decSOpt (fD w)
  .ok (.loop d (finMod 16 (fld w 12 4) (by decide)) (inc 0) (inc 1) (inc 2) (inc 3))

/-- WAITAC (R39, R176). -/
def decWaitac (sill : Word) (w : Nat) : Except Reject Instr := do
  needI (!fW w && fld w 8 4 == 0)
  let ac : Fin 16 := finMod 16 (fld w 12 4) (by decide)
  if fD w = 124 then .ok (.waitac ac (.imm (BitVec.ofNat 8 (fld w 0 8))))
  else do
    needI (fld w 0 8 == 0)
    if h : fD w < 64 then .ok (.waitac ac (.reg ⟨fD w, h⟩))
    else if fD w = 125 then .ok (.waitac ac (.lit sill))
    else .error .illegalOperand

/-- Opcodes 0x40 to 0x5A (R45). -/
def decCtl (sill : Word) (w : Nat) : Except Reject Instr :=
  let wb := fW w
  match fOp w with
  | 0x40 => decBr w .bra
  | 0x41 => do
      needI (!wb && fD w == 0 && fB w == 0 && fM w == 0)
      let a ← decFin 63 (fA w)
      .ok (.brx a)
  | 0x42 => decBr w .call
  | 0x43 => decBare w .ret
  | 0x44 => decBr w .split
  | 0x45 => decBare w .join
  | 0x46 => decBr w .brk
  | 0x47 => decLoop sill w
  | 0x48 => do
      needI (!wb && fM w == 0 && fB w < 3)
      match fB w with
      | 0 => do needI (fA w == 0); let d ← decSDst (fD w); .ok (.xmrd d)
      | 1 => do needI (fD w == 0); let a ← decSSrc (some sill) (fA w); .ok (.xmwr a)
      | _ => do needI (fD w == 0); let p ← decFin 8 (fA w); .ok (.xmand p)
  | 0x49 => decPred w
  | 0x4A => decSys w
  | 0x4B => do
      needI (!wb && fld w 12 4 == 0)
      let d ← decSDst (fD w)
      let c ← decCsr (fld w 0 12)
      .ok (.csrr d c)
  | 0x4C => do
      needI (!wb && fld w 12 4 == 0)
      let a ← decSSrc (some sill) (fD w)
      let c ← decCsr (fld w 0 12)
      .ok (.csrw a c)
  | 0x4D => decBar w .barArrive .barWait .barSync
  | 0x4E => do needI (!wb && fD w == 0); .ok (.waittk (fImm w))
  | 0x4F => decWaitac sill w
  | 0x50 => decVVV sill w (.shfl wb (decShfl (fM w)))
  | 0x51 => do
      needI (!wb && fB w == 0)
      let d ← decSDst (fD w)
      let a ← decVSrc (some sill) (fA w)
      .ok (.vote (decVote (fM w)) d a)
  | 0x52 => do
      needI (!wb && fM w == 0)
      let op ← decLaneOp (fB w)
      let d ← decSDst (fD w)
      let a ← decVSrc (some sill) (fA w)
      .ok (.lred op d a)
  | 0x53 => do
      let e ← decU (fM w)
      let op ← decLaneOp (fB w)
      let d ← decVDst (fD w)
      let a ← decVSrc (some sill) (fA w)
      .ok (.lscan wb op e d a)
  | 0x54 => do m0 w; decVV0 sill w (.matchLanes wb)
  | 0x55 => do m0 w; decVVV sill w (.reorder wb)
  | 0x56 => do
      needI (fM w == 0 && fB w == 0)
      let d ← decFin 119 (fD w)
      let a ← decVSrc (some sill) (fA w)
      .ok (.rebal wb d a)
  | 0x57 => do
      needI (!wb && fA w == 0 && fB w == 0 && fM w == 0)
      let p ← decFin 8 (fD w)
      .ok (.elect p)
  | 0x58 => do
      needI (fM w == 0)
      let d ← decVDst (fD w)
      let a ← decVSrc (some sill) (fA w)
      let b ← decSDst (fB w)
      .ok (.nzs wb d a b)
  | 0x59 => do
      needI (fld w 0 1 == 0)
      let fn ← decSfn (fld w 1 4)
      let d ← decVDst (fD w)
      let a ← decVSrc (some sill) (fA w)
      .ok (.sfn wb fn (finMod 16 (fld w 5 4) (by decide)) d a)
  | 0x5A => do needI (!wb && fD w == 0 && fld w 8 8 == 0); .ok (.waitmb (BitVec.ofNat 8 (fld w 0 8)))
  | _ => .error .illegalInstruction

/-- A load (R165, R181): the destination is a register, and with its run inside v119. -/
def decLoad (kind : MemKind) (sill : Word) (w : Nat) (k : Fin 120 → VSrc → Fin 32 → Fin 16 → Option MMod → Instr) :
    Except Reject Instr := do
  let m ← decMod kind (fW w) sill
  let d ← decFin 120 (fD w)
  let a ← decVSrc (memLit (fW w) sill) (fA w)
  needO (d.val + (modOf m).size.regs ≤ 120 && addrOk (modOf m) a)
  .ok (k d a (fBase w) (fAc w) m)

/-- A store with a counter. -/
def decStore (kind : MemKind) (sill : Word) (w : Nat) (k : VSrc → VSrc → Fin 32 → Fin 16 → Option MMod → Instr) :
    Except Reject Instr := do
  let m ← decMod kind (fW w) sill
  let d ← decVSrc (memLit (fW w) sill) (fD w)
  let a ← decVSrc (memLit (fW w) sill) (fA w)
  needO (d.runOk (modOf m).size.regs && addrOk (modOf m) a)
  .ok (k d a (fBase w) (fAc w) m)

/-- A store or reduction without a reply: AC must be 0 (R41). -/
def decStore0 (kind : MemKind) (sill : Word) (w : Nat) (k : VSrc → VSrc → Fin 32 → Option MMod → Instr) :
    Except Reject Instr := do
  needI (fld w 0 4 == 0)
  decStore kind sill w (fun d a b _ m => k d a b m)

/-- An atomic. -/
def decAtom (kind : MemKind) (sill : Word) (w : Nat) (k : VDst → VSrc → Fin 32 → Fin 16 → Option MMod → Instr) :
    Except Reject Instr := do
  let m ← decMod kind (fW w) sill
  let d ← decVDst (fD w)
  let a ← decVSrc (memLit (fW w) sill) (fA w)
  needO (d.runOk (atomRegs (modOf m)) && addrOk (modOf m) a)
  .ok (k d a (fBase w) (fAc w) m)

/-- CLD and CST (R160). -/
def decCapMem (kind : MemKind) (sill : Word) (w : Nat) (k : CReg → SSrc → CReg → Fin 16 → Option MMod → Instr) :
    Except Reject Instr := do
  let m ← decMod kind (fW w) sill
  let d ← decFin 32 (fD w)
  let a ← decSSrc (memLit (fW w) sill) (fA w)
  .ok (k d a (fBase w) (fAc w) m)

/-- MMA and MMAT (R46): B holds ACC in bit 8, RU in bit 7, and 0 or a register below. -/
def decMma (w : Nat) (k : Fin 113 → Fin 63 → Bool → Bool → Instr) : Except Reject Instr := do
  needI (!fW w && fM w == 0 && fld w 2 5 == 0)
  let d ← decFin 113 (fD w)
  let a ← decFin 63 (fA w)
  .ok (k d a (fld w 8 1 == 1) (fld w 7 1 == 1))

/-- Opcodes 0x60 to 0x7D (R46). -/
def decMem (sill : Word) (w : Nat) : Except Reject Instr :=
  let e := fW w
  match fOp w with
  | 0x60 => decLoad .ldSpDs sill w .ldsp
  | 0x61 => decStore .stSpDs sill w .stsp
  | 0x62 => decAtom .atSpDs sill w .atsp
  | 0x63 => decLoad .ldSpDs sill w .ldds
  | 0x64 => decStore .stSpDs sill w .stds
  | 0x65 => decAtom .atSpDs sill w .atds
  | 0x66 => decLoad .ldDm sill w .lddm
  | 0x67 => decStore .stDm sill w .stdm
  | 0x68 => decAtom .atDm sill w .atdm
  | 0x69 => decStore0 .redDm sill w .reddm
  | 0x6A => do
      needI (fD w == 0 && fld w 0 4 == 0)
      let m ← decMod .pfDm e sill
      let a ← decVSrc (memLit e sill) (fA w)
      needO (addrOk (modOf m) a)
      .ok (.pfdm a (fBase w) m)
  | 0x6B => do
      let m ← if e then (do let m ← decTexMod sill.toNat; .ok (some m)) else .ok none
      let d ← decFin 120 (fD w)
      let a ← decFin 120 (fA w)
      needO (decide (d.val + ((m.getD {}).nres.val + 1) ≤ 120) && decide (a.val + 2 ≤ 120))
      .ok (.tex d a (fBase w) (fAc w) m)
  | 0x6C => do
      let m ← if e then (do let m ← decHgMod sill.toNat; .ok (some m)) else .ok none
      let d ← decFin 120 (fD w)
      let a ← decFin 120 (fA w)
      needO (decide (d.val + (m.getD {}).regs ≤ 120) && decide (a.val + 3 ≤ 120))
      .ok (.hgrid d a (fBase w) (fAc w) m)
  | 0x6D => decStore0 .stPm sill w .stpm
  | 0x6E => decStore0 .redPm sill w .redpm
  | 0x6F => decLoad .ldHm sill w .ldhm
  | 0x70 => decStore .stHm sill w .sthm
  | 0x71 => decCapMem .cld sill w .cld
  | 0x72 => decCapMem .cst sill w .cst
  | 0x73 => do
      needI (!e)
      match fM w with
      | 0 => do
          let d ← decFin 32 (fD w)
          let a ← decFin 32 (fA w)
          let b ← decFin 63 (fB w)
          .ok (.cbnd d a b)
      | 1 => do
          let d ← decFin 32 (fD w)
          let a ← decFin 32 (fA w)
          let b ← decSSrc (some sill) (fB w)
          .ok (.crgt d a b)
      | 2 => do
          needI (fB w == 0)
          let d ← decFin 32 (fD w)
          let a ← decFin 32 (fA w)
          .ok (.cmov d a)
      | _ => do
          needI (fB w == 0)
          let d ← decFin 61 (fD w)
          let a ← decFin 32 (fA w)
          .ok (.cget d a)
  | 0x74 => do
      needI (fld w 0 4 == 0)
      needI (!e || fld sill.toNat 20 12 == 0)
      let d ← decSOpt (fD w)
      let a ← decSSrc (memLit e sill) (fA w)
      .ok (.waitmem d a (fBase w) (if e then some (BitVec.ofNat 20 (fld sill.toNat 0 20)) else none))
  | 0x75 => do
      needI (!e && fM w == 0)
      let d ← decVSrc (some sill) (fD w)
      let a ← decFin 63 (fA w)
      let n ← decFin 9 (fB w)
      needO (d.runOk n.val)
      .ok (.spawn d a n)
  | 0x76 => decMma w .mma
  | 0x77 => do
      needI (!e && fM w == 0)
      let d ← decFin 113 (fD w)
      let a ← decFin 63 (fA w)
      .ok (.mmas d a (fld w 8 1 == 1) (fld w 7 1 == 1) (finMod 32 (fld w 2 5) (by decide)))
  | 0x78 => do
      needI (!e && fM w == 0 && fld w 2 6 == 0)
      let d ← decFin 113 (fD w)
      let a ← decFin 63 (fA w)
      .ok (.mmat d a (fld w 8 1 == 1))
  | 0x79 => do
      needI (!e && fM w == 0 && fld w 2 5 == 0)
      let h ← decHad (fld w 7 2)
      let d ← decFin 63 (fD w)
      let a ← decFin 105 (fA w)
      .ok (.mxq d a h)
  | 0x7A => do
      needI (fM w == 0 && fA w == 0 && fld w 2 4 == 0)
      let d ← decFin 113 (fD w)
      .ok (.mxrd e d (fld w 8 1 == 1) (finMod 4 (fld w 6 2) (by decide)))
  | 0x7B => do
      needI (!e && fM w == 0 && fD w == 0 && fld w 2 6 == 0)
      let a ← decFin 63 (fA w)
      .ok (.mxst a (fld w 8 1 == 1))
  | 0x7C =>
      match fM w with
      | 0 => do needI (!e && fD w == 0 && fA w == 0 && fld w 2 6 == 0); .ok (.mxclr (fld w 8 1 == 1))
      | 1 => do needI (!e && fD w == 0 && fA w == 0 && fB w == 0); .ok .mxfence
      | _ => .error .illegalInstruction
  | 0x7D => decBar w .clbarArrive .clbarWait .clbarSync
  | _ => .error .illegalInstruction

/-- Bits of the engine sill (R42). -/
def sAc (s : Nat) : Fin 16 := finMod 16 (fld s 6 4) (by decide)

/-- A die engine command with an element size (R221): bits [31:20] are 0; RED and OPC stand for SCAT alone. -/
def decEsz (s : Nat) : Except Reject (Fin 13) :=
  if h : fld s 10 4 < 13 then .ok ⟨fld s 10 4, h⟩ else .error .illegalInstruction

def decDieEng (w : Nat) (k : Option (Fin 63) → Fin 57 → SOpt → Instr) : Except Reject Instr := do
  let d ← decStatus 63 (fD w)
  let a ← decFin 57 (fA w)
  let b ← decSOpt (fB w)
  .ok (k d a b)

/-- Opcode 0x7E (R47, R221). -/
def decDie (sill : Word) (w : Nat) : Except Reject Instr :=
  let s := sill.toNat
  let ac := sAc s
  let st := fld s 14 1 == 1
  match fld s 0 6 with
  | 0 => do
      needI (!fW w && fM w == 0 && fld s 15 17 == 0)
      let z ← decEsz s
      decDieEng w (fun d a b => .cpy d a b ac z st)
  | 1 => do
      needI (!fW w && fM w == 0 && fld s 15 17 == 0)
      let z ← decEsz s
      decDieEng w (fun d a b => .gath d a b ac z st)
  | 2 => do
      needI (!fW w && fM w == 0 && fld s 20 12 == 0)
      let z ← decEsz s
      if fld s 19 1 = 1 then do
        let op ← decAOp (fld s 15 4)
        needI (op.reduces && z.val == 2)
        decDieEng w (fun d a b => .scat d a b ac z st (some op))
      else do
        needI (fld s 15 4 == 0)
        decDieEng w (fun d a b => .scat d a b ac z st none)
  | 3 => do
      needI (!fW w && fM w == 0 && fld s 15 17 == 0)
      let z ← decEsz s
      decDieEng w (fun d a b => .route d a b ac z st)
  | 4 => do
      needI (!fW w && fM w == 0 && fld s 15 17 == 0)
      let o ← decChFmt (fld s 12 2)
      let i ← decChFmt (fld s 10 2)
      decDieEng w (fun d a b => .chain d a b ac o i st)
  | _ => .error .illegalInstruction

/-- Opcode 0x7F (R47): the bits of MOD that a command does not define are 0, and AC where it has no counter. -/
def decPkgCode (sill : Word) (w : Nat) : Except Reject Instr :=
  let s := sill.toNat
  let ac := sAc s
  let bare := !fW w && fM w == 0 && fld s 10 22 == 0
  match fld s 0 6 with
  | 0 => do
      needI (bare && fB w == 0)
      let d ← decStatus 62 (fD w)
      let a ← decFin 32 (fA w)
      .ok (.vpin d a ac)
  | 1 => do
      needI (bare && fD w == 0)
      let a ← decFin 32 (fA w)
      let b ← decSOpt (fB w)
      .ok (.vrel a b ac)
  | 2 => do
      needI bare
      let d ← decStatus 63 (fD w)
      let a ← decFin 32 (fA w)
      let b ← decFin 63 (fB w)
      .ok (.vpub d a b ac)
  | 3 => do
      needI (bare && ac.val == 0)
      let d ← decFin 32 (fD w)
      let a ← decVSrc none (fA w)
      let b ← decVSrc none (fB w)
      .ok (.skupd d a b)
  | 4 => do
      needI bare
      let d ← decFin 120 (fD w)
      let a ← decVSrc none (fA w)
      let b ← decFin 32 (fB w)
      .ok (.skqry d a b ac)
  | 5 => do
      needI (bare && fB w == 0)
      let d ← decFin 32 (fD w)
      let a ← decFin 32 (fA w)
      .ok (.skadd d a ac)
  | 6 => do
      needI (bare && fA w == 0 && fB w == 0)
      let d ← decFin 32 (fD w)
      .ok (.skclr d ac)
  | 7 => do
      needI (!fW w && fM w == 0 && fld s 12 20 == 0)
      let c ← decCull (fld s 10 2)
      let d ← decFin 32 (fD w)
      let a ← decFin 112 (fA w)
      let b ← decFin 61 (fB w)
      .ok (.raycast d a b ac c)
  | 8 => do
      needI (bare && ac.val == 0)
      let d ← decFin 32 (fD w)
      let a ← decVSrc none (fA w)
      let b ← decVSrc none (fB w)
      .ok (.atmass d a b)
  | 9 => do
      needI (bare && fB w == 0)
      let d ← decStatus 63 (fD w)
      let a ← decFin 57 (fA w)
      .ok (.evict d a ac)
  | 10 => do
      needI bare
      let d ← decFin 120 (fD w)
      let a ← decFin 32 (fA w)
      let b ← decFin 119 (fB w)
      .ok (.posrd d a b ac)
  | 11 => do
      needI (bare && fB w == 0)
      let p ← decFin 8 (fD w)
      let a ← decFin 63 (fA w)
      .ok (.launch p a ac)
  | 12 => do
      needI (bare && fD w == 0 && ac.val == 0)
      let a ← decSOpt (fA w)
      let b ← decSOpt (fB w)
      .ok (.evsig a b)
  | 13 => do
      needI (!fW w && fM w == 0 && fB w == 0 && fld s 15 17 == 0)
      let op ← decColl (fld s 10 5)
      let d ← decStatus 63 (fD w)
      let a ← decFin 57 (fA w)
      .ok (.coll op d a ac)
  | _ => .error .illegalInstruction

/-- VPIN's operand classes: a scalar run or none, a capability register, B = 0 (R273). -/
def vpinClasses (w : Nat) : Bool := (fD w < 62 || fD w == 124) && fA w < 32 && fB w == 0

/-- Opcode 0x7F: SKUPD, SKADD, SKCLR, ATMASS and LAUNCH with fields outside their own operand classes and within VPIN's are illegal
instructions (R276); the tables of the other words give such fields the illegal-operand trap (R294, R315, R333; log entry 100). -/
def decPkg (sill : Word) (w : Nat) : Except Reject Instr :=
  match decPkgCode sill w with
  | .error .illegalOperand =>
      .error (if ([3, 5, 6, 8, 11].contains (fld sill.toNat 0 6) && vpinClasses w) = true then .illegalInstruction else .illegalOperand)
  | r => r

/-- R36, steps 2 and 3, but for the pane's register count: the instruction a word and its packet's sill stand for. -/
def decodeWord (w : Nat) (sill : Word) : Except Reject Instr :=
  let op := fOp w
  if op ≤ 0x20 then decX sill w
  else if op < 0x40 then decY sill w
  else if op < 0x60 then decCtl sill w
  else if op < 0x7E then decMem sill w
  else if op = 0x7E then decDie sill w
  else decPkg sill w

/-- The decoder on the bits the operation table gives a row: one 32-bit word (bits above bit 31 are the second word,
slot 1, which is no part of the instruction), with a sill of 0. -/
def decodeTableWord (nbits w : Nat) : Option Instr :=
  (decodeWord (w % 2 ^ nbits % 2 ^ 32) 0).toOption

/-! ### Packets (R27 to R32) -/

/-- The pipes (R44 to R46). -/
inductive Pipe where
  | x | y | m
  deriving DecidableEq, Repr

/-- The pipe of an opcode; none where the opcode is unassigned (R48). -/
def pipeOf (op : Nat) : Option Pipe :=
  if op ≤ 0x20 then some .x
  else if op < 0x28 then none
  else if op < 0x3E then some .y
  else if op < 0x40 then none
  else if op < 0x5B then some .y
  else if op < 0x60 then none
  else some .m

def wChain (w : Nat) : Bool := fld w 31 1 == 1

/-- The V-class and S-class source fields of a word, by its opcode (R28, R44 to R47). The D field of a word that reads and writes
its destination (IADD, SADD, IMAD, FFMA, HFMA2, BFI) counts as a destination, and D of an atomic, which only reads it first, as a
source (log entry 93, DESIGN CHOICE). -/
def sourceFields (w : Nat) : List Nat :=
  let op := fOp w
  let d := fD w
  let a := fA w
  let b := fB w
  if op ≤ 0x08 then [a, b]
  else if op = 0x09 ∨ op = 0x0D ∨ op = 0x0E ∨ op = 0x17 ∨ op = 0x18 ∨ op = 0x1E then [a]
  else if op = 0x0F ∨ op = 0x20 then []
  else if op ≤ 0x1F then [a, b]
  else if op < 0x28 then []
  else if op = 0x32 ∨ op = 0x39 then [a]
  else if op = 0x3C ∨ op = 0x3D then []
  else if op < 0x3E then [a, b]
  else if op = 0x41 then [a]
  else if op = 0x48 then (if b = 1 then [a] else [])
  else if op = 0x4C ∨ op = 0x4D ∨ op = 0x4F then [d]
  else if op = 0x50 ∨ op = 0x55 then [a, b]
  else if (0x51 ≤ op ∧ op ≤ 0x54) ∨ op = 0x56 ∨ op = 0x58 ∨ op = 0x59 then [a]
  else if op < 0x60 then []
  else if op = 0x61 ∨ op = 0x62 ∨ op = 0x64 ∨ op = 0x65 ∨ op = 0x67 ∨ op = 0x68 ∨ op = 0x69 ∨ op = 0x6D ∨ op = 0x6E ∨
      op = 0x70 ∨ op = 0x74 ∨ (0x75 ≤ op ∧ op ≤ 0x79) then [d, a]
  else if op = 0x6B ∨ op = 0x6C ∨ op ≤ 0x72 then [a]
  else if op = 0x73 then (if fM w ≤ 1 then [b] else [])
  else if op = 0x7B then [a]
  else if op = 0x7D then [d]
  else []

/-- R28: the words that consume the sill. -/
def consumesSill (w : Nat) : Bool :=
  let op := fOp w
  (sourceFields w).contains 125 ||
    ((op == 0x13 || op == 0x05) && fM w == 3) || op == 0x47 ||
    (fW w && ((0x60 ≤ op && op ≤ 0x72) || op == 0x74)) || op == 0x7E || op == 0x7F

/-- Two words of one group that R32 does not allow together: of one pipe, or one of them unassigned beside an assigned
one (it is checked as though it occupied every pipe). -/
def pipeClash (u v : Nat) : Bool :=
  match pipeOf (fOp u), pipeOf (fOp v) with
  | some p, some q => p == q
  | none, none => false
  | _, _ => true

/-- The detail of the illegal-packet trap for the three words of a packet, 0 where the packet is legal (R32, R127):
[1] C in slot 2, [2] a pipe conflict, [3] two consumers of the sill. -/
def packetDetail (w0 w1 w2 : Nat) : Nat :=
  (if wChain w2 then 2 else 0) +
  (if (wChain w0 && pipeClash w0 w1) || (wChain w1 && pipeClash w1 w2) ||
      (wChain w0 && wChain w1 && pipeClash w0 w2) then 4 else 0) +
  (if ([w0, w1, w2].filter consumesSill).length > 1 then 8 else 0)

/-! ### The encoder (R33 to R47), from the same tables -/

def VSrc.code : VSrc → Nat
  | .reg n => n.val
  | .latch k => 120 + k.val
  | .zero => 124
  | .lit _ => 125
  | .lane => 126

def VDst.code : VDst → Nat
  | .reg n => n.val
  | .discard => 124

def SSrc.code : SSrc → Nat
  | .reg n => n.val
  | .zero => 124
  | .lit _ => 125

def SDst.code : SDst → Nat
  | .reg n => n.val
  | .discard => 124

def SOpt.code : SOpt → Nat
  | .reg n => n.val
  | .zero => 124

def statusCode {n : Nat} : Option (Fin n) → Nat
  | some r => r.val
  | none => 124

def SatMode.code : SatMode → Nat
  | .wrap => 0 | .sat => 1 | .usat => 2

def Rm.code : Rm → Nat
  | .rn => 0 | .rz => 1 | .ru => 2 | .rd => 3

def Addend.code : Addend → Nat
  | .dest => 0 | .y0 => 1 | .y1 => 2 | .lit _ => 3

def DivMode.code : DivMode → Nat
  | .quo => 0 | .quoU => 1 | .rem => 2 | .remU => 3

def ICond.code : ICond → Nat
  | .eq => 0 | .ne => 1 | .lt => 2 | .le => 3 | .gt => 4 | .ge => 5 | .ltu => 6 | .leu => 7 | .gtu => 8 | .geu => 9

def FCond.code : FCond → Nat
  | .eq => 0 | .ne => 1 | .lt => 2 | .le => 3 | .gt => 4 | .ge => 5 | .un => 6 | .ord => 7

def Comb.code : Comb → Nat
  | .set => 0 | .and => 1 | .or => 2

def HFmt.code : HFmt → Nat
  | .f16 => 0 | .bf16 => 1

def CFmt.code : CFmt → Nat
  | .f32 => 0 | .f16 => 1 | .bf16 => 2 | .f8e4 => 3 | .f8e5 => 4 | .e8m0 => 5 | .i32 => 6 | .u32 => 7 | .i16 => 8
  | .u16 => 9 | .i8 => 10 | .u8 => 11

def ShMode.code : ShMode → Nat
  | .left => 0 | .lsr => 1 | .asr => 2

def ShflMode.code : ShflMode → Nat
  | .idx => 0 | .up => 1 | .dn => 2 | .xor => 3

def VoteMode.code : VoteMode → Nat
  | .all => 0 | .any => 1 | .bal => 2 | .eq => 3

def LaneOp.code : LaneOp → Nat
  | .add => 0 | .min => 1 | .max => 2 | .umin => 3 | .umax => 4 | .and => 5 | .or => 6 | .xor => 7 | .fadd => 8
  | .fmin => 9 | .fmax => 10

def SfnOp.code : SfnOp → Nat
  | .exp2 => 0 | .log2 => 1 | .rcp => 2 | .rsq => 3 | .sqrt => 4 | .sin => 5 | .cos => 6 | .tanh => 7 | .sig => 8
  | .gelu => 9

def LoopInc.code : LoopInc → Nat
  | .none => 0
  | .addNext r => 64 + r.val
  | .inc r => 128 + r.val
  | .dec r => 192 + r.val
  | .bad f => f.val

def FOrd.code : FOrd → Nat
  | .rel => 1 | .acq => 2 | .ar => 3

def Ord.code : Ord → Nat
  | .none => 0 | .rel => 1 | .acq => 2 | .ar => 3

def Scope.code : Scope → Nat
  | .pane => 0 | .team => 1 | .core => 2 | .clu => 3 | .die => 4 | .pkg => 5 | .sys => 6

def MSize.code : MSize → Nat
  | .w => 0 | .b => 1 | .h => 2 | .d => 3 | .q => 4

def AOp.code : AOp → Nat
  | .add => 0 | .min => 1 | .max => 2 | .umin => 3 | .umax => 4 | .and => 5 | .or => 6 | .xor => 7 | .fadd => 8
  | .fmin => 9 | .fmax => 10 | .hadd2 => 11 | .bhadd2 => 12 | .xchg => 13 | .cas => 14

def ChFmt.code : ChFmt → Nat
  | .f32 => 0 | .f16 => 1 | .bf16 => 2

def HadMode.code : HadMode → Nat
  | .plain => 0 | .had16 => 2 | .had32 => 3

def Cull.code : Cull → Nat
  | .none => 0 | .back => 1 | .front => 2

def CollOp.code : CollOp → Nat
  | .sumF32 => 0 | .maxF32 => 1 | .skadd => 2 | .bcast => 3 | .gath => 4 | .sumI32 => 8 | .maxI32 => 9

def Csr.code : Csr → Nat
  | .xstat => 0 | .xctl => 1 | .trapvecL => 2 | .trapvecH => 3 | .stksaveL => 4 | .stksaveH => 5 | .stklim => 6
  | .stkdep => 7 | .bconf => 8 | .paneinfo => 9 | .teamid => 10 | .gridid => 11 | .spds => 12

/-- The base word (R33), C = 0. -/
def wBase (w : Bool) (op d a b m : Nat) : Nat :=
  w.toNat * 2 ^ 30 + op * 2 ^ 23 + d * 2 ^ 16 + a * 2 ^ 9 + b * 2 ^ 2 + m

/-- The immediate family (R39). -/
def wImm (w : Bool) (op d imm : Nat) : Nat :=
  w.toNat * 2 ^ 30 + op * 2 ^ 23 + d * 2 ^ 16 + imm

/-- The compare layout (R37). -/
def wCmp (op pd cond a b m : Nat) : Nat :=
  op * 2 ^ 23 + pd * 2 ^ 20 + cond * 2 ^ 16 + a * 2 ^ 9 + b * 2 ^ 2 + m

/-- The branch family (R40). -/
def wBr (op sel off : Nat) : Nat :=
  op * 2 ^ 23 + sel * 2 ^ 20 + off

/-- The predicate layout (R38). -/
def wPred (pd pa pb sub : Nat) : Nat :=
  0x49 * 2 ^ 23 + pd * 2 ^ 20 + pa * 2 ^ 17 + pb * 2 ^ 14 + sub * 2 ^ 2

/-- The memory family (R41). -/
def wMem (e : Bool) (op d a base ac : Nat) : Nat :=
  e.toNat * 2 ^ 30 + op * 2 ^ 23 + d * 2 ^ 16 + a * 2 ^ 9 + base * 2 ^ 4 + ac

/-- The modifier word of R163. -/
def MMod.word (m : MMod) : Word :=
  BitVec.ofNat 32 (m.opc.code * 2 ^ 20 + m.scope.code * 2 ^ 17 + m.ord.code * 2 ^ 15 + m.st.toNat * 2 ^ 14 +
    m.sx.toNat * 2 ^ 13 + m.p.toNat * 2 ^ 12 + m.scale.val * 2 ^ 9 + m.size.code * 2 ^ 6)

def TexMod.word (m : TexMod) : Word :=
  BitVec.ofNat 32 (m.clamp.toNat * 2 ^ 5 + m.lin.toNat * 2 ^ 4 + m.nres.val)

def HgMod.word (m : HgMod) : Word :=
  BitVec.ofNat 32 (m.nlev.val * 2 ^ 6 + m.f4.toNat * 2 ^ 5)

/-- The engine sill (R42). -/
def sEng (mod : Nat) (ac : Nat) (ecode : Nat) : Word :=
  BitVec.ofNat 32 (mod * 2 ^ 10 + ac * 2 ^ 6 + ecode)

/-- The sill of a word with literals: the first of them, 0 where there is none. -/
def litSill : List Word → Word
  | [] => 0
  | x :: _ => x

/-- The sill of a memory word: its modifier with E = 1, else its literal. -/
def memSill (m : Option MMod) (l : List Word) : Word :=
  match m with
  | some m => m.word
  | none => litSill l

def encVVV (op : Nat) (w : Bool) (m : Nat) (d : VDst) (a b : VSrc) : Option (Nat × Word) :=
  some (wBase w op d.code a.code b.code m, litSill (a.lits ++ b.lits))

def encSSS (op m : Nat) (d : SDst) (a b : SSrc) : Option (Nat × Word) :=
  some (wBase false op d.code a.code b.code m, litSill (a.lits ++ b.lits))

def encVV (op : Nat) (w : Bool) (sub m : Nat) (d : VDst) (a : VSrc) : Option (Nat × Word) :=
  some (wBase w op d.code a.code sub m, litSill a.lits)

def encLoad (op : Nat) (d : Fin 120) (a : VSrc) (base : Fin 32) (ac : Fin 16) (m : Option MMod) :
    Option (Nat × Word) :=
  some (wMem m.isSome op d.val a.code base.val ac.val, memSill m a.lits)

def encStore (op : Nat) (d a : VSrc) (base : Fin 32) (ac : Nat) (m : Option MMod) : Option (Nat × Word) :=
  some (wMem m.isSome op d.code a.code base.val ac, memSill m (d.lits ++ a.lits))

def encAtom (op : Nat) (d : VDst) (a : VSrc) (base : Fin 32) (ac : Fin 16) (m : Option MMod) : Option (Nat × Word) :=
  some (wMem m.isSome op d.code a.code base.val ac.val, memSill m a.lits)

def encBar (op kind : Nat) (d : SOpt) (n : Fin 16) (o : Ord) : Option (Nat × Word) :=
  some (wImm false op d.code (n.val * 2 ^ 12 + kind * 2 ^ 10 + o.code * 2 ^ 8), 0)

def encDie (mod ecode : Nat) (d : Option (Fin 63)) (a : Fin 57) (b : SOpt) (ac : Fin 16) : Option (Nat × Word) :=
  some (wBase false 0x7E (statusCode d) a.val b.code 0, sEng mod ac.val ecode)

def encPkg (mod ecode d a b ac : Nat) : Option (Nat × Word) :=
  some (wBase false 0x7F d a b 0, sEng mod ac ecode)

/-- The word (with C = 0) and the sill of an instruction; none for an event, which no encoding names. -/
def encode : Instr → Option (Nat × Word)
  | .iadd w m d a b => encVVV 0x00 w m.code d a b
  | .iaddc w d a b => encVVV 0x01 w 0 d a b
  | .isub w m d a b => encVVV 0x02 w m.code d a b
  | .imul w d a b => encVVV 0x03 w 0 d a b
  | .imulh w u d a b => encVVV 0x04 w u.toNat d a b
  | .imad w c d a b =>
      some (wBase w 0x05 d.code a.code b.code c.code, litSill (c.lits ++ a.lits ++ b.lits))
  | .idiv w m d a b => encVVV 0x06 w m.code d a b
  | .imin w u d a b => encVVV 0x07 w u.toNat d a b
  | .imax w u d a b => encVVV 0x08 w u.toNat d a b
  | .iabs w d a => encVV 0x09 w 0 0 d a
  | .lea w sh d a b => encVVV 0x0A w sh.val d a b
  | .iset p c m a b => some (wCmp 0x0B p.val c.code a.code b.code m.code, litSill (a.lits ++ b.lits))
  | .sel w p d a b => encVVV 0x0C w p.val d a b
  | .mov w d a => encVV 0x0D w 0 0 d a
  | .movs w d a => some (wBase w 0x0E d.code a.code 0 0, litSill a.lits)
  | .movImm w d imm => some (wImm w 0x0F d.code imm.toNat, 0)
  | .fadd w rm d a b => encVVV 0x10 w rm.code d a b
  | .fsub w rm d a b => encVVV 0x11 w rm.code d a b
  | .fmul w rm d a b => encVVV 0x12 w rm.code d a b
  | .ffma w c d a b =>
      some (wBase w 0x13 d.code a.code b.code c.code, litSill (c.lits ++ a.lits ++ b.lits))
  | .fmin w d a b => encVVV 0x14 w 0 d a b
  | .fmax w d a b => encVVV 0x15 w 0 d a b
  | .fset p c m a b => some (wCmp 0x16 p.val c.code a.code b.code m.code, litSill (a.lits ++ b.lits))
  | .fclass w d a => encVV 0x17 w 0 0 d a
  | .frnd w rm d a => encVV 0x18 w 0 rm.code d a
  | .hadd2 w f d a b => encVVV 0x19 w f.code d a b
  | .hmul2 w f d a b => encVVV 0x1A w f.code d a b
  | .hfma2 w f d a b => encVVV 0x1B w f.code d a b
  | .hmin2 w f d a b => encVVV 0x1C w f.code d a b
  | .hmax2 w f d a b => encVVV 0x1D w f.code d a b
  | .cvt w df sf rm d a => encVV 0x1E w (df.code * 8 + sf.code) rm.code d a
  | .ffmaRm w rm d a b => encVVV 0x1F w rm.code d a b
  | .iaddImm w d imm => some (wImm w 0x20 d.code imm.toNat, 0)
  | .and w d a b => encVVV 0x28 w 0 d a b
  | .or w d a b => encVVV 0x29 w 0 d a b
  | .xor w d a b => encVVV 0x2A w 0 d a b
  | .andn w d a b => encVVV 0x2B w 0 d a b
  | .shl w d a b => encVVV 0x2C w 0 d a b
  | .shr w d a b => encVVV 0x2D w 0 d a b
  | .sar w d a b => encVVV 0x2E w 0 d a b
  | .rotl w d a b => encVVV 0x2F w 0 d a b
  | .bfx w s d a b => encVVV 0x30 w s.toNat d a b
  | .bfi w d a b => encVVV 0x31 w 0 d a b
  | .popc w d a => encVV 0x32 w 0 0 d a
  | .clz w d a => encVV 0x32 w 1 0 d a
  | .brev w d a => encVV 0x32 w 2 0 d a
  | .sadd d a b => encSSS 0x33 0 d a b
  | .ssub d a b => encSSS 0x34 0 d a b
  | .smul d a b => encSSS 0x35 0 d a b
  | .sshl m d a b => encSSS 0x36 m.code d a b
  | .sand d a b => encSSS 0x37 0 d a b
  | .sor d a b => encSSS 0x38 0 d a b
  | .smov d a => some (wBase false 0x39 d.code a.code 0 0, litSill a.lits)
  | .sset p c m a b => some (wCmp 0x3A p.val c.code a.code b.code m.code, litSill (a.lits ++ b.lits))
  | .slea sh d a b => encSSS 0x3B sh.val d a b
  | .smovImm d imm => some (wImm false 0x3C d.code imm.toNat, 0)
  | .saddImm d imm => some (wImm false 0x3D d.code imm.toNat, 0)
  | .bra sel off => some (wBr 0x40 sel.val off.toNat, 0)
  | .brx a => some (wBase false 0x41 0 a.val 0 0, 0)
  | .call sel off => some (wBr 0x42 sel.val off.toNat, 0)
  | .ret => some (wBase false 0x43 0 0 0 0, 0)
  | .split sel off => some (wBr 0x44 sel.val off.toNat, 0)
  | .join => some (wBase false 0x45 0 0 0 0, 0)
  | .brk sel off => some (wBr 0x46 sel.val off.toNat, 0)
  | .loop d len i0 i1 i2 i3 =>
      some (wImm false 0x47 d.code (len.val * 2 ^ 12),
        BitVec.ofNat 32 (i3.code * 2 ^ 24 + i2.code * 2 ^ 16 + i1.code * 2 ^ 8 + i0.code))
  | .xmrd d => some (wBase false 0x48 d.code 0 0 0, 0)
  | .xmwr a => some (wBase false 0x48 0 a.code 1 0, litSill a.lits)
  | .xmand p => some (wBase false 0x48 0 p.val 2 0, 0)
  | .pand d a b => some (wPred d.val a.val b.val 0, 0)
  | .por d a b => some (wPred d.val a.val b.val 1, 0)
  | .pxor d a b => some (wPred d.val a.val b.val 2, 0)
  | .pnot d a => some (wPred d.val a.val 0 3, 0)
  | .pmov d a => some (wPred d.val a.val 0 4, 0)
  | .nop => some (wBase false 0x4A 0 0 0 0, 0)
  | .exit => some (wBase false 0x4A 0 0 1 0, 0)
  | .yield => some (wBase false 0x4A 0 0 2 0, 0)
  | .trap code => some (wBase false 0x4A 0 code.toNat 3 0, 0)
  | .trapHost code => some (wBase false 0x4A 0 code.toNat 4 0, 0)
  | .rtt => some (wBase false 0x4A 0 0 5 0, 0)
  | .bkpt => some (wBase false 0x4A 0 0 6 0, 0)
  | .fence o s => some (wBase false 0x4A 0 (o.code * 8 + s.code) 7 0, 0)
  | .csrr d c => some (wImm false 0x4B d.code c.code, 0)
  | .csrw a c => some (wImm false 0x4C a.code c.code, litSill a.lits)
  | .barArrive d n o => encBar 0x4D 0 d n o
  | .barWait d n o => encBar 0x4D 1 d n o
  | .barSync d n o => encBar 0x4D 2 d n o
  | .waittk m => some (wImm false 0x4E 0 m.toNat, 0)
  | .waitac ac t =>
      match t with
      | .imm v => some (wImm false 0x4F 124 (ac.val * 2 ^ 12 + v.toNat), 0)
      | .reg n => some (wImm false 0x4F n.val (ac.val * 2 ^ 12), 0)
      | .lit x => some (wImm false 0x4F 125 (ac.val * 2 ^ 12), x)
  | .shfl w m d a b => encVVV 0x50 w m.code d a b
  | .vote m d a => some (wBase false 0x51 d.code a.code 0 m.code, litSill a.lits)
  | .lred op d a => some (wBase false 0x52 d.code a.code op.code 0, litSill a.lits)
  | .lscan w op e d a => some (wBase w 0x53 d.code a.code op.code e.toNat, litSill a.lits)
  | .matchLanes w d a => encVV 0x54 w 0 0 d a
  | .reorder w d a b => encVVV 0x55 w 0 d a b
  | .rebal w d a => some (wBase w 0x56 d.val a.code 0 0, litSill a.lits)
  | .elect p => some (wBase false 0x57 p.val 0 0 0, 0)
  | .nzs w d a b => some (wBase w 0x58 d.code a.code b.code 0, litSill a.lits)
  | .sfn w fn tk d a =>
      some (w.toNat * 2 ^ 30 + 0x59 * 2 ^ 23 + d.code * 2 ^ 16 + a.code * 2 ^ 9 + tk.val * 2 ^ 5 + fn.code * 2,
        litSill a.lits)
  | .waitmb m => some (wImm false 0x5A 0 m.toNat, 0)
  | .ldsp d a base ac m => encLoad 0x60 d a base ac m
  | .stsp d a base ac m => encStore 0x61 d a base ac.val m
  | .atsp d a base ac m => encAtom 0x62 d a base ac m
  | .ldds d a base ac m => encLoad 0x63 d a base ac m
  | .stds d a base ac m => encStore 0x64 d a base ac.val m
  | .atds d a base ac m => encAtom 0x65 d a base ac m
  | .lddm d a base ac m => encLoad 0x66 d a base ac m
  | .stdm d a base ac m => encStore 0x67 d a base ac.val m
  | .atdm d a base ac m => encAtom 0x68 d a base ac m
  | .reddm d a base m => encStore 0x69 d a base 0 m
  | .pfdm a base m => some (wMem m.isSome 0x6A 0 a.code base.val 0, memSill m a.lits)
  | .tex d a base ac m =>
      some (wMem m.isSome 0x6B d.val a.val base.val ac.val, (m.map TexMod.word).getD 0)
  | .hgrid d a base ac m =>
      some (wMem m.isSome 0x6C d.val a.val base.val ac.val, (m.map HgMod.word).getD 0)
  | .stpm d a base m => encStore 0x6D d a base 0 m
  | .redpm d a base m => encStore 0x6E d a base 0 m
  | .ldhm d a base ac m => encLoad 0x6F d a base ac m
  | .sthm d a base ac m => encStore 0x70 d a base ac.val m
  | .cld d a base ac m => some (wMem m.isSome 0x71 d.val a.code base.val ac.val, memSill m a.lits)
  | .cst d a base ac m => some (wMem m.isSome 0x72 d.val a.code base.val ac.val, memSill m a.lits)
  | .cbnd d a b => some (wBase false 0x73 d.val a.val b.val 0, 0)
  | .crgt d a b => some (wBase false 0x73 d.val a.val b.code 1, litSill b.lits)
  | .cmov d a => some (wBase false 0x73 d.val a.val 0 2, 0)
  | .cget d a => some (wBase false 0x73 d.val a.val 0 3, 0)
  | .waitmem d a base t =>
      some (wMem t.isSome 0x74 d.code a.code base.val 0,
        match t with
        | some v => v.zeroExtend 32
        | none => litSill a.lits)
  | .spawn d a n => some (wBase false 0x75 d.code a.val n.val 0, litSill d.lits)
  | .mma d a acc ru => some (wBase false 0x76 d.val a.val (acc.toNat * 64 + ru.toNat * 32) 0, 0)
  | .mmas d a acc ru i => some (wBase false 0x77 d.val a.val (acc.toNat * 64 + ru.toNat * 32 + i.val) 0, 0)
  | .mmat d a acc => some (wBase false 0x78 d.val a.val (acc.toNat * 64) 0, 0)
  | .mxq d a h => some (wBase false 0x79 d.val a.val (h.code * 32) 0, 0)
  | .mxrd w d acc g => some (wBase w 0x7A d.val 0 (acc.toNat * 64 + g.val * 16) 0, 0)
  | .mxst a acc => some (wBase false 0x7B 0 a.val (acc.toNat * 64) 0, 0)
  | .mxclr acc => some (wBase false 0x7C 0 0 (acc.toNat * 64) 0, 0)
  | .mxfence => some (wBase false 0x7C 0 0 0 1, 0)
  | .clbarArrive d n o => encBar 0x7D 0 d n o
  | .clbarWait d n o => encBar 0x7D 1 d n o
  | .clbarSync d n o => encBar 0x7D 2 d n o
  | .cpy d a b ac z st => encDie (st.toNat * 16 + z.val) 0 d a b ac
  | .gath d a b ac z st => encDie (st.toNat * 16 + z.val) 1 d a b ac
  | .scat d a b ac z st red =>
      match red with
      | none => encDie (st.toNat * 16 + z.val) 2 d a b ac
      | some op => encDie (512 + op.code * 32 + st.toNat * 16 + z.val) 2 d a b ac
  | .route d a b ac z st => encDie (st.toNat * 16 + z.val) 3 d a b ac
  | .chain d a b ac o i st => encDie (st.toNat * 16 + o.code * 4 + i.code) 4 d a b ac
  | .vpin d a ac => encPkg 0 0 (statusCode d) a.val 0 ac.val
  | .vrel a b ac => encPkg 0 1 0 a.val b.code ac.val
  | .vpub d a b ac => encPkg 0 2 (statusCode d) a.val b.val ac.val
  | .skupd d a b => encPkg 0 3 d.val a.code b.code 0
  | .skqry d a b ac => encPkg 0 4 d.val a.code b.val ac.val
  | .skadd d a ac => encPkg 0 5 d.val a.val 0 ac.val
  | .skclr d ac => encPkg 0 6 d.val 0 0 ac.val
  | .raycast d a b ac c => encPkg c.code 7 d.val a.val b.val ac.val
  | .atmass d a b => encPkg 0 8 d.val a.code b.code 0
  | .evict d a ac => encPkg 0 9 (statusCode d) a.val 0 ac.val
  | .posrd d a b ac => encPkg 0 10 d.val a.val b.val ac.val
  | .launch p a ac => encPkg 0 11 p.val a.val 0 ac.val
  | .evsig a b => encPkg 0 12 0 a.code b.code 0
  | .coll op d a ac => encPkg op.code 13 (statusCode d) a.val 0 ac.val
  | .packetFetch _ | .loopBufferRefetch _ | .stackSaveAccessDone _ | .sfnComplete _ _ | .slotGrant _
  | .displacement _ | .residencyQuantumTick _ | .paneSaveComplete _ | .paneRestore _ | .teamRestore _ _
  | .writeApply _ _ | .waitmemTimeout _ | .waitmemFinalRead _ | .spawnBinTimer _ _ | .paneFormation _
  | .memoryReply _ | .cldReply _ | .storeAcceptance _ | .storePerform _ | .matrixTileStep _ _ _ | .mxqUnit _ _
  | .mxrdUnit _ _ | .mxstUnit _ _ | .mxclrUnit _ _ | .matrixWatchdog _ _ | .mxrst _ _ | .dsRequest _
  | .meshFlitFailure _ _ | .clstatReset _ _ | .memoryPortAccess _ | .engineCommandStart _ _ | .engineChunk _ _ _
  | .pageResponse _ _ | .pageRequestTimeout _ | .engineCommandComplete _ _ _ | .engineBlockHang _ _
  | .engstatReset _ _ | .dieLinkFailure _ _ | .genRaise _ | .genAdoption _ | .channelAccess _ _ _ _ _ _
  | .parityDelta _ _ | .dupInvalidation _ _ _ | .dupInvalidationAck _ _ | .publicationCommand _ | .rdxRequest _ _
  | .sketchCommand _ | .raycastDispatch _ _ | .rayMessageArrival _ _ | .trvBatchStart _ | .trvBatchEnd _
  | .rayFinalRecord _ _ | .horizonSend _ | .horizon _ _ | .rayContextRelease _ _ | .trvHang _ | .horizonTimeout _ _
  | .trvReset _ | .trvringWrite _ _ | .filterRequest _ | .evictPerform _ | .conditionalPublication _
  | .posrdPerform _ | .eveHang _ | .eveReset _ | .wqtailWrite _ _ | .gridStart _ | .launchAccept _ _
  | .teamPlacement _ | .gridRetirement _ | .eventCounterWrite _ _ | .bandwidthTick | .contextSwitchOut _
  | .contextSwitchComplete _ | .corectxPartWrite _ _ | .flitReceive _ _ | .linkRetryRequest _ _ | .idleFlit _
  | .sealedMessage _ _ | .windowUpdate _ _ _ | .pmRequest _ | .pmAck _ | .pmFailureReport _ _ _ | .collStart _
  | .collContribution _ | .collComplete _ | .collTimeout _ | .lnkengReset _ | .hostCompletion _ _
  | .hostCompletionTimeout _ | .getVersion | .getCapabilities | .negotiateAlgorithms _ | .getDigests
  | .getCertificate _ _ _ | .challenge _ _ | .getMeasurements _ _ _ | .keyExchange _ | .finish _ _ _
  | .endSession _ | .ideKm _ | .lockInterface _ | .stopInterface _ | .powerOn _ | .panecmdResume _ _ _ _
  | .panecmdExit _ _ _ _ | .thermalWarning _ _ | .thermalFreeze _ _ | .thermThaw _ _ | .droop _ _ | .lifetimeFlush
  | .orderlyShutdown | .lifectlGo | .lifetimeExportDone _ | .registerWrite _ _ _ | .linkTraining _
  | .startInterface _ | .hostWrite _ _ | .powerLoss => none

end Sys2Proof
end

