-- ==== Sys2Proof/Machine/Fetch.lean ====
section
/-! DEFINITION. Reading packets (R27, R29), the loop buffer (R108 to R110), and the end of a chained group (R30, R31). -/

namespace Sys2Proof.Machine

/-- The packet sixteen bytes hold (R27). -/
def Packet.ofBytes (pkt : BitVec 52) (b : List Byte) : Packet :=
  let x := Machine.ofBytes b
  { addr := pkt, w0 := wordOfNat x, w1 := wordOfNat (x / 2 ^ 32), w2 := wordOfNat (x / 2 ^ 64), sill := wordOfNat (x / 2 ^ 96) }

/-- R29: a fetch is held at an extent that is not resident or is migrating, and fails only on a failure response. -/
def Pane.fetchVia (p : Pane) : Via :=
  { who := .fetch p.pid, die := dieOf p.core, part := p.part, hold := true, again := true, core := some p.core }

/-- R29: a packet read through the object table under the grid's key, without a capability check. -/
def State.readPacket (s : State) (v : Via) (pkt : BitVec 52) : State × PRes Packet :=
  match s.unitTrans v (pkt.toNat * 16) with
  | (s, .wait) => (s, .wait)
  | (s, .fail c) => (s.forget v.who, .fail c)
  | (s, .ok p) =>
      match s.physRead false v.part p.1 16 p.2 with
      | (s, none) => (s.forget v.who, .fail .poisoned)
      | (s, some b) => (s.forget v.who, .ok (Packet.ofBytes pkt b))

/-- The values a packet's LOOP word gives its loop entry (R108, R109); a field that R109 refuses gives none (log entry 17). -/
def Packet.loop (k : Packet) : Option LoopBuf :=
  [k.w0, k.w1, k.w2].findSome? (fun w =>
    match decodeWord w.toNat k.sill with
    | .ok (.loop _ len a b c d) => if [a, b, c, d].any LoopInc.isBad then none else some ⟨k.addr + 1, len.val + 1, [a, b, c, d]⟩
    | _ => none)

/-- The level of a loop entry (R108). -/
def Entry.level (e : Entry) : Bool := bit e.aux 16

/-- The loop buffer of a level. -/
def Pane.lbuf (p : Pane) (level : Bool) : Option LoopBuf := if level then p.lbuf1 else p.lbuf0

def Pane.setLbuf (p : Pane) (level : Bool) (b : Option LoopBuf) : Pane :=
  if level then { p with lbuf1 := b } else { p with lbuf0 := b }

/-- An entry read back from the save area, below those on chip; the buffer holds the values of a loop entry no longer (R22, R110). -/
def Pane.refilled (p : Pane) (e : Entry) : Pane :=
  let p := if e.kind = .loop then p.setLbuf e.level none else p
  { p with stack := p.stack ++ [e] }

/-- The values the buffer holds for a loop entry. -/
def Pane.loopHeld (p : Pane) (e : Entry) : Option LoopBuf :=
  match p.lbuf e.level with
  | some b => if b.pkt = e.pkt then some b else none
  | none => none

/-- What the loop buffer gives for a loop entry: its values; a wait; or the detail and cause of the trap of R110, rule 9,
and of R29 for the packet it fetches (log entry 17). -/
inductive LoopVals where
  | ok (b : LoopBuf)
  | wait
  | bad (cause : BitVec 8) (detail : Word)
  deriving DecidableEq, Repr

/-- R110, rule 8: the values of a loop entry, fetched again where the buffer does not hold them. -/
def State.loopValues (s : State) (e : Entry) : State × LoopVals :=
  match s.pane.loopHeld e with
  | some b => (s, .ok b)
  | none =>
      match s.readPacket s.pane.fetchVia (e.pkt - 1) with
      | (s, .wait) => (s, .wait)
      | (s, .fail _) => (s, .bad cPacket 1)
      | (s, .ok k) =>
          match k.loop with
          | none => (s, .bad cIllegal 3)
          | some b => (onPane (fun p => p.setLbuf e.level (some b)) s, .ok b)

/-- Whether a packet lies in a body. -/
def LoopBuf.has (b : LoopBuf) (pkt : BitVec 52) : Bool := decide ((pkt - b.pkt).toNat < b.len)

/-- R109: an increment field applied. -/
def Pane.incr (p : Pane) (i : LoopInc) : Pane :=
  match i with
  | .none => p
  | .addNext r => p.sset r.val (p.sreg r.val + p.sreg (r.val + 1))
  | .inc r => p.sset r.val (p.sreg r.val + 1)
  | .dec r => p.sset r.val (p.sreg r.val - 1)
  | .bad _ => p

/-- R110, rule 6: a branch to a packet outside the body pops a loop entry that is on top, XM as it is. The entry below
`k` others is the one tested (0 for a branch, 1 for an RTT, whose own entry goes first; log entry 18); none where a fetch must be
waited for. -/
def State.leaves (s : State) (k : Nat) (pc : BitVec 56) : State × Option Bool :=
  match s.pane.stack[k]? with
  | none => (s, some false)
  | some e =>
      if e.kind = .loop then
        match s.loopValues e with
        | (s, .ok b) => (s, some (!b.has (pcPkt pc)))
        | (s, .wait) => (s, none)
        | (s, .bad _ _) => (s, some false)
      else (s, some false)

/-- What the end of a group at slot 2 of a packet leads to: the packet issue goes on at; a wait for a fetch; a trap of
R110 at the word the pane would issue next; a pop, at a depth, that must wait for its refill or cannot be made. -/
inductive PassEnd where
  | done (pkt : Option (BitVec 52))
  | wait
  | bad (cause : BitVec 8) (detail : Word) (pkt : Option (BitVec 52))
  | pop (deep : Nat)
  | slot (detail : Word)
  deriving DecidableEq, Repr

/-- AUX with the remaining trip count replaced. -/
def auxTrip (aux : Word) (n : BitVec 16) : Word := (aux &&& 0xFFFF0000) ||| n.setWidth 32

/-- R110, rules 1 to 5 and 7: sequential flow has left slot 2 of a packet. `n` bounds the nesting. -/
def passEnd (s : State) (n : Nat) (pkt : BitVec 52) (t : Option (BitVec 52)) : State × PassEnd :=
  match n with
  | 0 => (s, .done t)
  | n + 1 =>
      match s.pane.stack with
      | [] => (s, .done t)
      | e :: rest =>
          if e.kind ≠ .loop then (s, .done t)
          else
            match s.loopValues e with
            | (s, .wait) => (s, .wait)
            | (s, .bad c d) => (s, .bad c d t)
            | (s, .ok b) =>
                if b.pkt + BitVec.ofNat 52 b.len - 1 ≠ pkt then (s, .done t)
                else
                  let trip : BitVec 16 := e.aux.setWidth 16 - 1
                  if trip ≠ 0 then
                    (onPane (fun p =>
                      { b.incs.foldl Pane.incr p with stack := { e with aux := auxTrip e.aux trip } :: rest }) s, .done (some b.pkt))
                  else if !(popReady 1 s).2 then (s, .pop s.pane.deep)
                  else if e.slot = 3 then (s, .slot (wordOfNat (pcOf e.pkt e.slot)))
                  else
                    passEnd (onPane (fun p => { (b.incs.foldl Pane.incr p).pop with xm := e.mask }) s) n pkt
                      (some (b.pkt + BitVec.ofNat 52 b.len))

/-- The pc set, the pane's buffered packet dropped where control was transferred. -/
def goTo (pc : BitVec 56) (s : State) : State :=
  onPane (fun p => { p with pc := pc, nextPc := none, ibuf := none }) s

/-- A pop at a depth that the group's last word has led to waits for its refill, or traps, at that word (R22). -/
def popWait (deep : Nat) (last : State) : State := (popReady (last.pane.deep + 1 - deep) last).1

/-- The end of a group (R30, R31, R110, R114). `start` is the state at the turn's start, `last` the state before the
group's last word: a group whose end must wait for a fetch does not issue. -/
def finishGroup (start last s : State) : State :=
  let p := s.pane
  if p.exiting then s.endPane p.pid
  else
    match p.nextPc with
    | some pc => goTo pc s
    | none =>
        if pcSlot s.after ≠ 0 then onPane (fun p => { p with pc := s.after }) s
        else
          match passEnd s p.deep (pcPkt s.after - 1) none with
          | (t, .done none) => onPane (fun p => { p with pc := s.after }) t
          | (t, .done (some k)) => goTo (mkPc k 0) t
          | (_, .wait) =>
              match start.pane.stack.find? (fun e => e.kind == .loop && (start.pane.loopHeld e).isNone) with
              | some e => held (start.loopValues e).1
              | none => held start
          | (t, .bad c d none) => takeTrap c d (onPane (fun p => { p with pc := s.after }) t)
          | (t, .bad c d (some k)) => takeTrap c d (goTo (mkPc k 0) t)
          | (_, .pop d) => popWait d last
          | (_, .slot d) => takeTrap cTarget d last

/-- R110, rule 8, before a turn's group: a loop entry that has become the top entry has its values fetched. The flag
says that the turn goes on. -/
def loopTurn (s : State) : State × Bool :=
  match s.pane.stack.head? with
  | none => (s, true)
  | some e =>
      if e.kind ≠ .loop then (s, true)
      else
        match s.loopValues e with
        | (s, .ok _) => (s, true)
        | (s, .wait) => (s, false)
        | (s, .bad c d) => (takeTrap c d s, false)

/-- R29: the packet at the pc fetched into the pane's buffer; the flag says that the turn goes on. -/
def fetchTurn (s : State) : State × Bool :=
  let p := s.pane
  match p.ibuf with
  | some k => if k.addr = pcPkt p.pc then (s, true) else fetch s
  | none => fetch s
where
  fetch (s : State) : State × Bool :=
    match s.readPacket s.pane.fetchVia (pcPkt s.pane.pc) with
    | (s, .wait) => (s, false)
    | (s, .fail _) => (onPane (fun p => { p with ibuf := some ⟨pcPkt p.pc, 0, 0, 0, 0, true⟩ }) s, true)
    | (s, .ok k) => (onPane (fun p => { p with ibuf := some k }) s, true)

end Sys2Proof.Machine
end

