-- ==== Sys2Proof/Machine/Control.lean ====
section
/-! DEFINITION. The control words: branches, calls, divergent regions, the loop buffer, masks, predicates, control
registers, traps and waits for tokens (R100 to R114, R124, R126 to R130). -/

namespace Sys2Proof.Machine

/-- R40: a branch target, at slot 0. -/
def Pane.target (p : Pane) (off : BitVec 20) : BitVec 56 := mkPc (pcPkt p.pc + off.signExtend 52) 0

/-- The lanes a selector gives: XM for selector 7, whose predicate is all ones (R40, R12). -/
def Pane.selLanes (p : Pane) (sel : PReg) : Word := p.xm &&& p.preg sel.val

/-- A branch that leaves a loop body pops its entry (R110, rule 6). -/
def jump (pc : BitVec 56) (s : State) : State :=
  match s.leaves 0 pc with
  | (s, none) => held s
  | (s, some true) =>
      match s.pane.stack with
      | e :: _ => popThen 1 e (onPane (fun p => setNext pc p.pop)) s
      | [] => onPane (setNext pc) s
  | (s, some false) => onPane (setNext pc) s

/-- R101: BRA. -/
def execBra (sel : PReg) (off : BitVec 20) (s : State) : Out :=
  .next (if sel.val = 7 ∨ s.pane.selLanes sel ≠ 0 then jump (s.pane.target off) s else s)

/-- R102: BRX. -/
def execBrx (a : Fin 63) (s : State) : Out :=
  let lo := s.pane.sreg a.val
  let pc : BitVec 56 := lo.setWidth 56 ||| ((s.pane.sreg (a.val + 1)).setWidth 56 <<< 32)
  .next (if bits lo 0 2 ≠ 0 then takeTrap cAlign lo s
    else if bits lo 2 2 = 3 then takeTrap cTarget lo s
    else jump pc s)

/-- R103: CALL. -/
def execCall (sel : PReg) (off : BitVec 20) (s : State) : Out :=
  let p := s.pane
  let k := p.selLanes sel
  if sel.val ≠ 7 ∧ k = 0 then .next s
  else
    match pushEntry { mask := p.xm, pkt := pcPkt s.after, slot := pcSlot s.after, kind := .call } s with
    | (s, false) => .next s
    | (s, true) => done (fun p => setNext (p.target off) { p with xm := k }) s

/-- A word that requires a top entry of one kind (R107). -/
def withTop (k : EntryKind) (f : Entry → State → State) (s : State) : State :=
  match s.pane.stack with
  | e :: _ => if e.kind = k then f e s else takeTrap cTarget (mismatch k) s
  | [] => takeTrap cTarget (mismatch k) s

/-- R103: RET. -/
def execRet (s : State) : Out :=
  .next (withTop .call (fun e => popThen 1 e
    (onPane (fun p => setNext (mkPc e.pkt e.slot) { p.pop with xm := e.mask }))) s)

/-- R104: SPLIT. -/
def execSplit (sel : PReg) (off : BitVec 20) (s : State) : Out :=
  let p := s.pane
  let t := p.selLanes sel
  let f := p.xm &&& ~~~t
  let tgt := p.target off
  match pushEntry { mask := p.xm, pkt := pcPkt tgt, slot := 0, kind := .join, aux := if t ≠ 0 then f else 0 } s with
  | (s, false) => .next s
  | (s, true) => if t ≠ 0 then done (fun p => { p with xm := t }) s else done (fun p => setNext tgt { p with xm := f }) s

/-- The top entry replaced. -/
def Pane.setTop (p : Pane) (e : Entry) : Pane := { p with stack := e :: p.stack.tail }

/-- The deferred lanes of a join entry start at its PKT and SLOT (R105, R106). -/
def startDeferred (e : Entry) (s : State) : State :=
  if e.slot = 3 then takeTrap cTarget (wordOfNat (pcOf e.pkt e.slot)) s
  else onPane (fun p => setNext (mkPc e.pkt e.slot) { p.setTop { e with aux := 0 } with xm := e.aux }) s

/-- R105: JOIN. -/
def execJoin (s : State) : Out :=
  .next (withTop .join (fun e => if e.aux ≠ 0 then startDeferred e
    else popThen 1 e (onPane (fun p => { p.pop with xm := e.mask }))) s)

/-- R106, a loop entry: the loop ends at the packet after its body, and with it the pass of an outer loop whose body ends at the
same packet (R110, rule 4). A loop below whose values cannot be had is left to the pane's next turn. -/
def breakLoop (e : Entry) (s : State) : State :=
  match s.loopValues e with
  | (s, .ok b) =>
      let next := b.pkt + BitVec.ofNat 52 b.len
      popThen 1 e (fun s =>
        match passEnd (onPane (fun p => { p.pop with xm := e.mask }) s) s.pane.deep (next - 1) (some next) with
        | (t, .done k) | (t, .bad _ _ k) => onPane (setNext (mkPc (k.getD next) 0)) t
        | (_, .wait) => held (match s.pane.stack.tail.head? with
            | some o => (s.loopValues o).1
            | none => s)
        | (_, .pop d) => popWait d s
        | (_, .slot d) => takeTrap cTarget d s) s
  | (s, .wait) => held s
  | (s, .bad c d) => takeTrap c d s

/-- R106: BRK. -/
def execBrk (sel : PReg) (off : BitVec 20) (s : State) : Out :=
  let p := s.pane
  let x := p.xm &&& ~~~p.preg sel.val
  if x ≠ 0 then done (fun p => { p with xm := x }) s
  else
    match p.stack with
    | [] => .next (takeTrap cTarget (mismatch .loop) s)
    | e :: _ =>
        match e.kind with
        | .join => if e.aux ≠ 0 then .next (startDeferred e s)
            else done (fun p => setNext (p.target off) { p with xm := 0 }) s
        | .loop => .next (breakLoop e s)
        | _ => .next (takeTrap cTarget (mismatch .loop) s)

/-- R108: LOOP; an increment field that R109 refuses traps before the entry below is looked at (DESIGN CHOICE, log entry 18). -/
def execLoop (d : SOpt) (len : Fin 16) (i0 i1 i2 i3 : LoopInc) (s : State) : Out :=
  let p := s.pane
  let top := p.stack.head?
  let inner : Bool := top.any (fun e => e.kind == .loop)
  if [i0, i1, i2, i3].any LoopInc.isBad then .next (takeTrap cIllegal s.word s)
  else if top.any (fun e => e.kind == .loop && e.level) then .next (takeTrap cIllegal 2 s)
  else
    let first := pcPkt p.pc + 1
    let trip := min (uns (d.val p)) 65535
    if trip = 0 then done (setNext (mkPc (first + BitVec.ofNat 52 (len.val + 1)) 0)) s
    else
      match pushEntry { mask := p.xm, pkt := first, slot := 0, kind := .loop,
                        aux := wordOfNat (trip + (if inner then 2 ^ 16 else 0)) } s with
      | (s, false) => .next s
      | (s, true) => done (fun p => setNext (mkPc first 0)
          (p.setLbuf inner (some ⟨first, len.val + 1, [i0, i1, i2, i3]⟩))) s

/-- R111: XMRD. -/
def execXmrd (d : SDst) (s : State) : Out := done (fun p => d.write p p.xm) s

/-- R111: XMWR. -/
def execXmwr (a : SSrc) (s : State) : Out := done (fun p => { p with xm := a.val p }) s

/-- R111: XMAND. -/
def execXmand (q : PReg) (s : State) : Out := done (fun p => { p with xm := p.xm &&& p.preg q.val }) s

/-- R112: PAND. -/
def execPand (d a b : PReg) (s : State) : Out := done (fun p => p.pset d.val (p.preg a.val &&& p.preg b.val)) s

/-- R112: POR. -/
def execPor (d a b : PReg) (s : State) : Out := done (fun p => p.pset d.val (p.preg a.val ||| p.preg b.val)) s

/-- R112: PXOR. -/
def execPxor (d a b : PReg) (s : State) : Out := done (fun p => p.pset d.val (p.preg a.val ^^^ p.preg b.val)) s

/-- R112: PNOT. -/
def execPnot (d a : PReg) (s : State) : Out := done (fun p => p.pset d.val (~~~p.preg a.val)) s

/-- R112: PMOV. -/
def execPmov (d a : PReg) (s : State) : Out := done (fun p => p.pset d.val (p.preg a.val)) s

/-- R114: NOP. -/
def execNop (s : State) : Out := .next s

/-- R114: EXIT ends the pane at the end of its group. -/
def execExit (s : State) : Out := done (fun p => { p with exiting := true }) s

/-- R114: YIELD gives up the slot; the rest of its group issues when the pane holds a slot again. -/
def execYield (s : State) : Out :=
  if s.pane.wait = .begun then done (fun p => { p with wait := .none }) s
  else .next (ended ((onPane (fun p => { p.leave .ready s.cycle with wait := .begun }) s).enqueue s.pane.pid))

/-- R130: TRAP. -/
def execTrap (code : BitVec 7) (s : State) : Out := .next (takeTrap cTrap (code.setWidth 32) s)

/-- R130: TRAP.HOST parks the pane; the rest of its group issues when it is resumed. -/
def execTrapHost (code : BitVec 7) (s : State) : Out :=
  if s.pane.wait = .begun then done (fun p => { p with wait := .none }) s
  else .next ((s.hostRecord (code.setWidth 32) none false).hostPark false false)

/-- R130: BKPT. -/
def execBkpt (s : State) : Out := .next (takeTrap cBkpt 0 s)

/-- R129: RTT. -/
def execRtt (s : State) : Out :=
  .next (withTop .trap (fun e s =>
    match s.leaves 1 (rttTarget e) with
    | (s, some b) => returnTrap e b s
    | (s, none) => held s) s)

/-- R17, R20, R113: the value a register of the pane reads as. -/
def State.csr (s : State) (c : Csr) : Word :=
  let p := s.pane
  match c with
  | .xstat => p.xstat
  | .xctl => p.xctl
  | .trapvecL => p.trapvecL
  | .trapvecH => p.trapvecH
  | .stksaveL => p.stksaveL
  | .stksaveH => p.stksaveH
  | .stklim => p.stklim
  | .stkdep => wordOfNat p.deep
  | .bconf => p.bconf
  | .paneinfo => paneInfo p
  | .teamid => wordOfNat p.team
  | .gridid => wordOfNat p.grid
  | .spds => wordOfNat (s.spds p)

/-- R113: CSRR. -/
def execCsrr (d : SDst) (c : Csr) (s : State) : Out := done (fun p => d.write p (s.csr c)) s

/-- R17: whether a write is refused while the stack reaches into the save area. -/
def csrLocked : Csr → Bool
  | .stksaveL | .stksaveH | .stklim => true
  | _ => false

/-- R17, R18, R19, R113: a write under the register's access codes; reserved fields stay 0. -/
def Pane.setCsr (p : Pane) (c : Csr) (x : Word) : Pane :=
  match c with
  | .xstat => { p with xstat := p.xstat &&& ~~~x }
  | .xctl => { p with xctl := x &&& 3 }
  | .trapvecL => { p with trapvecL := x &&& 0xFFFFFFF0 }
  | .trapvecH => { p with trapvecH := x &&& 0xFFFFFF }
  | .stksaveL => { p with stksaveL := x &&& 0xFFFFFFF0 }
  | .stksaveH => { p with stksaveH := x &&& 0xFFFFFF }
  | .stklim => { p with stklim := wordOfNat (min (bits x 0 13) 4096) }
  | .bconf => { p with bconf := x }
  | .stkdep | .paneinfo | .teamid | .gridid | .spds => p

/-- R113: CSRW. -/
def execCsrw (a : SSrc) (c : Csr) (s : State) : Out :=
  if csrLocked c ∧ 16 < s.pane.deep then .next (takeTrap cOperand s.word s)
  else done (fun p => p.setCsr c (a.val p)) s

/-- A word that waits (R31): its first issue ends the turn; it completes on a later turn in which its condition holds. -/
def waitFor (cond : State → Bool) (f : State → State) (s : State) : Out :=
  if s.pane.wait = .begun ∧ cond s = true then .next (f (onPane (fun p => { p with wait := .none }) s))
  else .next (ended (onPane (fun p => { p with wait := .begun }) s))

def Tok.pendingIn : Tok → Bool
  | .pending _ _ _ _ => true
  | _ => false

/-- R124: WAITTK. -/
def execWaittk (mask : BitVec 16) (s : State) : Out :=
  let named := fun (i : Nat) => mask.getLsbD i
  waitFor (fun s => (List.range 16).all (fun i => !(named i && (s.pane.tk.getD i .free).pendingIn)))
    (onPane (fun p => { p with tk := (List.range 16).map (fun i => if named i then .free else p.tk.getD i .free) })) s

end Sys2Proof.Machine
end

