-- ==== Sys2Proof/Machine/Memory.lean ====
section
/-! DEFINITION. The memory and capability words at issue: capabilities, checks, spaces, counters and the requests they
send (R154 to R181), and FENCE and WAITAC (R238, R176, R177). -/

namespace Sys2Proof.Machine

/-! ### Capabilities (R154 to R158) -/

def Cap.base (c : Cap) : Nat := (c.bits.extractLsb' 0 56).toNat
def Cap.len (c : Cap) : Nat := (c.bits.extractLsb' 56 40).toNat
def Cap.rights (c : Cap) : BitVec 8 := c.bits.extractLsb' 96 8
def Cap.key (c : Cap) : Nat := (c.bits.extractLsb' 104 8).toNat
def Cap.obj (c : Cap) : Nat := (c.bits.extractLsb' 112 16).toNat

/-- Rights (R155). -/
def rR : BitVec 8 := 0x01
def rW : BitVec 8 := 0x02
def rX : BitVec 8 := 0x04
def rA : BitVec 8 := 0x08
def rD : BitVec 8 := 0x10
def rLC : BitVec 8 := 0x20
def rSC : BitVec 8 := 0x40
def rG : BitVec 8 := 0x80

/-- R158: the detail word. -/
def memDetail (key : Bool) (missing : BitVec 8) (reg lane : Nat) : Word :=
  wordOfNat (lane % 32 + reg % 32 * 2 ^ 5 + missing.toNat * 2 ^ 10 + (if key then 2 ^ 18 else 0))

/-- A trap that a check decides: cause and detail. -/
abbrev Chk := Option (BitVec 8 × Word)

/-- The first of two checks that fails. -/
def Chk.or (a b : Chk) : Chk := a.orElse (fun _ => b)

def chkTag (c : Cap) (reg : Nat) : Chk := if c.tag then none else some (cTag, memDetail false 0 reg 0)

/-- R156: the core holds the key ID of the partition it runs, which is the partition's number (R259). -/
def chkKey (part : Nat) (c : Cap) (reg : Nat) : Chk :=
  if c.key = part then none else some (cRights, memDetail true 0 reg 0)

def chkRights (c : Cap) (need : BitVec 8) (reg : Nat) : Chk :=
  if need &&& ~~~c.rights = 0 then none else some (cRights, memDetail false (need &&& ~~~c.rights) reg 0)

/-- Kinds 1 to 3 of R157. -/
def chkCap (part : Nat) (c : Cap) (need : BitVec 8) (reg : Nat) : Chk :=
  (chkTag c reg).or ((chkKey part c reg).or (chkRights c need reg))

/-- Kind 4: every address a multiple of the size; the lowest lane that fails. -/
def chkAlign (lanes : List Nat) (addr : Nat → Nat) (size reg : Nat) : Chk :=
  (lanes.find? (fun L => addr L % size != 0)).map (fun L => (cAlign, memDetail false 0 reg L))

/-- Kind 5, for a test of bounds. -/
def chkBounds (lanes : List Nat) (ok : Nat → Bool) (reg : Nat) : Chk :=
  (lanes.find? (fun L => !ok L)).map (fun L => (cBounds, memDetail false 0 reg L))

/-! ### Addresses (R162) -/

/-- The offset of a lane, by P. -/
def laneOff (p : Pane) (m : MMod) (a : VSrc) (L : Nat) : Nat :=
  if m.p then
    match a with
    | .reg n => uns (p.vreg n.val L) + uns (p.vreg (n.val + 1) L) * 2 ^ 32
    | a => uns (a.val p L)
  else uns (a.val p L)

/-- off · scale. -/
def scaled (p : Pane) (m : MMod) (a : VSrc) (L : Nat) : Nat := laneOff p m a L * 2 ^ m.scale.val

/-- SP and DS: the address from a uniform base register. -/
def addrS (p : Pane) (m : MMod) (a : VSrc) (base L : Nat) : Nat := uns (p.sreg base) + scaled p m a L

/-- DM, PM and HM: the address from a capability. -/
def addrC (p : Pane) (m : MMod) (a : VSrc) (c : Cap) (L : Nat) : Nat := c.base + scaled p m a L

/-- The checks of an SP word. -/
def State.chkSp (s : State) (m : MMod) (a : VSrc) (base : Nat) : Chk :=
  let p := s.pane
  (chkAlign p.lanes (addrS p m a base) m.size.bytes base).or
    (chkBounds p.lanes (fun L => decide (addrS p m a base L + m.size.bytes ≤ s.scratch p)) base)

/-- R162: whether a DS address lies in a slice the partition may name. -/
def State.dsOk (s : State) (part addr size : Nat) : Bool :=
  decide (addr + size ≤ 2 ^ 30) && decide (addr / 2 ^ 19 % 32 ≤ 23) &&
    (s.part part).groups.getLsbD (groupOf (addr / 2 ^ 24))

def State.chkDs (s : State) (m : MMod) (a : VSrc) (base : Nat) : Chk :=
  let p := s.pane
  (chkAlign p.lanes (addrS p m a base) m.size.bytes base).or
    (chkBounds p.lanes (fun L => s.dsOk p.part (addrS p m a base L) m.size.bytes) base)

/-- The checks of a word through a capability. -/
def State.chkC (s : State) (m : MMod) (a : VSrc) (reg : Nat) (need : BitVec 8) : Chk :=
  let p := s.pane
  let c := p.creg reg
  (chkCap p.part c need reg).or
    ((chkAlign p.lanes (addrC p m a c) m.size.bytes reg).or
      (chkBounds p.lanes (fun L => decide (scaled p m a L + m.size.bytes ≤ c.len)) reg))

/-! ### Sending a request -/

/-- A request of the word at the pane's pc. -/
def State.mkReq (s : State) (kind : ReqKind) (space : Space) (op : Nat) (m : MMod) : Req :=
  let p := s.pane
  { rid := s.nextRid, kind := kind, space := space, pid := p.pid, core := p.core, part := p.part, grid := p.grid,
    team := p.team, pord := p.pord, pkt := pcPkt p.pc, slot := pcSlot p.pc, op := op, size := m.size.bytes,
    regs := m.size.regs, sx := m.sx, aop := m.opc, acq := m.ord == .acq || m.ord == .ar,
    rel := m.ord == .rel || m.ord == .ar, sys := m.scope == .sys, st := m.st, xm := p.xm }

/-- Whether a word that carries .REL or .AR may issue (R167, R238). -/
def State.relReady (s : State) (r : Req) : Bool :=
  !r.rel || (s.quiet s.pane.pid s.nextRid && (!r.sys || s.quietSys s.pane.pid s.nextRid))

/-- Whether there is room for a request: a counter below 255 (R17), a free store-origin entry (R179). -/
def State.room (s : State) (r : Req) : Bool :=
  !(r.ac.any (fun k => s.pane.acFull k)) && (!r.entry || decide (s.originUsed s.pane.core < 64))

/-- The counter of a word that carries one (R175). -/
def Pane.acUp? (p : Pane) (k : Option (Fin 16)) : Pane :=
  match k with
  | some k => p.acUp k
  | none => p

/-- The request leaves. -/
def State.sendReq (s : State) (r : Req) (stale : Bool) : State :=
  onPane (fun p => (p.acUp? r.ac).stale stale) { s with reqs := Tab.set s.reqs s.nextRid r, nextRid := s.nextRid + 1 }

/-- A checked memory word: it traps, finds no room and does not issue, or sends its request. A .REL or .AR word that fails its
checks traps before its earlier accesses are accepted or landed (log entry 74, DEDUCED). -/
def State.startReq (s : State) (c : Chk) (r : Req) (stale : Bool) : State :=
  match c with
  | some (cause, detail) => takeTrap cause detail s
  | none => if s.relReady r && s.room r then s.sendReq r stale else held s

/-- A memory word: one that names lanes does nothing with XM = 0 (R157); a fence may hold it (R238). -/
def memWord (lanewise : Bool) (s : State) (k : State → State) : Out :=
  if lanewise && s.pane.xm == 0 then .next s
  else if !s.memMayIssue then .next (held s)
  else .next (k s)

/-- The lanes of a load, or of an access whose data are given. -/
def mkLanes (p : Pane) (addr : Nat → Nat) (data : Nat → List Byte) : List Lane :=
  p.lanes.map (fun L => { lane := L, addr := addr L, data := data L, mask := (1 : Word) <<< L })

/-- The bytes of a store in a lane: the run from a register, low register at the low bytes (R165). -/
def runBytes (p : Pane) (d : VSrc) (n L : Nat) : List Byte :=
  match d with
  | .reg r => ((List.range ((n + 3) / 4)).map (fun i => toBytes 4 (p.vreg (r.val + i) L).toNat)).flatten.take n
  | d => (toBytes 4 (d.val p L).toNat).take n

/-- The operand of an atomic: the run from vD (R168). -/
def atomBytes (p : Pane) (m : MMod) (d : VDst) (L : Nat) : List Byte :=
  match d with
  | .reg r => runBytes p (.reg r) (4 * atomRegs m) L
  | .discard => List.replicate (4 * atomRegs m) 0

def VDst.num : VDst → Option Nat
  | .reg n => some n.val
  | .discard => none

/-! ### Scratchpad and distributed SRAM -/

/-- R165: LDSP. -/
def execLdsp (d : Fin 120) (a : VSrc) (base : Fin 32) (ac : Fin 16) (m : Option MMod) (s : State) : Out :=
  let m := modOf m
  memWord true s (fun s => s.startReq (s.chkSp m a base.val)
    { s.mkReq .load .sp 0x60 m with
      d := some d.val, ac := some ac, lanes := mkLanes s.pane (addrS s.pane m a base.val) (fun _ => []) } (a.stale s.pane))

/-- R165: STSP. -/
def execStsp (d a : VSrc) (base : Fin 32) (ac : Fin 16) (m : Option MMod) (s : State) : Out :=
  let m := modOf m
  memWord true s (fun s => s.startReq (s.chkSp m a base.val)
    { s.mkReq .store .sp 0x61 m with
      ac := some ac,
      lanes := mkLanes s.pane (addrS s.pane m a base.val) (runBytes s.pane d m.size.bytes) }
    (d.stale s.pane || a.stale s.pane))

/-- R168: ATSP. -/
def execAtsp (d : VDst) (a : VSrc) (base : Fin 32) (ac : Fin 16) (m : Option MMod) (s : State) : Out :=
  let m := modOf m
  memWord true s (fun s => s.startReq (s.chkSp m a base.val)
    { s.mkReq .atomic .sp 0x62 m with
      d := VDst.num d, ac := some ac,
      lanes := mkLanes s.pane (addrS s.pane m a base.val) (atomBytes s.pane m d) } (a.stale s.pane))

/-- R165: LDDS. -/
def execLdds (d : Fin 120) (a : VSrc) (base : Fin 32) (ac : Fin 16) (m : Option MMod) (s : State) : Out :=
  let m := modOf m
  memWord true s (fun s => s.startReq (s.chkDs m a base.val)
    { s.mkReq .load .ds 0x63 m with
      d := some d.val, ac := some ac, lanes := mkLanes s.pane (addrS s.pane m a base.val) (fun _ => []) } (a.stale s.pane))

/-- R165: STDS. -/
def execStds (d a : VSrc) (base : Fin 32) (ac : Fin 16) (m : Option MMod) (s : State) : Out :=
  let m := modOf m
  memWord true s (fun s => s.startReq (s.chkDs m a base.val)
    { s.mkReq .store .ds 0x64 m with
      ac := some ac, entry := true,
      lanes := mkLanes s.pane (addrS s.pane m a base.val) (runBytes s.pane d m.size.bytes) }
    (d.stale s.pane || a.stale s.pane))

/-- R168: ATDS. -/
def execAtds (d : VDst) (a : VSrc) (base : Fin 32) (ac : Fin 16) (m : Option MMod) (s : State) : Out :=
  let m := modOf m
  memWord true s (fun s => s.startReq (s.chkDs m a base.val)
    { s.mkReq .atomic .ds 0x65 m with
      d := VDst.num d, ac := some ac, entry := true,
      lanes := mkLanes s.pane (addrS s.pane m a base.val) (atomBytes s.pane m d) } (a.stale s.pane))

/-! ### Device, peer and host memory -/

/-- R165: LDDM. -/
def execLddm (d : Fin 120) (a : VSrc) (base : CReg) (ac : Fin 16) (m : Option MMod) (s : State) : Out :=
  let m := modOf m
  let c := s.pane.creg base.val
  memWord true s (fun s => s.startReq (s.chkC m a base.val rR)
    { s.mkReq .load .dm 0x66 m with
      d := some d.val, ac := some ac, obj := c.obj, lanes := mkLanes s.pane (addrC s.pane m a c) (fun _ => []) }
    (a.stale s.pane))

/-- R165: STDM. -/
def execStdm (d a : VSrc) (base : CReg) (ac : Fin 16) (m : Option MMod) (s : State) : Out :=
  let m := modOf m
  let c := s.pane.creg base.val
  memWord true s (fun s => s.startReq (s.chkC m a base.val rW)
    { s.mkReq .store .dm 0x67 m with
      ac := some ac, entry := true, obj := c.obj,
      lanes := mkLanes s.pane (addrC s.pane m a c) (runBytes s.pane d m.size.bytes) }
    (d.stale s.pane || a.stale s.pane))

/-- R168: ATDM. -/
def execAtdm (d : VDst) (a : VSrc) (base : CReg) (ac : Fin 16) (m : Option MMod) (s : State) : Out :=
  let m := modOf m
  let c := s.pane.creg base.val
  memWord true s (fun s => s.startReq (s.chkC m a base.val rA)
    { s.mkReq .atomic .dm 0x68 m with
      d := VDst.num d, ac := some ac, entry := true, obj := c.obj,
      lanes := mkLanes s.pane (addrC s.pane m a c) (atomBytes s.pane m d) } (a.stale s.pane))

/-- R169: the combiner. The active lanes by address, each group's operands folded in ascending lane order. -/
def combineLanes (op : AOp) (addr : Nat → Nat) (v : Nat → Word) : Nat → List Nat → List Lane
  | 0, _ => []
  | _, [] => []
  | n + 1, L :: r =>
      let g := r.filter (fun k => addr k == addr L)
      { lane := L, addr := addr L, data := toBytes 4 (g.foldl (fun acc k => aopVal op acc (v k) 0) (v L)).toNat,
        mask := maskOf (fun k => k == L || g.contains k) } ::
        combineLanes op addr v n (r.filter (fun k => addr k != addr L))

/-- R169: REDDM. -/
def execReddm (d a : VSrc) (base : CReg) (m : Option MMod) (s : State) : Out :=
  let m := modOf m
  let c := s.pane.creg base.val
  memWord true s (fun s => s.startReq (s.chkC m a base.val rD)
    { s.mkReq .red .dm 0x69 m with
      entry := true, obj := c.obj,
      lanes := combineLanes m.opc (addrC s.pane m a c) (d.val s.pane) 32 s.pane.lanes }
    (d.stale s.pane || a.stale s.pane))

/-- R170: PFDM makes kinds 1 to 3 of the checks; lanes out of place are dropped. -/
def execPfdm (a : VSrc) (base : CReg) (m : Option MMod) (s : State) : Out :=
  let m := modOf m
  let c := s.pane.creg base.val
  memWord true s (fun s => s.startReq (chkCap s.pane.part c rR base.val)
    { s.mkReq .prefetch .dm 0x6A m with
      obj := c.obj,
      lanes := (mkLanes s.pane (addrC s.pane m a c) (fun _ => [])).filter (fun l =>
        l.addr % 4 == 0 && decide (l.addr - c.base + 4 ≤ c.len)) } (a.stale s.pane))

/-- R165: STPM. -/
def execStpm (d a : VSrc) (base : CReg) (m : Option MMod) (s : State) : Out :=
  let m := modOf m
  let c := s.pane.creg base.val
  memWord true s (fun s => s.startReq (s.chkC m a base.val rW)
    { s.mkReq .store .pm 0x6D m with
      entry := true, obj := c.obj,
      lanes := mkLanes s.pane (addrC s.pane m a c) (runBytes s.pane d m.size.bytes) }
    (d.stale s.pane || a.stale s.pane))

/-- R169: REDPM. -/
def execRedpm (d a : VSrc) (base : CReg) (m : Option MMod) (s : State) : Out :=
  let m := modOf m
  let c := s.pane.creg base.val
  memWord true s (fun s => s.startReq (s.chkC m a base.val rD)
    { s.mkReq .red .pm 0x6E m with
      entry := true, obj := c.obj,
      lanes := combineLanes m.opc (addrC s.pane m a c) (d.val s.pane) 32 s.pane.lanes }
    (d.stale s.pane || a.stale s.pane))

/-- R165: LDHM. -/
def execLdhm (d : Fin 120) (a : VSrc) (base : CReg) (ac : Fin 16) (m : Option MMod) (s : State) : Out :=
  let m := modOf m
  let c := s.pane.creg base.val
  memWord true s (fun s => s.startReq (s.chkC m a base.val rR)
    { s.mkReq .load .hm 0x6F m with
      d := some d.val, ac := some ac, obj := c.obj, lanes := mkLanes s.pane (addrC s.pane m a c) (fun _ => []) }
    (a.stale s.pane))

/-- R165: STHM. -/
def execSthm (d a : VSrc) (base : CReg) (ac : Fin 16) (m : Option MMod) (s : State) : Out :=
  let m := modOf m
  let c := s.pane.creg base.val
  memWord true s (fun s => s.startReq (s.chkC m a base.val rW)
    { s.mkReq .store .hm 0x70 m with
      ac := some ac, entry := true, obj := c.obj,
      lanes := mkLanes s.pane (addrC s.pane m a c) (runBytes s.pane d m.size.bytes) }
    (d.stale s.pane || a.stale s.pane))

/-! ### Filtered reads (R172) -/

/-- The checks of a filtered read's descriptor. -/
def State.chkDesc (s : State) (reg : Nat) : Chk :=
  let c := s.pane.creg reg
  (chkCap s.pane.part c rR reg).or
    ((chkAlign [0] (fun _ => c.base) 64 reg).or (chkBounds [0] (fun _ => decide (64 ≤ c.len)) reg))

/-- The coordinates of a lane. -/
def coordBytes (p : Pane) (a : Fin 120) (n L : Nat) : List Byte := runBytes p (.reg a) (4 * n) L

/-- R172: TEX. -/
def execTex (d : Fin 120) (a : Fin 120) (base : CReg) (ac : Fin 16) (m : Option TexMod) (s : State) : Out :=
  let m := m.getD {}
  let c := s.pane.creg base.val
  memWord true s (fun s => s.startReq (s.chkDesc base.val)
    { s.mkReq .tex .tm 0x6B {} with
      d := some d.val, ac := some ac, obj := c.obj, regs := m.nres.val + 1, size := 64, vbase := c.base,
      extra := [if m.clamp then 1 else 0, if m.lin then 1 else 0, m.nres.val + 1, c.len],
      lanes := mkLanes s.pane (fun _ => c.base) (coordBytes s.pane a 2) } false)

/-- R172: HGRID. -/
def execHgrid (d : Fin 120) (a : Fin 120) (base : CReg) (ac : Fin 16) (m : Option HgMod) (s : State) : Out :=
  let m := m.getD {}
  let c := s.pane.creg base.val
  memWord true s (fun s => s.startReq (s.chkDesc base.val)
    { s.mkReq .hgrid .tm 0x6C {} with
      d := some d.val, ac := some ac, obj := c.obj, regs := m.regs, size := 64, vbase := c.base,
      extra := [m.nlev.val + 1, if m.f4 then 1 else 0, c.len],
      lanes := mkLanes s.pane (fun _ => c.base) (coordBytes s.pane a 3) } false)

/-! ### Capability words (R160, R161) -/

/-- The checks of CLD and CST: one access of 16 bytes. -/
def State.chkGranule (s : State) (reg : Nat) (addr : Nat) (need : BitVec 8) : Chk :=
  let c := s.pane.creg reg
  (chkCap s.pane.part c need reg).or
    ((chkAlign [0] (fun _ => addr) 16 reg).or
      (chkBounds [0] (fun _ => decide (addr - c.base + 16 ≤ c.len)) reg))

/-- R160: CLD. From issue until it lands the register is pending. -/
def execCld (d : CReg) (a : SSrc) (base : CReg) (ac : Fin 16) (m : Option MMod) (s : State) : Out :=
  let c := s.pane.creg base.val
  let addr := c.base + uns (a.val s.pane)
  memWord false s (fun s =>
    let t := s.startReq (s.chkGranule base.val addr rR)
      { s.mkReq .cld .dm 0x71 (modOf m) with
        d := some d.val, ac := some ac, obj := c.obj, size := 16, regs := 1, tag := c.rights.getLsbD 5,
        lanes := [{ lane := 0, addr := addr, mask := 1 }] } false
    if t.nextRid = s.nextRid then t else onPane (fun p => { p with cPend := setBit p.cPend d.val true }) t)

/-- R160: CST. -/
def execCst (d : CReg) (a : SSrc) (base : CReg) (ac : Fin 16) (m : Option MMod) (s : State) : Out :=
  let c := s.pane.creg base.val
  let x := s.pane.creg d.val
  let addr := c.base + uns (a.val s.pane)
  memWord false s (fun s => s.startReq
    ((s.chkGranule base.val addr (rW ||| rSC)).or
      (if x.tag && !x.rights.getLsbD 7 then some (cRights, memDetail false rG d.val 0) else none))
    { s.mkReq .cst .dm 0x72 (modOf m) with
      ac := some ac, entry := true, obj := c.obj, size := 16, tag := x.tag,
      lanes := [{ lane := 0, addr := addr, data := toBytes 16 x.bits.toNat, mask := 1 }] } false)

/-- A capability with its extent replaced. -/
def Cap.withExtent (c : Cap) (base len : Nat) : Cap :=
  { c with bits := (c.bits.extractLsb' 96 32) ++ (BitVec.ofNat 40 len ++ BitVec.ofNat 56 base) }

/-- A capability with its rights replaced. -/
def Cap.withRights (c : Cap) (r : BitVec 8) : Cap :=
  { c with bits := (c.bits.extractLsb' 104 24) ++ (r ++ c.bits.extractLsb' 0 96) }

/-- R161: CBND. -/
def execCbnd (d a : CReg) (b : Fin 63) (s : State) : Out :=
  let p := s.pane
  let c := p.creg a.val
  let x := p.sreg (b.val + 1)
  let unit := if bit x 31 then 256 else 1
  let off := uns (p.sreg b.val) * unit
  let len := bits x 0 31 * unit
  if !c.tag then .next (takeTrap cTag (memDetail false 0 a.val 0) s)
  else if c.len < off + len then .next (takeTrap cBounds (memDetail false 0 a.val 0) s)
  else done (fun p => p.cset d.val (c.withExtent (c.base + off) len)) s

/-- R161: CRGT. -/
def execCrgt (d a : CReg) (b : SSrc) (s : State) : Out :=
  let c := s.pane.creg a.val
  if !c.tag then .next (takeTrap cTag (memDetail false 0 a.val 0) s)
  else done (fun p => p.cset d.val (c.withRights (c.rights &&& (b.val p).setWidth 8))) s

/-- R161: CMOV. -/
def execCmov (d a : CReg) (s : State) : Out := done (fun p => p.cset d.val (p.creg a.val)) s

/-- R161: CGET. -/
def execCget (d : Fin 61) (a : CReg) (s : State) : Out :=
  done (fun p =>
    let x := (p.creg a.val).bits.toNat
    (List.range 4).foldl (fun p i => p.sset (d.val + i) (wordOfNat (x / 2 ^ (32 * i)))) p) s

/-! ### FENCE and WAITAC -/

/-- R238: FENCE marks the accesses that later memory words wait for. -/
def execFence (ord : FOrd) (scope : Scope) (s : State) : Out :=
  done (fun p =>
    { (if ord = .rel then p else p.acquire) with
      relMark := if ord = .acq then p.relMark else s.nextRid
      acqMark := if ord = .rel then p.acqMark else s.nextRid
      sysMark := if ord ≠ .acq ∧ scope = .sys then s.nextRid else p.sysMark }) s

/-- The threshold of WAITAC. -/
def Thr.val (p : Pane) (t : Thr) : Nat :=
  match t with
  | .imm t => t.toNat
  | .reg n => uns (p.sreg n.val)
  | .lit x => uns x

/-- R177: the detail word of the engine-error trap. -/
def acDetail (p : Pane) (ac : Fin 16) : Word :=
  wordOfNat (ac.val + (if p.acData.getLsbD ac.val then 16 else 0) + (if p.acEng.getLsbD ac.val then 32 else 0))

/-- R176, R177: WAITAC; trap entry clears the flags; what the counter's operations had seen is acquired (R241). -/
def execWaitac (ac : Fin 16) (t : Thr) (s : State) : Out :=
  let p := s.pane
  if p.wait = .begun ∧ (p.ac.getD ac.val 0).toNat ≤ Thr.val p t then
    if p.acData.getLsbD ac.val || p.acEng.getLsbD ac.val then
      .next (takeTrap cEngine (acDetail p ac) (onPane Pane.acquire s))
    else done (fun p => { p.acquire with wait := .none }) s
  else .next (ended (onPane (fun p => { p with wait := .begun }) s))

end Sys2Proof.Machine
end

