-- ==== Sys2Proof/Machine/Ports.lean ====
section
/-! DEFINITION. Requests after their issue: the memory port, acceptance, the channels and reduction engines, the slices,
replies and faults; page requests; GEN; duplicated pages (R171, R173 to R180, R212, R217, R220, R230, R231, R244,
R247, R248, R261, R262, R267 to R269, R277 to R280, R359, R368, R388). -/

namespace Sys2Proof.Machine

/-- An event's outcome: the state it leads to, or no change where its rule does not let it happen (log entry 5). -/
def event (s : State) (o : Option State) : Out := .next (o.getD s)

/-! ### Fault records (R177, R180) -/

def Cause.code : Cause → Nat
  | .unresolved => 1 | .poisoned => 2 | .refused => 3

def Lane.failedBy (c : Cause) (l : Lane) : Bool :=
  match l.stage with
  | .failed d => d == c
  | _ => false

def Lane.isFailed (l : Lane) : Bool :=
  match l.stage with
  | .failed _ => true
  | _ => false

/-- The mask of the lanes of a request that failed for one cause. -/
def Req.failMask (r : Req) (c : Cause) : Word := (r.lanes.filter (Lane.failedBy c)).foldl (fun m l => m ||| l.mask) 0

/-- One record for each cause, with its lanes (R180). -/
def State.failRecords (s : State) (typ : Nat) (r : Req) (exited : Bool) : State :=
  [Cause.unresolved, .poisoned, .refused].foldl (fun s c =>
    if r.failMask c = 0 then s
    else s.record typ r.part (dieOf r.core)
      [wordOfNat (pcOf r.pkt r.slot), wordOfNat (pcOf r.pkt r.slot / 2 ^ 32), wordOfNat r.grid, wordOfNat r.team,
       wordOfNat r.pord, wordOfNat r.op, r.failMask c, wordOfNat c.code, boolWord exited]) s

/-! ### The network port (R359) and failed paths (R217, R232) -/

/-- Whether every lane of a request stays in its core's slice. -/
def ownSlice (r : Req) (l : Lane) : Bool :=
  match r.space with
  | .sp => true
  | .ds => l.addr / 2 ^ 24 == dieOf r.core && l.addr / 2 ^ 19 % 32 == r.core % 24
  | _ => false

/-- The bytes a request costs at its network port: what it writes, or what it requests, in the lanes that leave the core's slice
(log entry 22 for a filtered read). -/
def Req.cost (r : Req) : Nat :=
  match r.kind with
  | .tex | .hgrid | .posrd => r.lanes.length * 4 * r.regs
  | .skupd => r.extra.length / 3 * 8
  | _ => (r.lanes.filter (fun l => !ownSlice r l)).length * r.size

/-- Whether a request passes its core's network port. -/
def Req.metered (r : Req) : Bool := r.lanes.any (fun l => !ownSlice r l)

/-- R273, step 4: before a SKUPD is accepted, the pane's earlier accesses are accepted or landed, and what the die's clock names has
been performed at its home. -/
def State.skReady (s : State) (r : Req) : Bool := s.quiet r.pid r.rid && s.homeDone (s.die (dieOf r.core)).clock

/-- R273, step 4, for ATMASS (its opcode is 0x7F): as a package engine command's; it makes no access before. -/
def State.massReady (s : State) (r : Req) : Bool := r.op != 0x7F || s.skReady r

/-- Whether a request stands in the port's order: one that must wait for earlier work of its pane comes to the port after it (R238,
R273). -/
def State.atPort (s : State) (r : Req) : Bool :=
  match r.kind with
  | .sig => s.quiet r.pid r.rid && s.quietSys r.pid r.rid
  | .skupd => s.skReady r
  | _ => s.massReady r

/-- A request leaves the port, in order, when the bucket holds its cost. -/
def State.leavePort (s : State) (r : Req) : Option (State × Req) :=
  if r.left || !r.metered then some (s, r)
  else if (Tab.vals s.reqs).any (fun q => q.core == r.core && decide (q.rid < r.rid) && !q.left && !q.cancelled && q.metered && s.atPort q) then none
  else
    let b := Tab.getD s.buckets r.core 0
    if b < r.cost then none
    else
      let r := { r with left := true }
      some ({ s with buckets := Tab.set s.buckets r.core (b - r.cost), reqs := Tab.set s.reqs r.rid r }, r)

/-- Whether the path of a die to another crosses a failed link (R232). -/
def State.diePathFailed (s : State) (die die' : Nat) : Bool :=
  die != die' && (s.die die).links.contains (Config.linkOf die (16 + die'))

/-! ### The memory port (R171, R230, R247, R268, R269) -/

/-- The kind of object a space needs (R171). -/
def Space.kindNo : Space → Nat
  | .pm => 1
  | .hm => 2
  | _ => 0

/-- Whether a lane has reached the point that orders it before later accesses to its bytes (R167). -/
def Stage.ordered : Stage → Bool
  | .queued | .landed | .failed _ => true
  | _ => false

/-- Whether two runs of bytes overlap. -/
def overlap (a n b m : Nat) : Bool := decide (a < b + m) && decide (b < a + n)

/-- Whether an access of an earlier request still bars a later one to the same bytes (R167): until it is ordered, or, where a write
comes behind a read that a departure could cancel and replay (R178), until that has landed (log entry 74). -/
def Stage.bars (read write : Bool) (k : Stage) : Bool := !k.ordered || (read && write && k == .queued)

/-- Whether a request changes memory. -/
def Req.changes (r : Req) : Bool := r.isWrite || r.kind == .atomic

/-- R167: an earlier access of the pane to the same bytes, space and object has not been ordered yet. What a POSRD reads stands in
the record and the pages of its object (R333): while it is under way, every write and atomic of the pane to that object waits. -/
def State.blocked (s : State) (r : Req) (l : Lane) : Bool :=
  (Tab.vals s.reqs).any (fun q => q.pid == r.pid && q.rid < r.rid && q.obj == r.obj &&
    ((q.space == r.space && q.kind != .prefetch &&
        q.lanes.any (fun k => overlap k.addr q.size l.addr r.size && k.stage.bars (!q.changes) r.changes)) ||
     (q.kind == .posrd && r.space == .dm && r.changes && q.lanes.any (fun k => !k.stage.ordered))))

/-- R247: a parked write of a die, of another request than one, holds some of these bytes. -/
def State.parkedAt (s : State) (die part obj : Nat) (but : Option Nat) (addr n : Nat) : Bool :=
  (Tab.vals s.reqs).any (fun q => some q.rid != but && dieOf q.core == die && q.part == part && q.obj == obj &&
    q.lanes.any (fun k => (k.stage == .parked || k.stage == .replay) && overlap k.addr q.size addr n)) ||
  s.parkQ.any (fun p => p.die == die && p.part == part && p.obj == obj && match p.kind with
    | .elem _ _ cap off b _ => overlap (cap.base + off) b.length addr n
    | _ => false)

/-- The same for the bytes of a request's lane. -/
def State.parkedHere (s : State) (r : Req) (l : Lane) : Bool := s.parkedAt (dieOf r.core) r.part r.obj (some r.rid) l.addr r.size

def Req.reads (r : Req) : Bool :=
  match r.kind with
  | .load | .cld | .prefetch => true
  | _ => false

/-- Whether a session of a partition with a peer's may carry a request (R364). -/
def Session.carries (x : Session) (part peer ppart : Nat) : Bool :=
  x.peer == peer && x.ppart == ppart && x.part == part && !x.failed && decide (x.txSeq < 2 ^ 64 - 1)

/-- The session at a port that may carry a request. -/
def State.sessionAt (s : State) (port part peer ppart : Nat) : Option Session :=
  if (s.port port).up && !(s.port port).failed then s.sessions.find? (fun x => x.port == port && x.carries part peer ppart) else none

/-- R366: the fields of a peer window entry. -/
def winPeer (win : Nat) : Nat := nbitsOf win 112 16
def winPart (win : Nat) : Nat := nbitsOf win 104 8
def winObj (win : Nat) : Nat := nbitsOf win 88 16
def winPorts (win : Nat) : Nat := nbitsOf win 48 32
def winOff (win : Nat) : Nat := nbitsOf win 0 40

/-- A peer's object in the table of the ports that a die's requests to it took. -/
def winKey (part win : Nat) : Nat := winObj win + winPart win * 2 ^ 16 + winPeer win * 2 ^ 24 + part * 2 ^ 40

/-- Whether a port is up. -/
def State.portUp (s : State) (k : Nat) : Bool := (s.port k).up && !(s.port k).failed

/-- R366: the session by which a die's request through a window leaves: that of the port its requests to the peer's object took
before, while that port stays up, and none where its session has failed or stopped; else that of the lowest port that qualifies. -/
def State.window (s : State) (die part win : Nat) : Option Session :=
  let at_ := fun (k : Nat) => if winPorts win / 2 ^ k % 2 = 1 then s.sessionAt k part (winPeer win) (winPart win) else none
  match (Tab.find (s.die die).peerPorts (winKey part win)).filter s.portUp with
  | some k => at_ k
  | none => (List.range 32).findSome? at_

/-- R368: an address of the host address space of a partition's TDI; number 0 is the package's own (log entry 95). -/
def hostAddr (part addr : Nat) : Nat := part * 2 ^ 64 + addr

/-- The kind of object a request needs: a CLD may go to host memory (R160). -/
def Req.kindFor (r : Req) (o : Obj) : Nat := if r.kind = .cld ∧ o.kind = 2 then 2 else r.space.kindNo

/-- A lane's write that must park (R268, R269), or is held at the port where the buffer is full. -/
def State.parkLane (s : State) (r : Req) (l : Lane) : State × Lane :=
  let s := s.unparked (.lane r.rid l.lane)
  if s.parkedCount (dieOf r.core) < 256 then
    (s.park ⟨dieOf r.core, r.part, r.obj, .lane r.rid l.lane, false⟩, { l with stage := .parked })
  else (s, l)

/-- R280: an atomic or reduction that is refused at its place is counted at the engine of its channel; one that the table refuses has no
channel (log entry 85). -/
def State.refusedOp (s : State) (r : Req) (pa : Nat) : State :=
  match r.kind with
  | .atomic => s.rdxCount pa false .atomic false false
  | .red => s.rdxCount pa false .reduction false false
  | _ => s

/-- One lane at the port: translation, and what it leads to. A write to a page with copies is marked as one that applies at its home
before it is accepted (R248). -/
def State.portTranslate (s : State) (r : Req) (l : Lane) : State × Lane :=
  let die := dieOf r.core
  let refuse := { l with stage := .failed .refused }
  match s.lookupObj die r.part r.obj with
  | (s, none) => (s, refuse)
  | (s, some o) =>
      let off := l.addr - o.vbase
      if r.space = .pm then
        if !o.valid || o.key != r.part || o.kind != 1 || o.exts.length != 1 || l.addr < o.vbase || o.len ≤ off then (s, refuse)
        else if (s.window die r.part o.win).isNone then (s, refuse)
        else (s, { l with stage := .ported (winOff o.win + off) true false })
      else
        match s.transObj o r.part (r.kindFor o) l.addr with
        | .refused => (s, refuse)
        | .absent _ =>
            if l.again then (s, { l with stage := .failed .unresolved })
            else
              match s.sendPage r.part r.obj (off / 4096) (.req r.rid) with
              | (s, some t) => (s, { l with stage := .held t })
              | (s, none) => (s, l)
        | .migrating pa t1 =>
            if r.reads then
              if s.parkedHere r l then (s, l)
              else if r.kindFor o = 2 then (s, { l with stage := .ported (hostAddr r.part pa) true false })
              else (s, { l with stage := .ported pa t1 false })
            else s.parkLane r l
        | .ok pa t1 =>
            if r.kind = .cst ∧ t1 = true then (s, refuse)
            else if r.kindFor o = 2 then (s, { l with stage := .ported (hostAddr r.part pa) true false })
            else if r.reads then
              if s.parkedHere r l then (s, l)
              else
                match (if t1 then none else (o.ext off).bind (fun e => s.dupRead die r.part r.obj o e off pa)) with
                | some pa' => (s, { l with stage := .ported pa' false true })
                | none => (s, { l with stage := .ported pa t1 false })
            else if !t1 && s.pathFailed die (pa / 2 ^ 36) then (s.refusedOp r pa, refuse)
            else
              match o.ext off with
              | some e =>
                  if t1 then (s, { l with stage := .ported pa t1 false })
                  else
                    match s.dupWrite r.part r.obj o e off with
                    | (s, true) => (s, { l with stage := .ported pa t1 (s.rdup && !(dupOthers e).isEmpty) })
                    | (s, false) => s.parkLane r l
              | none => (s, refuse)

/-- Whether a request's access goes to host memory: a lane of it bears an address of a host space (R368). -/
def Req.hostLane (r : Req) : Bool := r.lanes.any (fun l => decide (2 ^ 64 ≤ l.pa))

/-- A translated read: from the die's copy, or to its home once the die has applied every write to the line; `bad` says that the
copy it hits has an uncorrectable error (R219). A read that must go over a failed link is refused (R232). -/
def State.portRead (s : State) (bad : Bool) (r : Req) (l : Lane) (pa : Nat) (t1 copy : Bool) : State × Lane :=
  let die := dieOf r.core
  let line := lineId pa t1
  let push := fun (s : State) => if !t1 && s.pathFailed die (pa / 2 ^ 36) then (s, { l with stage := .failed .refused }) else
    (({ s with chanQ := s.chanQ ++ [{
      kind := if r.kind = .cld then .cld else .load, line := line, pa := pa, tier1 := t1, rid := r.rid, lane := l.lane,
      die := die, part := r.part, size := r.size, fill := !copy }] } : State), { l with stage := .queued })
  if 2 ^ 64 ≤ pa then (s, { l with stage := .queued, pa := pa })
  else if copy then push s
  else
    match (s.die die).lines.find? (fun x => x.line == line && x.key == r.part) with
    | some x =>
        if s.ownBusy die line then (s, l)
        else if bad then (if s.lineBusy die line then (s.lineError die r.part line, l) else push (s.lineError die r.part line))
        else (s.markFirst die line r.st, { l with stage := .landed, got := (x.data.drop (pa % 64)).take r.size,
                                                  gotTag := x.tags.contains (pa % 64 / 16) })
    | none => if s.lineBusy die line then (s, l) else push s

/-- Whether a lane taken out of the park buffer waits for one parked before it: the lanes of one word go together (R268). -/
def State.laneWaits (s : State) (r : Req) (l : Lane) : Bool :=
  l.stage == .replay && !((s.replayHead (dieOf r.core)).any (fun p => match p.kind with
    | .lane rid _ => rid == r.rid
    | _ => false))

/-- One lane's progress at the port. -/
def State.portLane (s : State) (bad : Bool) (r : Req) (l : Lane) : State × Lane :=
  match l.stage with
  | .issued | .replay =>
      if s.blocked r l || s.laneWaits r l then (s, l)
      else
        match s.portTranslate r l with
        | (s, l') => (if l'.isFailed then s.unparked (.lane r.rid l.lane) else s, l')
  | .ported pa t1 copy => if r.reads then s.portRead bad r l pa t1 copy else (s, l)
  | _ => (s, l)

/-- Whether a request passes the object table. -/
def Req.translated (r : Req) : Bool :=
  match r.space with
  | .dm | .pm | .hm => true
  | _ => false

/-- Whether a lane has not got past the port's checks. -/
def Stage.before : Stage → Bool
  | .issued | .held _ | .parked | .replay => true
  | _ => false

/-- R166: a write's lane does not pass a lower one of the same word that has still to pass the port and names its bytes. -/
def laneBehind (r : Req) (lower : List Lane) (l : Lane) : Bool :=
  !r.reads && l.stage.before && lower.any (fun k => k.stage.before && overlap k.addr r.size l.addr r.size)

/-- Every lane in turn. -/
def State.portLanes (s : State) (bad : Bool) (r : Req) : State × List Lane :=
  r.lanes.foldl (fun (acc : State × List Lane) l =>
    if laneBehind r acc.2 l then (acc.1, acc.2 ++ [l])
    else
      let (s, l) := acc.1.portLane bad r l
      (s, acc.2 ++ [l])) (s, [])

/-- A prefetch has no reply: it is over when every lane is at rest (R170). -/
def Req.prefetched (r : Req) : Bool :=
  r.kind == .prefetch && r.lanes.all (fun l => match l.stage with
    | .landed | .failed _ => true
    | _ => false)

/-! ### Acceptance (R175, R179, R212, R220) -/

/-- The counter of a request's word falls in its pane (R175), with the error flags of R177. -/
def State.acFall2 (s : State) (r : Req) (data eng : Bool) : State :=
  match r.ac with
  | some k => if r.exited then s else s.modPane r.pid (fun p => (p.acDown k).acMark k data eng)
  | none => s

/-- The counter of a request's word falls in its pane (R175). -/
def State.acFall (s : State) (r : Req) (data : Bool) : State :=
  match r.ac with
  | some k => if r.exited then s else s.modPane r.pid (fun p => (p.acDown k).acMark k data false)
  | none => s

/-- One bit of CRC-32C. -/
def crcBit (c : Word) : Word := if c.getLsbD 0 then (c >>> 1) ^^^ 0x82F63B78 else c >>> 1

def crcByte (c : Word) (b : Byte) : Word := (List.range 8).foldl (fun c _ => crcBit c) (c ^^^ b.setWidth 32)

/-- CRC-32C (log entry 38). -/
def crc32c (bs : List Byte) : Word := (bs.foldl crcByte 0xFFFFFFFF) ^^^ 0xFFFFFFFF

/-- R362: the 256 bytes of a flit: its header, CRC and body. -/
def flitBytes (lseq lack kind vl wvl win sess seq : Nat) (body : List Byte) : List Byte :=
  let h := lseq % 65536 + lack % 65536 * 2 ^ 16 + kind % 16 * 2 ^ 142 + vl % 8 * 2 ^ 146 + wvl % 8 * 2 ^ 149 + win % 2 ^ 16 * 2 ^ 160 +
    sess % 65536 * 2 ^ 176 + seq % 2 ^ 64 * 2 ^ 192
  let b := (body ++ List.replicate 224 0).take 224
  let c := crc32c (toBytes 32 h ++ b)
  toBytes 32 (h + c.toNat * 2 ^ 32) ++ b

/-- A flit leaves by a port, and is kept until it is acknowledged; it advertises the receive window of its virtual lane (R363,
R365). -/
def State.putFlit (s : State) (k kind vl sess seq : Nat) (body : List Byte) (req : Option (Nat × Nat)) : State :=
  s.modPort k (fun p =>
    { p with lseq := (p.lseq + 1) % 65536,
             unacked := p.unacked ++ [⟨p.lseq, 0, flitBytes p.lseq p.lack kind vl vl (p.rxWin.getD vl 0) sess seq body, req⟩],
             rxUsed := setAt p.rxUsed vl 0 })

/-- R364: the 96-bit nonce. -/
def nonceOf (num dir seq : Nat) : Nat := num + dir * 2 ^ 16 + seq * 2 ^ 32

/-- A sealed flit of a session leaves: the session's number at the receiving port, its sequence number, its direction; after the last
number the session has stopped, which is reported (R362, R364). -/
def State.sealFlit (s : State) (x : Session) (m : OutMsg) : State :=
  let seq := x.txSeq + 1
  let s := s.putFlit x.port 1 m.vl x.rnum seq (Config.sealClose x.key (nonceOf x.rnum (if s.pkgNo < x.peer then 0 else 1) seq) m.msg) m.req
  let s := { s with sessions := s.sessions.map (fun y => if y.num = x.num ∧ y.port = x.port then { y with txSeq := seq } else y) }
  if seq = 2 ^ 64 - 1 then s.record 0x07 x.part (80 + x.port) [wordOfNat x.port, 0, wordOfNat x.num] else s

/-- A request's lane that would have crossed a failed link, or used a failed or stopped session, is refused (R363, R364). -/
def State.refuseOut (s : State) (q : Option (Nat × Nat)) : State :=
  match q with
  | none => s
  | some (rid, lane) => s.modReq rid (fun r =>
      let ls := r.lanes.map (fun l => if l.lane = lane ∧ l.stage = .queued then { l with stage := .failed .refused } else l)
      { r with lanes := ls, destAccepted := r.destAccepted || ls.all (fun l => l.stage != .queued) })

/-- Some of the messages that wait at a port are given up. -/
def State.dropMsgs (s : State) (k : Nat) (sel : OutMsg → Bool) : State :=
  (((s.port k).sendQ.filter sel).map OutMsg.req).foldl State.refuseOut
    (s.modPort k (fun p => { p with sendQ := p.sendQ.filter (fun m => !sel m) }))

/-- A message leaves: link management in the clear, everything else sealed under its session (R364, log entry 40). -/
def State.sendMsg (s : State) (k : Nat) (m : OutMsg) : State :=
  if m.sess = 0 then s.putFlit k 1 m.vl 0 0 m.msg none
  else
    match s.sessions.find? (fun x => x.num == m.sess && x.port == k && !x.failed && decide (x.txSeq < 2 ^ 64 - 1)) with
    | some x => s.sealFlit x m
    | none => s.refuseOut m.req

/-- What waits for a window at a port leaves, each virtual lane in order (R365). -/
def State.pump (s : State) (k : Nat) : Nat → State
  | 0 => s
  | n + 1 =>
      let p := s.port k
      match p.sendQ.find? (fun m => decide (p.txUsed.getD m.vl 0 < p.txWin.getD m.vl 0)) with
      | none => s
      | some m =>
          ((s.modPort k (fun p => { p with sendQ := p.sendQ.erase m, txUsed := setAt p.txUsed m.vl (p.txUsed.getD m.vl 0 + 1) })).sendMsg
            k m).pump k n

/-- A message joins those of its port, and leaves once the virtual lane's window has room (R365). -/
def State.queueMsg (s : State) (k : Nat) (m : OutMsg) : State :=
  let s := s.modPort k (fun p => { p with sendQ := p.sendQ ++ [m] })
  s.pump k (s.port k).sendQ.length

/-- A message of a session; how a message fills its payload is not stated (log entry 40). -/
def State.sendFlit (s : State) (x : Session) (vl : Nat) (msg : List Nat) (req : Option (Nat × Nat)) : State :=
  s.queueMsg x.port ⟨x.num, vl, Config.message msg, req⟩

/-- The session of a pair of partitions whose port is up, the lowest port first. -/
def State.route (s : State) (part peer ppart : Nat) : Option Session :=
  (List.range 32).findSome? (fun k => s.sessionAt k part peer ppart)

/-- An answer to a peer's request goes out on virtual lane 1: an acknowledgement, or a failure's cause (R365, R367). -/
def State.pmAnswer (s : State) (r : PeerReq) (cause : Option Nat) : State :=
  let s := { s with ackOut := s.ackOut ++ [(r, cause)] }
  match s.route r.part r.peer r.ppart with
  | some x => s.sendFlit x 1 [r.lane, r.num, cause.getD 0] none
  | none => s

/-- A peer's request is over: what it met is reported to the peer (R367). -/
def State.pmOver (s : State) (q : PeerReq) (r : Req) : State :=
  let s := { s with reqs := Tab.erase s.reqs r.rid }
  if r.lanes.any Lane.isFailed then s.pmAnswer q (some 2) else s

/-- The session of a lane's request to a peer, and the window entry. -/
def State.pmWay (s : State) (r : Req) : Option (Session × Nat) :=
  (s.lookupObj (dieOf r.core) r.part r.obj).2.bind (fun o => (s.window (dieOf r.core) r.part o.win).map (fun x => (x, o.win)))

/-- A lane's request to a peer leaves by its window's port, with the write's number and predecessors (R366, R367). -/
def State.pmSend (s : State) (r : Req) (l : Lane) (x : Session) (win off n : Nat) (st : Tab Nat) : State :=
  let die := dieOf r.core
  let s := s.modDie die (fun d => { d with peerPorts := Tab.set d.peerPorts (winKey r.part win) x.port })
  s.sendFlit x 0 ([r.rid, l.lane, winObj win, off, r.size, if r.kind = .red then 1 + r.aop.ctorIdx else 0] ++
    l.data.map BitVec.toNat ++ (Tab.set st die n).flatMap (fun e => [e.1, e.2])) (some (r.rid, l.lane))

/-- One lane's write is stamped and goes to its home. -/
def State.acceptLane (s : State) (r : Req) (l : Lane) : State × Lane :=
  let die := dieOf r.core
  match l.stage with
  | .ported pa t1 _ =>
      let way := if r.space = .pm then s.pmWay r else none
      if r.space = .pm ∧ way = none then (s, { l with stage := .failed .refused })
      else
      let (s, n, st) := (s.unparked (.lane r.rid l.lane)).stamp die
      let rmw := match r.kind with
        | .store | .cst => false
        | _ => true
      let a : Apply := { src := die, num := n, stamp := st, line := lineId pa t1, off := pa % 64, bytes := l.data,
                         key := r.part, rmw := rmw, tag := r.tag && r.kind == .cst }
      if r.space = .pm then
        let s := s.broadcast { a with line := sliceLine 0, bytes := [], rmw := false, tag := false, done := true } false
        ((match way with
          | some (x, win) => s.pmSend r l x win pa n st
          | none => s), { l with stage := .queued, num := n })
      else if r.space = .hm then
        (s.broadcast { a with line := sliceLine 0, bytes := [], rmw := false, tag := false } false, { l with stage := .queued, num := n, pa := pa })
      else
        let s := if rmw then s.broadcast a true else (s.ownWrite a).markFirst die a.line r.st
        ({ s with chanQ := s.chanQ ++ [{
            kind := (match r.kind with
              | .store => .store
              | .cst => .cst
              | _ => .rmw),
            line := lineId pa t1, pa := pa, tier1 := t1, rid := r.rid, lane := l.lane, die := die, part := r.part,
            size := r.size, bytes := l.data, tag := r.tag, op := r.aop, num := n }] }, { l with stage := .queued, num := n })
  | .issued =>
      if r.space = .ds && !ownSlice r l then
        let (s, n, st) := s.stamp die
        (s.broadcast { src := die, num := n, stamp := st, line := sliceLine l.addr, off := 0, bytes := [], key := r.part } false,
          { l with stage := .queued, num := n })
      else (s, l)
  | _ => (s, l)

def State.acceptLanes (s : State) (r : Req) : State × List Lane :=
  r.lanes.foldl (fun (acc : State × List Lane) l =>
    let (s, l) := acc.1.acceptLane r l
    (s, acc.2 ++ [l])) (s, [])

/-- Whether a request writes: it is accepted as R175 gives. -/
def Req.accepts (r : Req) : Bool :=
  match r.kind with
  | .store | .atomic | .red | .cst => true
  | _ => false

/-- A store or CST whose lanes have all been accepted: its counter falls. -/
def State.settleAccept (s : State) (rid : Nat) : State :=
  match Tab.find s.reqs rid with
  | none => s
  | some r =>
      if r.accepted || !r.accepts || !(r.lanes.all (fun l => l.stage.ordered)) then s
      else
        let s := s.modReq rid (fun r => { r with accepted := true })
        match r.kind with
        | .store | .cst => s.acFall r false
        | _ => s

/-- Whether a lane of the request stands where it can be stamped, or all have failed: each lane is stamped by itself, so
that those whose page is absent or whose write is parked hold back no other (R230, R231, R268). -/
def Req.atAccept (r : Req) : Bool :=
  match r.space with
  | .ds => true
  | _ => r.lanes.all Lane.isFailed || r.lanes.any (fun l => match l.stage with
      | .ported _ _ _ => true
      | _ => false)

/-- What a failed mesh stop refuses of a request: lanes that have not been stamped or served (R217). -/
def State.refuseLanes (s : State) (r : Req) (f : Lane → Bool) : State :=
  s.modReq r.rid (fun r => { r with lanes := r.lanes.map (fun l =>
    if l.stage == .issued && f l then { l with stage := .failed .refused } else l) })

/-- R217: a request that a failed mesh stop refuses before it is accepted, where it makes one access whatever its lanes are: its
entry is reported and freed. -/
def State.refuseWhole (s : State) (r : Req) : State :=
  let r := { r with lanes := r.lanes.map (fun l => { l with stage := .failed .refused,
                                                            mask := if r.kind = .sig then 1 else l.mask }) }
  { s.failRecords 0x02 r r.exited with reqs := Tab.erase s.reqs r.rid }

/-- EVSIG is accepted once what its release orders before it is, and it has left the network port (R237, R238, R357, R359). -/
def State.acceptSig (s : State) (r : Req) : Option State :=
  if r.accepted || !s.quiet r.pid r.rid || !s.quietSys r.pid r.rid then none
  else (s.leavePort r).map (fun (s, r) =>
    if s.stopFailed r.core then s.refuseWhole r else { s with reqs := Tab.set s.reqs r.rid { r with accepted := true } })

/-- EVSIG's addition (R353, R357): a counter of the partition advances, and carries the clock of the signalling die. -/
def State.performSig (s : State) (r : Req) : State :=
  let n := r.lanes.headD { lane := 0, addr := 65536 }
  let c := Tab.getD s.ctrs n.addr {}
  if n.addr < 65535 ∧ c.owner = r.part ∧ r.part ≠ 0 then
    let c := { c with value := c.value + BitVec.ofNat 64 (ofBytes n.data),
                      clock := mergeClock c.clock (s.die (dieOf r.core)).clock }
    { s with ctrs := Tab.set s.ctrs n.addr c }
  else s.failRecords 0x02 { r with lanes := [{ n with mask := 1, stage := .failed .refused }] } r.exited

/-- A SKUPD is accepted when it is stamped (R288). -/
def State.acceptSk (s : State) (r : Req) : Option State :=
  if r.accepted || r.lanes.any (fun l => s.blocked r l) || !s.skReady r then none
  else
    match s.leavePort r with
    | none => none
    | some (s, r) =>
        if s.stopFailed r.core then some (s.refuseWhole r)
        else
        let (s, n, st) := s.stamp (dieOf r.core)
        let s := s.broadcast { src := dieOf r.core, num := n, stamp := st, line := skLine, off := 0, bytes := [], key := r.part,
                               rmw := true } true
        some { s with reqs := Tab.set s.reqs r.rid { r with accepted := true, lanes := r.lanes.map (fun l => { l with num := n }) } }

/-- R230: a request at its memory port; every lane goes as far as it can, but a failed mesh stop refuses those that have not passed it
(R217), once they have left the network port (R211, R359). Not enabled where no lane gets on. -/
def State.portAccess (s : State) (bad : Bool) (rid : Nat) : Option State :=
  match Tab.find s.reqs rid with
  | none => none
  | some r =>
      if !r.translated || r.cancelled || r.kind == .skupd || !s.massReady r then none
      else
        match s.leavePort r with
        | none => none
        | some (s', r') =>
            let (s', ls) := if s.stopFailed r.core && r.lanes.any (fun l => l.stage == .issued) then
                (s', r'.lanes.map (fun l => if l.stage = .issued then { l with stage := .failed .refused } else l))
              else s'.portLanes bad r'
            let r'' := { r' with lanes := ls }
            if ls = r.lanes && r'.left == r.left && !(r.prefetched) then none
            else if r''.prefetched then some { s' with reqs := Tab.erase s'.reqs rid }
            else some (({ s' with reqs := Tab.set s'.reqs rid r'' } : State).settleAccept rid)

/-- MEMORY_PORT_ACCESS; `bad` says that the held lines it reads have uncorrectable errors (R219). -/
def execMemoryPortAccess (rid : PortTurn) (s : State) : Out := event s (s.portAccess rid.bad rid.rid)

/-- R248: the writes of a request to pages with copies apply at their homes before they are accepted. -/
def State.applyCopied (s : State) (r : Req) : State :=
  (r.lanes.filterMap (fun l => match l.stage with
    | .ported pa t1 true => some (lineId pa t1)
    | _ => none)).foldl (fun s line => s.drainLine line s.chanQ.length) s

/-- STORE_ACCEPTANCE: the request is stamped with the die's clock at the port (R175, R212). -/
def State.accept (s : State) (rid : Nat) : Option State :=
  match Tab.find s.reqs rid with
  | none => none
  | some r =>
      if r.kind = .sig then s.acceptSig r
      else if r.kind = .skupd then s.acceptSk r
      else if !r.accepts || r.accepted || !r.atAccept || r.space == .sp || !s.massReady r then none
      else if r.space == .ds && !(r.lanes.any (fun l => l.stage == .issued && !ownSlice r l)) then none
      else
        match s.leavePort r with
        | none => none
        | some (s, r) =>
            if r.space == .ds && s.stopFailed r.core then some ((s.refuseLanes r (fun l => !ownSlice r l)).settleAccept rid)
            else
              let (s, ls) := s.acceptLanes r
              some ((({ s with reqs := Tab.set s.reqs rid { r with lanes := ls } } : State).applyCopied r).settleAccept rid)

def execStoreAcceptance (rid : Nat) (s : State) : Out := event s (s.accept rid)

/-! ### The channels (R261, R262, R267, R278) -/

/-- How a line's next access fares at its channel (R261, R267): a mismatch, an activate, a supplementary activate, service under the
age rule. -/
def evBits (mismatch act supact aged : Bool) : Nat :=
  (if mismatch then 1 else 0) + (if act then 2 else 0) + (if supact then 4 else 0) + (if aged then 8 else 0)

def State.setEv (s : State) (line n : Nat) : State :=
  { s with chanEvs := if n = 0 then Tab.erase s.chanEvs line else Tab.set s.chanEvs line n }

/-- CHANNEL_ACCESS: the oldest item of its line is served, if it is the one named. Request 0 is none: then `lane` is a tier-0 line,
and the event says how its next access fares, whoever makes it. -/
def State.channelAccess (s : State) (rid lane : Nat) (mismatch act supact aged : Bool) : Option State :=
  if rid = 0 then (if s.tier0Ok (64 * lane) then some (s.setEv lane (evBits mismatch act supact aged)) else none)
  else
    match s.chanQ.find? (fun c => c.rid == rid && c.lane == lane) with
    | none => none
    | some c =>
        if c.kind = .rmw || s.chanQ.find? (fun d => d.line == c.line) ≠ some c then none
        else some ((if c.tier1 then s else s.setEv c.line (evBits mismatch act supact aged)).serveLine c.line)

def execChannelAccess (rid lane : Nat) (mismatch act supact aged : Bool) (s : State) : Out :=
  event s (s.channelAccess rid lane mismatch act supact aged)

/-- R277: the reduction engine of an item. -/
def State.rdxOf (s : State) (c : ChanItem) : Nat × Nat := s.rdxAt c.pa c.tier1

/-- RDX_REQUEST: the engine takes its oldest operation whose line nothing older waits for, and with it the operations
queued behind it on that line (R278). -/
def State.rdx (s : State) (g ch : Nat) : Option State :=
  match s.chanQ.find? (fun c => c.kind == .rmw && s.rdxOf c == (g, ch) && (s.chanQ.find? (fun d => d.line == c.line) == some c)) with
  | none => none
  | some c => some (s.serveLine c.line)

def execRdxRequest (g ch : Nat) (s : State) : Out := event s (s.rdx g ch)

/-- PARITY_DELTA: the parity channel applies the oldest delta of a line (R262, R264). -/
def State.parityDelta (s : State) (g line : Nat) : Option State :=
  ((s.base g).deltas.find? (fun d => d.line == line)).map (fun d => (s.takeEv true (64 * line) (State.parityChan (64 * line))).1.applyDelta g d)

def execParityDelta (g line : Nat) (s : State) : Out := event s (s.parityDelta g line)

/-- WRITE_APPLY: a die applies a write of its apply queue (R220, R244). -/
def State.writeApply (s : State) (die k : Nat) : Option State :=
  match (s.die die).applyQ[k]? with
  | none => none
  | some a =>
      if (s.die die).mayApply die k then
        let s := s.modDie die (fun d => d.applyAt die k)
        some (if a.bytes.isEmpty then s else s.wake die a.line a.off a.bytes)
      else none

def execWriteApply (die k : Nat) (s : State) : Out := event s (s.writeApply die k)

/-! ### The slices (R173, R174, R212) -/

/-- The DS address of a lane of an SP or DS request. -/
def State.dsAddr (s : State) (r : Req) (l : Lane) : Nat :=
  match r.space with
  | .sp => (match s.team r.grid r.team with
      | some t => t.spds
      | none => 0) + l.addr
  | _ => l.addr

/-- The core whose slice holds a DS address. -/
def sliceCore (addr : Nat) : Nat := addr / 2 ^ 24 * 24 + addr / 2 ^ 19 % 32

/-- Whether a lane waits for its slice: a store to another slice must first have been accepted at the port. -/
def atSlice (r : Req) (l : Lane) : Bool :=
  l.stage == .issued && (ownSlice r l || !r.accepts) || l.stage == .queued

/-- Whether an earlier request of the core to a slice waits. -/
def State.sliceBefore (s : State) (r : Req) (c : Nat) : Bool :=
  (Tab.vals s.reqs).any (fun q => (q.space == .sp || q.space == .ds) && q.core == r.core && decide (q.rid < r.rid) &&
    !q.cancelled && q.lanes.any (fun l => sliceCore (s.dsAddr q l) == c && !(l.stage == .landed || l.isFailed)))

/-- Whether a write of the issuing die to the same slice bytes, accepted before, has not been served yet (R212, R220). -/
def State.sliceOlder (s : State) (r : Req) (l : Lane) : Bool :=
  (Tab.vals s.reqs).any (fun q => q.rid != r.rid && q.space == .ds && dieOf q.core == dieOf r.core &&
    q.lanes.any (fun k => k.stage == .queued && (l.num == 0 || decide (k.num < l.num)) &&
      overlap k.addr q.size (s.dsAddr r l) r.size))

/-- Whether the die of a slice may take a write of another die: its predecessors have been applied there (R212). -/
def State.sliceReady (s : State) (r : Req) (l : Lane) : Bool :=
  let t := l.addr / 2 ^ 24
  let src := dieOf r.core
  t == src || l.num == 0 || ((s.die t).applyQ.find? (fun a => a.src == src && a.num == l.num)).all (fun a =>
    a.num == Tab.getD (s.die t).clock src 0 + 1 && (s.die t).covers (Tab.erase a.stamp src))

/-- One lane served at its slice; a read takes with it what the slice's die has applied (R240). -/
def State.sliceLane (s : State) (r : Req) (l : Lane) : State × Lane :=
  let a := s.dsAddr r l
  let s := if a / 2 ^ 24 = dieOf r.core ∨ r.isRead = false then s
    else s.modReq r.rid (fun q => { q with clock := mergeClock q.clock (s.die (a / 2 ^ 24)).clock })
  let land := fun (s : State) (l : Lane) => (if l.num = 0 then s else s.performed (dieOf r.core) l.num none, { l with stage := .landed })
  if r.space = .ds && ((s.core (sliceCore a)).part != r.part || (s.stopFailed (sliceCore a) && sliceCore a != r.core) ||
      s.diePathFailed (dieOf r.core) (a / 2 ^ 24)) then
    (if l.num = 0 then s else s.performed (dieOf r.core) l.num none, { l with stage := .failed .refused })
  else
    match r.kind with
    | .load => (s, { l with stage := .landed, got := Mem.readN s.ds a r.size })
    | .store => land { s with ds := Mem.writeN s.ds a l.data } l
    | _ =>
        let old := Mem.readN s.ds a r.size
        land { s with ds := Mem.writeN s.ds a (aopBytes r.aop r.size old l.data) } { l with got := old }

/-- DS_REQUEST: the slice of the request's first waiting lane serves all its lanes there. -/
def State.dsRequest (s : State) (rid : Nat) : Option State :=
  match Tab.find s.reqs rid with
  | none => none
  | some r =>
      if r.cancelled || !(r.space == .sp || r.space == .ds) then none
      else
        match r.lanes.find? (fun l => atSlice r l && !s.sliceBefore r (sliceCore (s.dsAddr r l)) && s.sliceReady r l &&
            !s.sliceOlder r l) with
        | none => none
        | some l0 =>
            let c := sliceCore (s.dsAddr r l0)
            match s.leavePort r with
            | none => none
            | some (s, r) =>
                if s.stopFailed r.core && !ownSlice r l0 && l0.stage == .issued then
                  some ((s.refuseLanes r (fun l => !ownSlice r l)).settleAccept rid)
                else
                  let (s, ls) := r.lanes.foldl (fun (acc : State × List Lane) l =>
                    if atSlice r l && sliceCore (acc.1.dsAddr r l) == c && acc.1.sliceReady r l && !s.sliceOlder r l then
                      let (s, l) := acc.1.sliceLane r l
                      (s, acc.2 ++ [l])
                    else (acc.1, acc.2 ++ [l])) (s, [])
                  some ((s.modReq rid (fun q => { q with lanes := ls })).settleAccept rid)

def execDsRequest (rid : Nat) (s : State) : Out := event s (s.dsRequest rid)

/-! ### Replies and the store-origin table (R165, R168, R175, R177 to R180) -/

/-- Every lane performed or failed. -/
def Req.over (r : Req) : Bool := r.lanes.all (fun l => l.stage == .landed || l.isFailed)

/-- STORE_PERFORM: the entry is freed, its failures reported (R179, R180); what a peer's later failure report returns stays (R367, log
entry 64). -/
def State.storePerform (s : State) (rid : Nat) : Option State :=
  match Tab.find s.reqs rid with
  | none => none
  | some r =>
      if r.kind = .sig then
        (if r.accepted && s.homeDone (s.die (dieOf r.core)).clock then some { s.performSig r with reqs := Tab.erase s.reqs rid }
         else none)
      else if !r.over || !(r.isWrite || r.kind == .atomic) || (r.isWrite && !r.accepted) || !(r.entry || r.isWrite || r.exited) then none
      else
        match r.peer with
        | some q => some (s.pmOver q r)
        | none =>
        let s := if r.kind = .skupd then (s.forget (.cmd rid)).performed (dieOf r.core) (r.lanes.headD { lane := 0, addr := 0 }).num none else s
        let s := if r.entry then s.failRecords 0x02 r r.exited else s
        let s := if r.kind = .atomic ∧ r.exited = true then s.failRecords 0x0F r false else s
        let s := if r.space = .pm then { s with pmDone := Tab.set s.pmDone rid r } else s
        if r.isWrite || r.exited then some { s with reqs := Tab.erase s.reqs rid }
        else some (s.modReq rid (fun r => { r with entry := false }))

def execStorePerform (rid : Nat) (s : State) : Out := event s (s.storePerform rid)

/-- The value a failed reply writes (R177). -/
def poisonWord : Word := 0x7FFFC0DE

/-- The word of a lane's reply that goes to register k of the run (R165). -/
def Req.replyWord (r : Req) (l : Lane) (k : Nat) : Word :=
  if l.isFailed then poisonWord
  else
    let x := ofBytes ((l.got.drop (4 * k)).take 4)
    if r.kind = .load ∧ r.size < 4 then (if r.sx then wordOfInt (sExt x (8 * r.size)) else wordOfNat x) else wordOfNat x

/-- The registers of a reply written in its lanes. -/
def Req.writeRegs (r : Req) (p : Pane) : Pane :=
  match r.d with
  | none => p
  | some d => (List.range r.regs).foldl (fun p k =>
      p.vset (d + k) (r.lanes.foldl (fun m l => setBit m l.lane true) 0)
        (fun L => ((r.lanes.find? (fun l => l.lane == L)).map (fun l => r.replyWord l k)).getD 0)) p

/-- An atomic's value is held back until its die has applied the operation (R244). -/
def State.replyHeld (s : State) (r : Req) : Bool :=
  r.kind == .atomic && (s.die (dieOf r.core)).applyQ.any (fun a => a.src == dieOf r.core && a.rmw && r.lanes.any (fun l => l.num == a.num))

/-- What a reply carries of the places its lanes read reaches the pane: at once where the word or a later fence acquires it, else at
the pane's next acquisition (R239 to R241). -/
def Req.sight (r : Req) (p : Pane) : Pane :=
  if r.acq ∨ r.rid < p.acqMark then { p with clock := mergeClock p.clock r.clock } else p.sees r.clock

/-- The failures of a reply are reported, by the port and, for an atomic whose entry is still held, by the core (R177, R180). -/
def State.replyRecords (s : State) (r : Req) : State :=
  let s := if r.entry then s.failRecords 0x02 r r.exited else s
  s.failRecords 0x0F r false

/-- MEMORY_REPLY: the registers, the error flags, the counter; a filtered read or POSRD carries its ENGINE flag in `tag`
(R322, R333). The reply of a pane that has executed EXIT is discarded; its failures are reported (R177, R178). -/
def State.reply (s : State) (rid : Nat) : Option State :=
  match Tab.find s.reqs rid with
  | none => none
  | some r =>
      let loads := match r.kind with
        | .load | .tex | .hgrid | .posrd => true
        | .atomic => !r.exited
        | _ => false
      if !loads || r.cancelled || !r.over || s.replyHeld r then none
      else
        let s := s.replyRecords r
        let s := if r.exited then s
          else (s.modPane r.pid (fun p => r.sight (r.writeRegs p))).acFall2 r (r.lanes.any Lane.isFailed) r.tag
        some { s with reqs := Tab.erase s.reqs rid }

def execMemoryReply (rid : Nat) (s : State) : Out := event s (s.reply rid)

/-- CLD_REPLY: the capability register, null where the reply failed; it is no longer pending (R160). -/
def State.cldReply (s : State) (rid : Nat) : Option State :=
  match Tab.find s.reqs rid with
  | none => none
  | some r =>
      if r.kind ≠ .cld ∨ r.cancelled = true ∨ r.over = false then none
      else if r.exited then some { s.failRecords 0x0F r false with reqs := Tab.erase s.reqs rid }
      else
        match r.lanes with
        | [] => none
        | l :: _ =>
            let x : Cap := if l.isFailed then {} else ⟨l.gotTag && r.tag, BitVec.ofNat 128 (ofBytes l.got)⟩
            let d := r.d.getD 0
            let s := s.failRecords 0x0F r false
            let s := (s.modPane r.pid (fun p => { r.sight (p.cset d x) with cPend := setBit p.cPend d false })).acFall r l.isFailed
            some { s with reqs := Tab.erase s.reqs rid }

def execCldReply (rid : Nat) (s : State) : Out := event s (s.cldReply rid)

/-! ### The host link (R368) -/

/-- Whether an earlier access to the same host bytes waits. -/
def State.hostBefore (s : State) (r : Req) (blk : Nat) : Bool :=
  (Tab.vals s.reqs).any (fun q => q.hostLane && dieOf q.core == dieOf r.core && decide (q.rid < r.rid) &&
    q.lanes.any (fun k => k.stage == .queued && k.pa / 64 == blk &&
      r.lanes.any (fun l => l.stage == .queued && overlap k.pa q.size l.pa r.size)))

/-- The number and predecessors of a write that is under way. -/
def State.stampOf (s : State) (die num : Nat) : Tab Nat :=
  match s.ref.applyQ.find? (fun a => a.src == die && a.num == num) with
  | some a => Tab.set a.stamp die num
  | none => []

/-- The lanes of one 64-byte request of the host interface complete, or are refused (R368); a host word keeps what its writers had
seen, and its readers take it (R240). -/
def State.hostLanes (s : State) (r : Req) (blk : Nat) (ok : Bool) : State × List Lane × Tab Nat :=
  let die := dieOf r.core
  r.lanes.foldl (fun (acc : State × List Lane × Tab Nat) l =>
    let (s, ls, seen) := acc
    let done := fun (s : State) => if l.num = 0 then s else s.performed die l.num none
    if l.stage ≠ .queued ∨ l.pa / 64 ≠ blk then (s, ls ++ [l], seen)
    else if !ok then (done s, ls ++ [{ l with stage := .failed .refused }], seen)
    else if r.isRead then
      (s, ls ++ [{ l with stage := .landed, got := Mem.readN s.hm l.pa r.size }], mergeClock seen (Tab.getD s.hmClock blk []))
    else
      let c := mergeClock (Tab.getD s.hmClock blk []) (s.stampOf die l.num)
      (done { s with hm := Mem.writeN s.hm l.pa l.data, hmClock := Tab.set s.hmClock blk c }, ls ++ [{ l with stage := .landed }], seen))
    (s, [], r.clock)

/-- A request of 64 bytes of host memory ends; a store has been accepted at the host once no part of it waits. -/
def State.hostComplete (s : State) (rid blk : Nat) (ok : Bool) : Option State :=
  match Tab.find s.reqs rid with
  | none => none
  | some r =>
      if !r.hostLane || s.hostBefore r blk || r.cancelled || !(r.lanes.any (fun l => l.stage == .queued && l.pa / 64 == blk)) then none
      else
        let (s, ls, seen) := s.hostLanes r blk ok
        some (s.modReq rid (fun r =>
          { r with lanes := ls, clock := seen, destAccepted := ls.all (fun l => l.stage == .landed || l.isFailed) }))

/-- HOST_COMPLETION: Unsupported Request, Completer Abort and an IDE rejection are refusals. -/
def execHostCompletion (rid : HostBlock) (st : CplStatus) (s : State) : Out :=
  event s (s.hostComplete rid.rid rid.blk (st == .ok))

/-- HOST_COMPLETION_TIMEOUT after 50 ms: refused. -/
def execHostCompletionTimeout (rid : HostBlock) (s : State) : Out :=
  event s (s.hostComplete rid.rid rid.blk false)

/-! ### Page requests (R229, R230, R388) -/

/-- The lanes held under a tag go on: to their second translation, or to failure, which may be the last that a store's acceptance
waited for (R175, R230). -/
def State.releaseTag (s : State) (tag : Nat) (ok : Bool) : State :=
  let mine := ((Tab.vals s.reqs).filter (fun r => r.lanes.any (fun l => l.stage == .held tag))).map Req.rid
  mine.foldl State.settleAccept { s with reqs := s.reqs.map (fun e => (e.1, { e.2 with lanes := e.2.lanes.map (fun l =>
      if l.stage = .held tag then (if ok then { l with stage := .issued, again := true } else { l with stage := .failed .unresolved })
      else l) })) }

/-- The elements of engine commands that wait under a tag are replayed or fail (R229). -/
def ECmd.release (c : ECmd) (tag : Nat) (ok : Bool) : ECmd :=
  let mine := (c.waiting.filter (fun w => w.2 == tag)).map Prod.fst
  let rest := c.waiting.filter (fun w => w.2 != tag)
  if ok then { c with waiting := rest, ready := c.ready ++ mine.filter (fun i => !c.failed.contains i) }
  else { c with waiting := rest, failed := c.failed ++ (mine.eraseDups).filter (fun i => !c.failed.contains i),
                ready := c.ready.filter (fun i => !mine.contains i) }

def State.releaseElems (s : State) (tag : Nat) (ok : Bool) : State :=
  { s with dies := s.dies.map (fun (e : Nat × Die) => (e.1, { e.2 with blks := e.2.blks.map (fun (b : Blk) =>
      { b with cmds := b.cmds.map (fun c => c.release tag ok) }) })) }

def PageCode.num : PageCode → Nat
  | .success => 0 | .invalid => 1 | .failure => 15

/-- PAGE_RESPONSE: its PASID and PRG index select the entry. -/
def State.pageResponse (s : State) (sel : PageSel) (code : PageCode) : Option State :=
  match s.pages.find? (fun e => e.2.part == sel.pasid && e.2.prg == sel.prg) with
  | none => none
  | some (tag, e) =>
      let ok := code == .success
      let s := { s with pages := Tab.erase s.pages tag,
                        answered := (match e.who with
                          | .unit w => s.answered ++ [(w, e.part, e.obj, e.page, ok)]
                          | _ => s.answered) }
      let s := (s.releaseTag tag ok).releaseElems tag ok
      some (if ok then s else s.record 0x0B e.part 112 [wordOfNat e.obj, wordOfNat e.page, wordOfNat (PageCode.num code)])

def execPageResponse (sel : PageSel) (code : PageCode) (s : State) : Out := event s (s.pageResponse sel code)

/-- PAGE_REQUEST_TIMEOUT: no response for 1 s is reported; the entry stays. -/
def execPageRequestTimeout (tag : Nat) (s : State) : Out :=
  event s ((Tab.find s.pages tag).map (fun e => s.record 0x06 e.part 112 [wordOfNat tag, 0]))

/-! ### Frozen configuration (R375) -/

/-- Collectives that use a port or a session that failed end with code 4 (R373). -/
def State.collsLost (s : State) (bad : Session → Bool) : State :=
  let lost := fun (c : Coll) => c.ranks.zipIdx.any (fun r => r.2 != c.myrank &&
    s.sessions.any (fun x => bad x && x.part == c.cmd.part && x.peer == r.1.1 && x.ppart == r.1.2))
  { s with colls := s.colls.map (fun (e : Nat × Coll) => if lost e.2 && e.2.code == 0 then (e.1, { e.2 with code := 4 }) else e) }

/-- A TLP without IDE that targets the MMIO of a TDI in RUN is rejected (R375). -/
def State.ideRefused (s : State) (p : Nat) (ide : Bool) : Bool := !ide && (s.part p).tdi == 2

/-- A TLP that does not reach a register of a partition: through a TDI's space it reaches only that TDI's own, and under IDE in RUN
(R375, R393). -/
def State.tlpBarred (s : State) (part : Nat) (ide : Bool) (tdi : Option Nat) : Bool :=
  tdi.any (fun p => p != part || s.ideRefused p ide)

/-- Whether the configuration of a partition is frozen. -/
def State.tdiLocked (s : State) (p : Nat) : Bool := (s.part p).tdi == 1 || (s.part p).tdi == 2

/-- A write to frozen state is not performed: the TDI goes to ERROR, its sessions fail, a record is sent (R375, R385). -/
def State.tdiError (s : State) (p cause : Nat) : State :=
  let old := (s.part p).tdi
  let t := s.modPart p (fun x => { x with tdi := 3 })
  let t := (t.sessions.filter (fun y => y.part == p)).foldl (fun t y => t.dropMsgs y.port (fun m => m.sess == y.num)) t
  (({ t with sessions := t.sessions.map (fun y => if y.part = p then { y with failed := true } else y) } : State).record 0x0E p 112
    [wordOfNat p, wordOfNat old, wordOfNat cause]).collsLost (fun y => y.part == p)

/-! ### GEN (R231, R268) -/

/-- GEN_RAISE: ignored while a raise is under way (R394); the node buffers lose every line (R304); the control is frozen in a
locked TDI (R375). -/
def State.genRaise (s : State) (part : Nat) : State :=
  if (s.part part).genDone && s.tdiLocked part then s.tdiError part 1
  else if (s.part part).genDone then
    { s.modPart part (fun p => { p with gen := (p.gen + 1) % 2 ^ 32, genDone := false }) with
      bases := s.bases.map (fun (e : Nat × Base) => (e.1, { e.2 with trv := { e.2.trv with nodes := [] } })) }
  else s

def execGenRaise (part : Nat) (s : State) : Out := .next (s.genRaise part)

/-- Accesses of a partition that were translated and are not yet performed, accepted or refused. -/
def State.translatedOpen (s : State) (part : Nat) : Bool :=
  (Tab.vals s.reqs).any (fun r => r.part == part && r.translated && r.lanes.any (fun l => match l.stage with
    | .ported _ _ _ => true
    | .queued => r.reads
    | _ => false))

/-- Writes taken out of the park buffers and not yet accepted. -/
def State.replaying (s : State) (part : Nat) : Bool := s.parkQ.any (fun p => p.part == part && p.replay)

/-- OTGENDONE (R231): every port has adopted GEN and every older access and replay is over. -/
def State.otGenDone (s : State) (part : Nat) : Bool :=
  (s.part part).genDone

/-- Parked writes are to be replayed, in park order (R268). -/
def State.unpark (s : State) (which : Parked → Bool) : State :=
  let lanes := s.parkQ.filterMap (fun p => if which p then (match p.kind with
    | .lane rid L => some (rid, L)
    | _ => none) else none)
  lanes.foldl (fun s k => s.setLane k.1 k.2 (fun l => if l.stage = .parked then { l with stage := .replay } else l))
    { s with parkQ := s.parkQ.map (fun p => if which p then { p with replay := true } else p) }

/-- GEN_ADOPTION: every port adopts the value once its older accesses are over; parked writes are replayed in park order;
the dropped lists' entries of the partition are freed. A second adoption ends the raise when the replays are over. -/
def State.genAdopt (s : State) (part : Nat) : Option State :=
  let p := s.part part
  if p.genDone then none
  else if p.genCur ≠ p.gen then
    if s.translatedOpen part then none
    else
      let mine := fun (x : Nat) => x / 65536 == part
      let s := s.modPart part (fun p => { p with genCur := p.gen })
      let s := s.unpark (fun p => p.part == part)
      let s := { s with bases := s.bases.map (fun (e : Nat × Base) => (e.1, { e.2 with trv := { e.2.trv with nodes := [] } })) }
      let s := { s with invals := s.invals.filter (fun i => !mine i.1), invalDone := s.invalDone.filter (fun i => !mine i.1),
                        dies := s.dies.map (fun (e : Nat × Die) => (e.1, { e.2 with dropped := e.2.dropped.filter (fun d => !mine d.1) })) }
      some (if s.replaying part then s else s.modPart part (fun p => { p with genDone := true }))
  else if s.replaying part || s.translatedOpen part then none
  else some (s.modPart part (fun p => { p with genDone := true }))

def execGenAdoption (part : Nat) (s : State) : Out := event s (s.genAdopt part)

/-! ### Duplicated pages (R269) -/

/-- Whether a die's reads of a copy are in flight. -/
def State.copyReads (s : State) (die objno : Nat) : Bool :=
  s.chanQ.any (fun c => c.die == die && !c.fill && ((Tab.find s.reqs c.rid).map (fun r => objNo r.part r.obj == objno)).getD false) ||
  (Tab.vals s.reqs).any (fun r => dieOf r.core == die && objNo r.part r.obj == objno && r.reads && r.lanes.any (fun l => match l.stage with
    | .ported _ _ copy => copy
    | _ => false))

/-- DUP_INVALIDATION: a port drops the extent once its reads of the copy have returned, and acknowledges. -/
def State.dupInvalidate (s : State) (die objno ext : Nat) : Option State :=
  match s.inval objno ext with
  | none => none
  | some l =>
      if !l.contains die || s.copyReads die objno || 64 ≤ (s.die die).dropped.length then none
      else
        some ({ s with invals := s.invals.map (fun (e : Nat × Nat × List Nat) =>
          if e.1 = objno ∧ e.2.1 = ext then (e.1, e.2.1, l.filter (· != die)) else e) }.modDie die (fun d =>
            { d with dropped := d.dropped ++ [(objno, ext)] }))

def execDupInvalidation (die objno ext : Nat) (s : State) : Out := event s (s.dupInvalidate die objno ext)

/-- DUP_INVALIDATION_ACK: with every acknowledgement there, the parked writes go on and the home base die reports. -/
def State.dupAck (s : State) (objno ext : Nat) : Option State :=
  let part := objno / 65536
  let mine := fun (p : Parked) => objNo p.part p.obj == objno
  if s.inval objno ext ≠ some [] ∨ s.invalDone.contains (objno, ext) = true then none
  else
    let die := ((s.parkQ.find? mine).map Parked.die).getD 0
    let s := { s with invalDone := s.invalDone ++ [(objno, ext)] }
    let o := s.readObj die part (objno % 65536)
    let e := (o.bind (fun o => o.exts[ext]?)).getD ⟨0, 0, false, 0, 0, 0⟩
    some ((s.unpark mine).record 0x0D part (64 + e.pfn / 2 ^ 20 % 16) [wordOfNat (objno % 65536), wordOfNat e.voff, wordOfNat e.dup])

def execDupInvalidationAck (objno ext : Nat) (s : State) : Out := event s (s.dupAck objno ext)

/-! ### Failed paths (R217, R232) -/

/-- MESH_FLIT_FAILURE: a flit fails its check. It passes at a retry, or fails the fourth: then the stop has failed, and a record
with the die's source number is sent. Each retry is counted (R217). -/
def execMeshFlitFailure (die : Nat) (cluster : MeshFlit) (s : State) : Out :=
  let cl := cluster.cluster
  event s (if (s.cluster (4 * die + cl)).failed then none
    else
      let count := fun (n : Nat) (s : State) => s.modCluster (4 * die + cl) (fun c => { c with retry := min (c.retry + n) 0xFFFFFFFF })
      match cluster.passed with
      | some k => some (count (k.val + 1) s)
      | none => some (((count 4 s).modCluster (4 * die + cl) (fun c => { c with failed := true })).record 0x07 0 die [wordOfNat cl, 4, 0]))

/-- CLSTAT_RESET: the stop serves again; open phases that have their arrivals complete. -/
def State.clstatReset (s : State) (die cl : Nat) : State :=
  let s := s.modCluster (4 * die + cl) (fun c => { c with failed := false })
  (Tab.keys (s.cluster (4 * die + cl)).sets).foldl (fun s p => s.settleCl (4 * die + cl) p) s

def execClstatReset (die cl : Nat) (s : State) : Out := .next (s.clstatReset die cl)

/-- DIE_LINK_FAILURE: after four retries the link is failed (R232). -/
def execDieLinkFailure (die link : Nat) (s : State) : Out :=
  event s (if (s.die die).links.contains link then none
    else some ((s.modDie die (fun d => { d with links := d.links ++ [link] })).record 0x07 0 die [wordOfNat link, 4, 0]))

end Sys2Proof.Machine
end

