-- ==== Sys2Proof/Machine/Teams.lean ====
section
/-! DEFINITION. Kernel headers, the scratchpads of a slice, and a pane at its beginning: what placement (R356) and
formation (R149) share (R23, R24, R142, R350). -/

namespace Sys2Proof.Machine

/-- A kernel header (R350). -/
structure Kernel where
  regs    : Nat
  scratch : Nat
  caps    : Nat
  trapvec : Nat
  deriving DecidableEq, Repr

/-- The header 64 bytes hold; none where it is malformed. -/
def Kernel.parse (x : Nat) : Option Kernel :=
  let regs := nbitsOf x 0 7
  let scratch := nbitsOf x 32 32
  let caps := nbitsOf x 64 6
  let tv := nbitsOf x 96 64
  if nbitsOf x 160 352 = 0 ∧ nbitsOf x 7 9 = 0 ∧ nbitsOf x 16 16 = 0x4B48 ∧ nbitsOf x 70 26 = 0 ∧
      regs % 8 = 0 ∧ 8 ≤ regs ∧ regs ≤ 120 ∧ scratch % 128 = 0 ∧ scratch ≤ 524288 ∧ caps ≤ 32 ∧
      tv < 2 ^ 56 ∧ tv % 16 = 0 then some ⟨regs, scratch, caps, tv⟩ else none

/-- What the read of a header gives. -/
inductive KRead where
  | wait
  | bad
  | ok (k : Kernel)
  deriving DecidableEq, Repr

/-- The header of an entry, read under the partition's key (R350). -/
def State.readKernel (s : State) (v : Via) (entry : Nat) : State × KRead :=
  if entry < 64 then (s, .bad)
  else
  match s.readVA v (entry - 64) 64 with
  | (s, .wait) => (s, .wait)
  | (s, .fail _) => (s, .bad)
  | (s, .ok b) =>
      match Kernel.parse (ofBytes b) with
      | some k => (s, .ok k)
      | none => (s, .bad)

/-! ### Scratchpads -/

/-- The runs of a core's slice that its teams hold. -/
def State.sliceRuns (s : State) (core : Nat) : List (Nat × Nat) :=
  ((Tab.vals s.teams).filter (fun t => t.home == some core && decide (0 < t.scratch))).map (fun t => (t.spds, t.scratch))

/-- Whether n bytes at an offset of a slice are free. -/
def State.sliceFree (s : State) (core off n : Nat) : Bool :=
  decide (off + n ≤ 524288) &&
    (s.sliceRuns core).all (fun r => decide (sliceBase core + off + n ≤ r.1) || decide (r.1 + r.2 ≤ sliceBase core + off))

/-- The lowest free place of n bytes in a slice: at its start or behind a team's scratchpad (log entry 27). -/
def State.scratchAt (s : State) (core n : Nat) : Option Nat :=
  ((0 :: (s.sliceRuns core).map (fun r => r.1 + r.2 - sliceBase core)).filter (fun o => s.sliceFree core o n)).min?

/-- The lowest free area of n. -/
def lowestFree (used : List Nat) (n : Nat) : Option Nat :=
  (List.range (used.length + 1)).find? (fun i => decide (i < n) && !used.contains i)

/-! ### A pane at its beginning -/

/-- A list brought to a length. -/
def padTo {α : Type} (n : Nat) (d : α) (l : List α) : List α := (l ++ List.replicate n d).take n

/-- A pane of a grid as R23 and R10, R17 give it. -/
def Grid.newPane (g : Grid) (gid pid core : Nat) : Pane :=
  { pid := pid, grid := gid, depth := g.depth, part := g.part, prio := g.prio, core := core, place := .ready,
    nregs := g.regs, pc := BitVec.ofNat 56 g.entry, v := List.replicate g.regs (List.replicate 32 0),
    s := padTo 64 0 g.args, c := padTo 32 {} g.caps,
    xctl := wordOfNat ((if g.ftz then 1 else 0) + (if g.mxsat then 2 else 0)),
    trapvecL := wordOfNat g.trapvec, trapvecH := wordOfNat (g.trapvec / 2 ^ 32), stklim := wordOfNat g.stklim,
    clock := g.clock }

/-- The stack registers of a pane: bits [55:0] of its area (R17). -/
def Pane.withStack (p : Pane) (base : Nat) : Pane :=
  { p with stksaveL := wordOfNat base, stksaveH := wordOfNat (base / 2 ^ 32 % 2 ^ 24) }

/-- A pane joins its core's panes and its ready queue. -/
def State.addPane (s : State) (p : Pane) : State :=
  ({ s with panes := Tab.set s.panes p.pid p, nextPid := max s.nextPid (p.pid + 1) } : State).enqueue p.pid

/-- A team on its home core, its scratchpad all 0 and its barriers idle (R356). -/
def State.addTeam (s : State) (grid ord part core spds n : Nat) : State :=
  { s with teams := Tab.set s.teams (teamKey grid ord)
             { grid := grid, ord := ord, part := part, home := some core, spds := spds, scratch := n },
           ds := Mem.clear s.ds spds n }

end Sys2Proof.Machine
end

