-- ==== Sys2Proof/Machine/Spawn.lean ====
section
/-! DEFINITION. WAITMEM, SPAWN and the spawn bins, team and cluster barriers (R143 to R153, R213 to R218). -/

namespace Sys2Proof.Machine

/-! ### WAITMEM (R143 to R146) -/

/-- The record of a WAITMEM's failed access (R146): one lane, cause 3 where the object table refuses it. -/
def State.watchRecord (s : State) (p : Pane) (c : Cause) : State :=
  s.record 0x0F p.part (dieOf p.core)
    [wordOfNat p.pc.toNat, wordOfNat (p.pc.toNat / 2 ^ 32), wordOfNat p.grid, wordOfNat p.team, wordOfNat p.pord, 0x74, 1,
     wordOfNat c.code, 0]

/-- The pane's access failed: it is ready at once, and its WAITMEM raises the engine-error trap when it issues. -/
def State.watchFail (s : State) (p : Pane) (c : Cause) : State :=
  ((s.watchRecord p c).modPane p.pid (fun p => { p with wait := .failed, watch := none })).enqueue p.pid

/-- Whether an earlier access of the pane to the watched word has not been ordered yet (R167). -/
def State.watchBlocked (s : State) (p : Pane) (w : Watch) : Bool :=
  (s.paneReqs p.pid).any (fun q => q.space == .dm && q.obj == w.obj && q.kind != .prefetch &&
    q.lanes.any (fun k => overlap k.addr q.size w.addr 4 && !k.stage.ordered))

/-- The final read: the pane is ready, with the value in sD. It is acquired at .SYS (R143). -/
def State.watchDone (s : State) (p : Pane) (w : Watch) (v : Word) : State :=
  (s.modPane p.pid (fun p =>
    { (match w.d with
        | some d => p.sset d.val v
        | none => p).acquire with
      watch := none })).enqueue p.pid

/-- Whether the object table refuses a device access. -/
def State.tableRefuses (s : State) (die part obj va : Nat) : Bool :=
  match s.readObj die part obj with
  | none => true
  | some o => s.transObj o part 0 va == .refused

/-- A watch reads through its pane's die. -/
def Pane.watchVia (p : Pane) : Via := { who := .watch p.pid, die := dieOf p.core, part := p.part, core := some p.core, view := true }

/-- Whether `Woken()` holds: a write left the word different, or the final read is due (R143, R145). -/
def Watch.woken (w : Watch) : Bool := w.due || w.got.isSome

/-- The value of the final read: where a write woke the pane and a later one restored the word, the value that woke it, since a pane
wakes with an unchanged value in the cases of R145 alone (log entry 97). -/
def Watch.value (w : Watch) (v : Word) : Word := if v = w.expect then w.got.getD v else v

/-- A comparison at the park that finds no difference, or cannot be made, leaves the pane parked (R144; log entry 97). -/
def State.looked (s : State) (pid : Nat) (w : Watch) : State := s.modPane pid (fun p => { p with watch := some { w with looked := true } })

/-- WAITMEM_FINAL_READ: the watched word, as the pane's die sees it: the comparison at the park, and the final read of a pane that is
woken. A read of a page that is not resident waits for it. -/
def State.finalRead (s : State) (pid : Nat) : Option State :=
  match s.getPane pid with
  | none => none
  | some p =>
      match p.watch, p.place with
      | some w, .parked .waitmem =>
          if s.watchBlocked p w || s.parkedAt (dieOf p.core) p.part w.obj none w.addr 4 || (w.looked && !w.woken) then none
          else
            let bad := fun (t : State) (c : Cause) => let t := t.forget (.watch pid)
              if w.woken then t.watchFail p c else t.looked pid w
            match s.unitObj p.watchVia w.obj w.addr with
            | (t, .wait) => s.waited t
            | (t, .fail c) => some (bad t c)
            | (t, .ok (pa, t1)) =>
                match t.dieRead p.watchVia false pa 4 t1 with
                | (_, .wait) => none
                | (t, .fail c) => some (bad t c)
                | (t, .ok b) =>
                    let v := w.value (wordOfNat (ofBytes b))
                    let t := t.forget (.watch pid)
                    some (if v ≠ w.expect ∨ w.woken = true then t.watchDone p w v else t.looked pid w)
      | _, _ => none

def execWaitmemFinalRead (pid : Nat) (s : State) : Out := event s (s.finalRead pid)

/-- WAITMEM_TIMEOUT: TIMEOUT · 256 cycles have passed since the park. -/
def State.watchTimeout (s : State) (pid : Nat) : Option State :=
  match (s.getPane pid).bind Pane.watch with
  | none => none
  | some w =>
      if w.woken = false ∧ w.until_.any (fun u => decide (u ≤ s.cycle)) = true then
        some (s.modPane pid (fun p => { p with watch := some { w with due := true, holds := false } }))
      else none

def execWaitmemTimeout (pid : Nat) (s : State) : Out := event s (s.watchTimeout pid)

/-- The watches of a core that are held (R144). -/
def State.watches (s : State) (core : Nat) : Nat :=
  ((s.corePanes core).filter (fun p => p.watch.any (fun w => w.holds))).length

/-- The pane leaves its slot and parks; its word is compared, and with no free watch its final read follows, at once (R144). -/
def State.watchPark (s : State) (addr obj : Nat) (expect : Word) (d : Option (Fin 64)) (timeout : Nat) : State :=
  let p := s.pane
  let free := decide (s.watches p.core < 32)
  let w : Watch := { addr := addr, obj := obj, expect := expect, d := d, holds := free, due := !free,
                     until_ := if timeout = 0 then none else some (s.cycle + 256 * timeout) }
  let s := ended (onPane (fun p => { p.leave (.parked .waitmem) s.cycle with wait := .begun, watch := some w }) s)
  if s.tableRefuses (dieOf p.core) p.part obj addr then s.watchFail s.pane .refused
  else (s.finalRead p.pid).getD s

/-- The register a SOpt destination names. -/
def SOpt.num : SOpt → Option (Fin 64)
  | .reg n => some n
  | .zero => none

/-- R143: WAITMEM. Its second issue, after the wake, completes it or raises the trap of R146. -/
def execWaitmem (d : SOpt) (a : SSrc) (base : CReg) (timeout : Option (BitVec 20)) (s : State) : Out :=
  let p := s.pane
  match p.wait with
  | .begun => done (fun p => { p with wait := .none }) s
  | .failed => .next (takeTrap cEngine 0x10 s)
  | .none =>
      let c := p.creg base.val
      let off := uns (a.val p)
      memWord false s (fun s =>
        match (chkCap p.part c rR base.val).or ((chkAlign [0] (fun _ => c.base + off) 4 base.val).or
            (chkBounds [0] (fun _ => decide (off + 4 ≤ c.len)) base.val)) with
        | some (cause, detail) => takeTrap cause detail s
        | none => s.watchPark (c.base + off) c.obj (d.val p) (SOpt.num d) ((timeout.map BitVec.toNat).getD 0))

/-! ### Spawn bins (R147, R148) -/

/-- The number of a bin with a key. -/
def Core.binOf (c : Core) (key : Option (Nat × Nat)) : Option Nat :=
  (List.range 16).find? (fun b => (c.bins.getD b {}).key == key)

/-- The bin whose most recent insertion is oldest; ties go to the lower number. -/
def Core.oldestBin (c : Core) : Nat :=
  (List.range 16).foldl (fun k b => if (c.bins.getD b {}).touched < (c.bins.getD k {}).touched then b else k) 0

/-- Threads put into a bin; the timer starts when they enter an empty one (rules 1 and 4). -/
def Core.put (c : Core) (now b : Nat) (key : Nat × Nat) (ths : List (List Word × Option Nat)) : Core :=
  let bin := c.bins.getD b {}
  { c with bins := setAt c.bins b { key := some key, threads := bin.threads ++ ths, touched := now,
                                    ends := if bin.threads.isEmpty then now + c.timer else bin.ends } }

/-- A bin forms a pane with its first threads; what remains keeps the key, its timer started anew (rules 3 and 5). -/
def Core.form (c : Core) (now b : Nat) : Core :=
  let bin := c.bins.getD b {}
  match bin.key with
  | none => c
  | some (e, g) =>
      let rest := bin.threads.drop 32
      { c with bins := setAt c.bins b (if rest.isEmpty then {} else { bin with threads := rest, ends := now + c.timer }),
               forming := c.forming ++ [⟨e, g, bin.threads.take 32⟩] }

/-- Fill formations: a bin with 32 threads or more forms panes (rule 3); `n` bounds them. -/
def Core.fill (c : Core) (now b : Nat) : Nat → Core
  | 0 => c
  | n + 1 => if 32 ≤ (c.bins.getD b {}).threads.length then (c.form now b).fill now b n else c

def Core.fills (c : Core) (now : Nat) : Core :=
  (List.range 16).foldl (fun c b => c.fill now b ((c.bins.getD b {}).threads.length / 32)) c

/-- The insertions of a cycle that find their key or a free bin; the others (rules 1 and 2). -/
def Core.inserts (c : Core) (now : Nat) : Core × List ((Nat × Nat) × List (List Word × Option Nat)) :=
  let order := c.pend.filter (fun e => !e.1) ++ c.pend.filter (fun e => e.1)
  order.foldl (fun (acc : Core × List ((Nat × Nat) × List (List Word × Option Nat))) e =>
    match acc.1.binOf (some e.2.1), acc.1.binOf none with
    | some b, _ | none, some b => (acc.1.put now b e.2.1 e.2.2, acc.2)
    | none, none => (acc.1, acc.2 ++ [e.2])) ({ c with pend := [] }, [])

/-- Whether a bin's timer has ended. -/
def Core.timed (c : Core) (now b : Nat) : Bool :=
  let bin := c.bins.getD b {}
  bin.key.isSome && !bin.threads.isEmpty && decide (bin.ends ≤ now)

/-- A key that found no free bin flushes the bin whose most recent insertion is oldest (rule 2). -/
def Core.flush (c : Core) (now : Nat) (e : (Nat × Nat) × List (List Word × Option Nat)) : Core :=
  match c.binOf (some e.1), c.binOf none with
  | some b, _ | none, some b => c.put now b e.1 e.2
  | none, none => let b := c.oldestBin
      (c.form now b).put now b e.1 e.2

/-- R148, rule 6: the end of a cycle. Insertions first, then fill formations, timer formations, and the flushes that the cycle's new
keys require. A formation path that held a pane before the cycle stalls the timers (R149). -/
def Core.settleBins (c : Core) (now : Nat) (timers : Bool) : Core :=
  let timers := timers && c.forming.isEmpty
  let (c, late) := c.inserts now
  let c := c.fills now
  let c := if timers then (List.range 16).foldl (fun c b => if c.timed now b then c.form now b else c) c else c
  (late.foldl (fun c e => c.flush now e) c).fills now

/-- Rule 7 beside rule 6: bins of grids that have no pane left on the core form their panes; on a core that is switched out every
bin does (R360). -/
def State.endBins (s : State) (core : Nat) : State :=
  let s := s.modCore core (fun c => c.settleBins s.cycle true)
  if (s.core core).out then (List.range 16).foldl (fun s b => s.formBin core b) s
  else ((s.core core).bins.filterMap Bin.key).foldl (fun s k => s.formGrid core k.2) s

/-- Threads of a cycle on their way to a core's bins. -/
def State.insertThreads (s : State) (core : Nat) (callback : Bool) (key : Nat × Nat) (ths : List (List Word × Option Nat)) : State :=
  s.modCore core (fun c => { c with pend := c.pend ++ [(callback, key, ths)] })

/-- Whether threads need a pane to be formed while the formation path still holds an unplaced pane (R147). -/
def Core.pathHeld (c : Core) (now : Nat) (callback : Bool) (key : Nat × Nat) (ths : List (List Word × Option Nat)) : Bool :=
  let before := (c.settleBins now false).forming.length
  let after := ({ c with pend := c.pend ++ [(callback, key, ths)] }.settleBins now false).forming.length
  decide (before < after) && !c.forming.isEmpty

/-- The payload of a thread: n words of the run, then 0 (R147). -/
def payload (p : Pane) (d : VSrc) (n L : Nat) : List Word :=
  padTo 8 0 (match d with
    | .reg r => (List.range n).map (fun k => p.vreg (r.val + k) L)
    | d => if n = 0 then [] else [d.val p L])

/-- R147: SPAWN, a memory word of R238. -/
def execSpawn (d : VSrc) (a : Fin 63) (n : Fin 9) (s : State) : Out :=
  let p := s.pane
  if p.xm = 0 then .next s
  else if !s.memMayIssue then .next (held s)
  else
    let lo := p.sreg a.val
    let entry := uns lo + bits (p.sreg (a.val + 1)) 0 24 * 2 ^ 32
    if bits lo 0 4 ≠ 0 then .next (takeTrap cTarget lo s)
    else
      let ths : List (List Word × Option Nat) := p.lanes.map (fun L => (payload p d n.val L, none))
      if (s.core p.core).pathHeld s.cycle false (entry, p.grid) ths then .next (held s)
      else .next ((onPane (fun p => p.stale (n.val != 0 && d.stale p)) s).insertThreads p.core false (entry, p.grid) ths)

/-- SPAWN_BIN_TIMER: rule 4 of R148, where the cycle's insertions have been made. -/
def State.binTimer (s : State) (core b : Nat) : Option State :=
  if (s.core core).pend.isEmpty && (s.core core).forming.isEmpty && (s.core core).timed s.cycle b then some (s.modCore core (fun c => c.form s.cycle b)) else none

def execSpawnBinTimer (core bin : Nat) (s : State) : Out := event s (s.binTimer core bin)

/-! ### Formation (R149) -/

/-- A TEAMID above NTEAMM1 that no live team of the grid has; which one is free (R149, log entry 28). -/
def State.spawnTeam (s : State) (gid : Nat) (g : Grid) : State × Nat :=
  let lo := g.nteam
  let live := ((Tab.vals s.teams).filter (fun t => t.grid == gid)).map (fun t => t.ord)
  let (s, w) := s.fresh
  let n := 2 ^ 32 - lo
  (s, ((List.range (live.length + 1)).map (fun i => lo + (uns w + i) % n)).find? (fun t => !live.contains t) |>.getD lo)

/-- The mask and the vector registers of k threads (R24). -/
def Pane.withThreads (p : Pane) (ths : List (List Word × Option Nat)) : Pane :=
  { p with
    xm := maskOf (fun L => decide (L < ths.length)),
    v := (List.range p.nregs).map (fun r => (List.range 32).map (fun L =>
      if r < 8 then ((ths.getD L ([], none)).1).getD r 0 else 0)),
    ctxs := (ths.filterMap Prod.snd).eraseDups }

/-- The ray contexts of a callback pane count it in place of its threads. -/
def State.ctxPane (s : State) (core pid : Nat) (ths : List (List Word × Option Nat)) : State :=
  s.modCore core (fun c => { c with ctxs := c.ctxs.map (fun (e : Nat × RayCtx) =>
    let k := (ths.filter (fun t => t.2 == some e.1)).length
    if k = 0 then e else (e.1, { e.2 with panes := e.2.panes + 1, held := e.2.held - k, pids := e.2.pids ++ [pid] })) })

/-- A pane that a malformed header forms (R350): it parks as TRAP.HOST does, with cause 0x02 and detail bit 0. -/
def State.parkMalformed (s : State) (pid : Nat) : State :=
  let core := ((s.getPane pid).map Pane.core).getD 0
  (s.unqueue core pid).asPane pid (fun s =>
    onPane (fun p => { p with place := .parked (.host false true) }) (s.hostRecord 0x0201 none false))

/-- What a formation takes: a save record, a place in the slice, a stack area; none where one is lacking (R149). -/
def State.formationRoom (s : State) (core : Nat) (g : Grid) (k : Kernel) : Option (Nat × Nat × Option Nat) :=
  match lowestFree g.psUsed g.psaven, s.scratchAt core k.scratch,
      (if g.stklim = 0 then some none else (lowestFree g.stUsed g.sstkn).map some) with
  | some r, some off, some st => some (r, off, st)
  | _, _, _ => none

/-- The pane of a formation takes its place; one that takes no stack area has STKSAVE 0 (DESIGN CHOICE, log entry 28). -/
def State.formPane (s : State) (core : Nat) (f : Forming) (g : Grid) (k : Kernel) (room : Nat × Nat × Option Nat) : State :=
  let (rec, off, st) := room
  let (s, team) := s.spawnTeam f.grid g
  let pid := s.nextPid
  let s := s.modCore core (fun c => { c with forming := c.forming.tail })
  let s := s.addTeam f.grid team g.part core (sliceBase core + off) k.scratch
  let s := s.modGrid f.grid (fun g => { g with
    psUsed := g.psUsed ++ [rec], stUsed := g.stUsed ++ st.toList,
    dies := if g.dies.contains (dieOf core) then g.dies else g.dies ++ [dieOf core] })
  let base := { g with regs := k.regs, trapvec := k.trapvec, entry := f.entry }.newPane f.grid pid core
  let p := (base.withStack ((st.map (fun i => g.sstk + 16 * g.stklim * i)).getD 0)).withThreads f.threads
  ((s.addPane { p with team := team, spawned := true, saveRec := some rec, stkArea := st }).ctxPane core pid f.threads)

/-- PANE_FORMATION: the oldest formation of the core, once its header is read and nothing is lacking. -/
def State.paneForm (s : State) (core : Nat) : Option State :=
  match (s.core core).forming with
  | [] => none
  | f :: _ =>
      match Tab.find s.grids f.grid with
      | none => none
      | some g =>
          match s.readKernel { who := .kernel core, die := dieOf core, part := g.part, hold := true, again := true, core := some core } f.entry with
          | (t, .wait) => s.waited t
          | (t, .bad) => (t.formationRoom core g ⟨8, 0, 0, 0⟩).map (fun room =>
              ((t.forget (.kernel core)).formPane core f g ⟨8, 0, 0, 0⟩ room).parkMalformed t.nextPid)
          | (t, .ok k) => (t.formationRoom core g k).map (fun room => (t.forget (.kernel core)).formPane core f g k room)

/-- The formations of a core that lack nothing, oldest first; `n` bounds them. -/
def State.formAll (core : Nat) : Nat → State → State
  | 0, s => s
  | n + 1, s =>
      match s.paneForm core with
      | none => s
      | some t => if (t.core core).forming.length < (s.core core).forming.length then t.formAll core n else t

def execPaneFormation (core : Nat) (s : State) : Out := event s (s.paneForm core)

/-! ### Team barriers (R151, R152) -/

def Ord.releases : Ord → Bool
  | .rel | .ar => true
  | _ => false

/-- Whether a count from a register is out of range. -/
def badCount (d : SOpt) (p : Pane) (hi : Nat) : Bool :=
  match d with
  | .reg n => decide (uns (p.sreg n.val) = 0) || decide (hi < uns (p.sreg n.val))
  | .zero => false

/-- The expected total that the first arrival of a phase fixes; `some 0` stands for all live panes. -/
def SOpt.total (d : SOpt) (p : Pane) : Option Nat :=
  match d with
  | .reg n => some (uns (p.sreg n.val))
  | .zero => some 0

/-- One more arrival. -/
def Bar.arrive (b : Bar) (total : Option Nat) (grid cycle : Nat) : Bar :=
  { b with count := b.count + 1, last := cycle, total := if b.count = 0 then total else b.total, grid := if b.count = 0 then grid else b.grid }

def State.teamBar (s : State) (b : Nat) : Bar :=
  ((s.team s.pane.grid s.pane.team).map (fun t => t.bars.getD b {})).getD {}

/-- An arrival at a barrier of the pane's team, with its record in the pane. -/
def State.barArrive (s : State) (d : SOpt) (b : Nat) : State :=
  let p := s.pane
  let s := onPane (fun p => { p with barRec := setAt p.barRec b (some (s.teamBar b).phase) }) s
  (s.modTeam p.grid p.team (fun t => { t with bars := setAt t.bars b ((t.bars.getD b {}).arrive (SOpt.total d p) p.grid s.cycle) })).settleTeam
    p.grid p.team

/-- The pane waits (R31), and says for what, should it leave its slot (R135). -/
def waitPark (why : Park) (s : State) : State := ended (onPane (fun p => { p with wait := .begun, waitOn := some why }) s)

def waitOver (s : State) : Out := done (fun p => { p with wait := .none, waitOn := none }) s

/-- Whether the pane may pass a barrier: it never arrived, or its recorded phase has completed. -/
def State.barPassed (s : State) (b : Nat) : Bool :=
  match s.pane.barRec.getD b none with
  | none => true
  | some ph => ph != (s.teamBar b).phase

/-- An arriving word: its operand check, then its release: it waits at the word, with the words before it done, until the pane's
earlier accesses are accepted or landed and its die has applied what it has acquired (R31, R152, R240). -/
def barWord (d : SOpt) (hi : Nat) (ord : Ord) (s : State) (k : State → State) : Out :=
  if badCount d s.pane hi then .next (takeTrap cOperand s.word s)
  else if Ord.releases ord && !(s.quiet s.pane.pid s.nextRid && (s.die (dieOf s.pane.core)).covers s.pane.clock) then .next (ended s)
  else .next (k s)

/-- R151: BAR.ARRIVE. -/
def execBarArrive (d : SOpt) (n : Fin 16) (ord : Ord) (s : State) : Out :=
  barWord d (s.pane.npane + 1) ord s (fun s => s.barArrive d n.val)

/-- R151: BAR.WAIT. -/
def execBarWait (_d : SOpt) (n : Fin 16) (_ord : Ord) (s : State) : Out :=
  if s.pane.wait = .begun ∧ s.barPassed n.val = true then waitOver s else .next (waitPark (.bar n.val) s)

/-- R151: BAR.SYNC arrives at its first issue and waits. -/
def execBarSync (d : SOpt) (n : Fin 16) (ord : Ord) (s : State) : Out :=
  if s.pane.wait = .begun then
    (if s.barPassed n.val then waitOver s else .next (waitPark (.bar n.val) s))
  else barWord d (s.pane.npane + 1) ord s (fun s => waitPark (.bar n.val) (s.barArrive d n.val))

/-! ### Cluster barriers (R213 to R216) -/

/-- The cluster of the pane's core, over the package. -/
def Pane.cl (p : Pane) : Nat := p.core / 6

def State.clBar (s : State) (b : Nat) : Bar := (s.clBars s.pane.cl s.pane.part).getD b {}

/-- An arrival at a cluster barrier of the partition's set. -/
def State.clArrive (s : State) (d : SOpt) (b : Nat) : State :=
  let p := s.pane
  let bars := s.clBars p.cl p.part
  let s := onPane (fun p =>
    { p with clbRec := setAt p.clbRec b (some (bars.getD b {}).phase), clbHome := some p.cl }) s
  (s.modCluster p.cl (fun c =>
    { c with sets := Tab.set c.sets p.part (setAt bars b ((bars.getD b {}).arrive (SOpt.total d p) p.grid s.cycle)) })).settleCl p.cl p.part

/-- Whether the pane may pass: as `barPassed`, 16 cycles after the final arrival of its own phase (R214). -/
def State.clPassed (s : State) (b : Nat) : Bool :=
  match s.pane.clbRec.getD b none with
  | none => true
  | some ph =>
      let bar := s.clBar b
      !s.clLoading s.pane.cl s.pane.part && ph != bar.phase && bar.past.all (fun e => e.1 != ph || decide (e.2 + 16 ≤ s.cycle))

/-- An arriving word: a set still to load (R216) and another grid's open phase (R214) hold it. -/
def clWord (d : SOpt) (b : Nat) (ord : Ord) (s : State) (k : State → State) : Out :=
  if s.clLoading s.pane.cl s.pane.part then .next (held s)
  else if 0 < (s.clBar b).count ∧ (s.clBar b).grid ≠ s.pane.grid ∧ badCount d s.pane 192 = false then .next (held s)
  else barWord d 192 ord s k

/-- R213: CLBAR.ARRIVE. -/
def execClbarArrive (d : SOpt) (n : Fin 16) (ord : Ord) (s : State) : Out :=
  clWord d n.val ord s (fun s => s.clArrive d n.val)

/-- R213: CLBAR.WAIT; its count is checked as an arrival's (R214). -/
def execClbarWait (d : SOpt) (n : Fin 16) (_ord : Ord) (s : State) : Out :=
  if s.pane.wait = .begun ∧ s.clPassed n.val = true then waitOver s
  else if s.pane.wait ≠ .begun ∧ badCount d s.pane 192 = true then .next (takeTrap cOperand s.word s)
  else if s.clLoading s.pane.cl s.pane.part then .next (held s)
  else .next (waitPark (.clbar n.val) s)

/-- R213: CLBAR.SYNC. -/
def execClbarSync (d : SOpt) (n : Fin 16) (ord : Ord) (s : State) : Out :=
  if s.pane.wait = .begun then
    (if s.clPassed n.val then waitOver s else .next (waitPark (.clbar n.val) s))
  else clWord d n.val ord s (fun s => waitPark (.clbar n.val) (s.clArrive d n.val))

end Sys2Proof.Machine
end

