-- ==== Sys2Proof/Machine/Residency.lean ====
section
/-! DEFINITION. Residency: slots, register blocks and tile sets, displacement and the quantum, departures and restores,
teams without a home core, and the accesses a pane makes for its stack and its packets (R22, R29, R110, R135 to R142,
R178, R203, R215, R249). -/

namespace Sys2Proof.Machine

/-! ### Register blocks and tile sets (R11, R136, R182) -/

def Pane.blocks (p : Pane) : Nat := p.nregs / 8

/-- The blocks that the panes of a core hold: resident panes, and those whose state lies in the core. -/
def State.blocksUsed (s : State) (core : Nat) : Nat :=
  ((s.corePanes core).filter (fun p => p.inCore || p.place.slot.isSome)).foldl (fun n p => n + p.blocks) 0

/-- The tile sets of an engine that are held. -/
def State.tilesUsed (s : State) (core e : Nat) : Nat :=
  ((s.corePanes core).filter (fun p => p.mx.tileSet == some e)).length

/-- The free slots of a core, rising. -/
def State.freeSlots (s : State) (core : Nat) : List Nat :=
  (List.range 32).filter (fun k => (s.slotPane core k).isNone)

/-- Whether a slot's engine is one a pane may go to. -/
def Pane.engineOk (p : Pane) (slot : Nat) : Bool :=
  match p.mx.tileSet with
  | some e => slot / 16 == e
  | none => true

def State.blocksOk (s : State) (p : Pane) : Bool := p.inCore || decide (s.blocksUsed p.core + p.blocks ≤ 384)

def State.tileOk (s : State) (p : Pane) (slot : Nat) : Bool :=
  p.mx.tileSet.isSome || decide (s.tilesUsed p.core (slot / 16) < 16)

/-! ### The start of an involuntary departure (R140, R142) -/

/-- A pane that took a slot and whose state is not back yet gives the slot back: its state still lies in its save record. -/
def State.giveBack (s : State) (p : Pane) : State :=
  (s.modPane p.pid (fun p =>
    { p with restoring := false, inCore := false, since := s.cycle, mx := { p.mx with tileSet := none } })).enqueue p.pid

/-- A departure begins: its pane stops and takes a free save record of its grid; a watch is lost, and its final read is due
(R145). None where it does not begin. The record is taken here, so that step 5 finds one: R142 has a departure without a free record
not begin, and leaves open what a step 5 that finds none would do (DESIGN CHOICE, log entry 26). -/
def State.beginLeave (s : State) (pid : Nat) : Option State :=
  match s.getPane pid with
  | none => none
  | some p =>
      if p.moving then none
      else if p.restoring then some (s.giveBack p)
      else
        match Tab.find s.grids p.grid with
        | none => none
        | some g => (lowestFree g.psUsed g.psaven).map (fun r =>
            (s.modPane pid (fun p =>
              { p with moving := true, saveRec := some r,
                       watch := p.watch.map (fun w => { w with holds := false, due := true }) })).modGrid p.grid (fun g =>
              { g with psUsed := g.psUsed ++ [r] }))

/-- Departures begun in turn, as far as records are free. -/
def State.beginAll (s : State) (pids : List Nat) : State := pids.foldl (fun s pid => (s.beginLeave pid).getD s) s

/-! ### SLOT_GRANT (R136) -/

/-- The highest non-empty ready queue. -/
def Core.headQueue (c : Core) : List Nat := (c.queues.reverse.find? (fun q => !q.isEmpty)).getD []

/-- The parked panes whose state lies in a core, longest parked first (log entry 26). -/
def State.movable (s : State) (core : Nat) : List Pane :=
  ((s.corePanes core).filter (fun p => p.inCore && p.place.slot.isNone && p.place != .ready && !p.moving)).insertionSort
    (fun a b => a.since < b.since ∨ (a.since = b.since ∧ a.pid ≤ b.pid))

/-- The panes of a core that are on their way out. -/
def State.leaving (s : State) (core : Nat) : List Pane := (s.corePanes core).filter (fun q => q.moving)

/-- Whether a pane's blocks are free once the panes on their way out are gone. -/
def State.blocksSoon (s : State) (p : Pane) : Bool :=
  p.inCore || decide (s.blocksUsed p.core + p.blocks ≤ 384 + (s.leaving p.core).foldl (fun n q => n + q.blocks) 0)

/-- Whether a tile set of an engine is free then. -/
def State.tileSoon (s : State) (p : Pane) (e : Nat) : Bool :=
  p.mx.tileSet.isSome ||
    decide (s.tilesUsed p.core e < 16 + ((s.leaving p.core).filter (fun q => q.mx.tileSet == some e)).length)

/-- Whether one of some slots is covered for a pane then: its engine, the blocks, a tile set. -/
def State.coveredIn (s : State) (p : Pane) (slots : List Nat) : Bool :=
  s.blocksSoon p && slots.any (fun k => p.engineOk k && s.tileSoon p (k / 16))

/-- Whether moving a pane out helps one that lacks blocks, or a tile set of an engine whose slot is free. -/
def State.helps (s : State) (p q : Pane) : Bool :=
  !s.blocksSoon p || (s.freeSlots p.core).any (fun k => p.engineOk k && q.mx.tileSet == some (k / 16))

/-- The departures that begin before a pane can take a free slot: the longest parked first, until it is covered; a parked pane that
finds no save record is passed over (R136, R142). -/
def State.moveOut (s : State) (p : Pane) : State :=
  (s.movable p.core).foldl (fun s q =>
    if s.coveredIn p (s.freeSlots p.core) || !s.helps p q then s else (s.beginLeave q.pid).getD s) s

/-- The free slot that a pane can take: the lowest. -/
def State.slotFor (s : State) (p : Pane) : Option Nat :=
  (s.freeSlots p.core).find? (fun k => p.engineOk k && s.blocksOk p && s.tileOk p k)

/-- The pane that the slots of a core go to: the head of the highest queue; where it holds a tile set that no free slot's engine
serves, the first pane of that queue that can take one, or for which room is made. A head that is on its way out waits. -/
def State.taker (s : State) (core : Nat) : Option Pane :=
  match (s.core core).headQueue.filterMap s.getPane with
  | [] => none
  | h :: r =>
      if (s.freeSlots core).any h.engineOk then (if h.moving then none else some h)
      else (r.find? (fun p => !p.moving && (s.slotFor p).isSome)).orElse (fun _ =>
        r.find? (fun p => !p.moving && (s.freeSlots core).any p.engineOk))

/-- The pane takes the slot: with its state saved it is restored first; a formed pane frees its record (R142). -/
def State.takeSlot (s : State) (p : Pane) (slot : Nat) : State :=
  let s := (s.unqueue p.core p.pid).modPane p.pid (fun p =>
    { p with place := .resident slot, inCore := true, since := s.cycle, restoring := p.swapped, lastSlot := slot,
             mx := { p.mx with tileSet := some (slot / 16) } })
  if p.swapped then s
  else (s.modGrid p.grid (fun g => { g with psUsed := dropOpt g.psUsed p.saveRec })).modPane p.pid (fun p => { p with saveRec := none })

/-- SLOT_GRANT: a free slot is given, or the panes that stand in the way begin to move out. -/
def State.slotGrant (s : State) (core : Nat) : Option State :=
  if (s.core core).part = 0 ∨ (s.core core).out = true then none
  else
    match s.taker core with
    | none => none
    | some p =>
        match s.slotFor p with
        | some k => some (s.takeSlot p k)
        | none =>
            let t := s.moveOut p
            if (s.leaving core).length < (t.leaving core).length then some t else none

def execSlotGrant (core : Nat) (s : State) : Out := event s (s.slotGrant core)

/-! ### DISPLACEMENT (R137) and the residency quantum (R138) -/

/-- The first of some panes by an order. -/
def firstBy (lt : Pane → Pane → Bool) : List Pane → Option Pane
  | [] => none
  | p :: r => some (r.foldl (fun a b => if lt b a then b else a) p)

/-- Longest residency first; ties go to the lower slot. -/
def longerResident (a b : Pane) : Bool :=
  decide (a.since < b.since) || (a.since == b.since && decide (a.place.slot.getD 32 < b.place.slot.getD 32))

/-- The ready panes of a core that wait for a slot, highest priority first, each queue in its order. -/
def State.waiters (s : State) (core : Nat) : List Pane :=
  ((s.core core).queues.reverse.flatten.filterMap s.getPane).filter (fun p => !p.moving)

/-- The slots of a core that are free or will be. -/
def State.slotsSoon (s : State) (core : Nat) : List Nat :=
  s.freeSlots core ++ (s.leaving core).filterMap (fun q => q.place.slot)

/-- Whether a parked pane can still be moved out for a pane that a free slot waits for (R136). -/
def State.canMoveOut (s : State) (p : Pane) : Bool :=
  (s.freeSlots p.core).any p.engineOk && (s.movable p.core).any (fun q => s.helps p q && (s.beginLeave q.pid).isSome)

/-- Whether a ready pane displaces another: the head of the queues, where no slot is covered for it and no parked pane can be moved
out; a pane behind it, where the slots that are free or will be go to those before it (R137, log entry 26). -/
def State.displaces (s : State) (i : Nat) (p : Pane) : Bool :=
  let slots := s.slotsSoon p.core
  if i = 0 then !s.coveredIn p slots && !s.canMoveOut p else decide (slots.length ≤ i)

/-- The pane that a ready pane displaces: of the lowest priority below its own, the longest resident; where it holds a tile set and
no slot of that engine is free or will be, in a slot it can take (log entry 26). -/
def State.victim (s : State) (p : Pane) : Option Pane :=
  let tied := !(s.slotsSoon p.core).any p.engineOk
  firstBy (fun a b => decide (a.prio < b.prio) || (a.prio == b.prio && longerResident a b))
    ((s.corePanes p.core).filter (fun q => !q.moving && decide (q.prio < p.prio) &&
      q.place.slot.any (fun k => !tied || p.engineOk k)))

/-- DISPLACEMENT: a resident pane begins to leave for a ready one of higher priority. -/
def State.displace (s : State) (core : Nat) : Option State :=
  if (s.core core).out then none
  else (s.waiters core).zipIdx.findSome? (fun e =>
    if s.displaces e.2 e.1 then (s.victim e.1).bind (fun v => s.beginLeave v.pid) else none)

def execDisplacement (core : Nat) (s : State) : Out := event s (s.displace core)

/-- The ticks due by a cycle count. -/
def quantum : Nat := 65536

/-- RESIDENCY_QUANTUM_TICK: for each priority from 7 down, as many resident panes as are ready begin to leave, longest
resident first. -/
def State.quantumTick (s : State) (core : Nat) : Option State :=
  if s.cycle / quantum ≤ (s.core core).lastTick then none
  else
    let s := s.modCore core (fun c => { c with lastTick := s.cycle / quantum })
    let victims := [7, 6, 5, 4, 3, 2, 1, 0].map (fun pr =>
      let q := ((s.core core).queues.getD pr []).length
      let res := (s.corePanes core).filter (fun p => p.place.slot.isSome && p.prio == pr && !p.moving)
      ((res.insertionSort (fun a b => longerResident b a = false)).take q).map Pane.pid)
    some (s.beginAll victims.flatten)

def execResidencyQuantumTick (core : Nat) (s : State) : Out := event s (s.quantumTick core)

/-! ### The end of a departure (R140, R145, R178, R203) -/

/-- Whether a line of a run lies on a degraded channel that cannot be rebuilt. -/
def State.runDead (s : State) (pa n : Nat) : Bool :=
  (s.base (s.chanOf pa).1).chdegr != 0 && (lineCuts pa n).any (fun c => s.degradedDead (pa + c.1))

/-- Whether an area can be written whole: what stands in it is not the model's (log entry 24). -/
def State.areaOk (s : State) (v : Via) (base n : Nat) : State × PRes Unit :=
  andThen (s.places (fun s o => s.unitTrans { v with write := true } (base + o)) (s.vaCuts v base n)) (fun s ps =>
    if ps.any (fun p => !p.2.1 && s.runDead p.1 p.2.2) then (s.forget v.who, .fail .poisoned) else (s.forget v.who, .ok ()))

/-- Whether the engine that serves a pane is hung: its departure waits for the reset (R205). -/
def State.onHung (s : State) (p : Pane) : Bool :=
  p.mx.tileSet.any (fun e => ((s.core p.core).engs.getD e {}).hung)

/-- Steps 2 to 4 of R140: special functions, save accesses and the group they held (R26) and a final read (R145) are over, stores accepted, atomics replied,
the engine at a quiescent point. -/
def State.departReady (s : State) (p : Pane) : Bool :=
  p.saveAcc.isNone && !p.midGroup && p.watch.isNone && !(p.tk.any Tok.pendingIn) && !s.onHung p &&
    (s.paneReqs p.pid).all (fun r => match r.kind with
      | .atomic => false
      | _ => !r.isWrite || r.accepted)

/-- The loads in flight are cancelled and kept for their replay (R178); a lane that has landed keeps what it read. -/
def State.cancelLoads (s : State) (pid : Nat) : State :=
  let ids := ((s.paneReqs pid).filter (fun r => r.isRead)).map Req.rid
  { s with reqs := s.reqs.map (fun e => if ids.contains e.1 then (e.1, { e.2 with cancelled := true }) else e),
           chanQ := s.chanQ.filter (fun c => !ids.contains c.rid) }

/-- Where a pane stands once its state is saved (R135): parked where its barrier's phase is open. -/
def State.afterSave (s : State) (p : Pane) : Option Park :=
  match p.waitOn with
  | some (.bar b) =>
      if p.barRec.getD b none = some (((s.team p.grid p.team).map (fun (t : Team) => t.bars.getD b {})).getD {}).phase then
        some (.bar b) else none
  | some (.clbar b) =>
      if p.clbRec.getD b none = some ((s.clBars (p.core / 6) p.part).getD b {}).phase then some (.clbar b) else none
  | _ => none

/-- The pane's own part of a save; the packet and loop buffers are not kept (R110). -/
def Pane.savedAt (p : Pane) (clock : Tab Nat) (cycle : Nat) : Pane :=
  { p with moving := false, swapped := true, inCore := false, clock := mergeClock p.clock clock, since := cycle,
           mx := { p.mx with tileSet := none }, lastSlot := p.place.slot.getD p.lastSlot,
           ibuf := none, lbuf0 := none, lbuf1 := none }

/-- The slot, the register blocks and the tile set are free; the pane is ready or parked. -/
def State.saveDone (s : State) (p : Pane) : State :=
  let s := (s.cancelLoads p.pid).modPane p.pid (fun p => p.savedAt (s.die (dieOf p.core)).clock s.cycle)
  if p.place.slot.isNone then s
  else
    match s.afterSave p with
    | some why => s.modPane p.pid (fun p => { p with place := .parked why })
    | none => s.enqueue p.pid

/-- A switch stops: BUSY clears and ERR is set; the team records taken for it are free again (R360). -/
def State.endSwitch (s : State) (core : Nat) : State :=
  let s := s.modCore core (fun c => { c with busy := false, out := false, err := true })
  ((Tab.vals s.teams).filter (fun t => t.home == some core && t.saveRec.isSome)).foldl (fun s t =>
    (s.modGrid t.grid (fun g => { g with tsUsed := dropOpt g.tsUsed t.saveRec })).modTeam t.grid t.ord (fun t =>
      { t with saveRec := none })) s

/-- A save that cannot be written: the pane stays, the record says so (R142); it stops a switch under way (log entry 29). -/
def State.saveFail (s : State) (p : Pane) : State :=
  let s := ((s.modPane p.pid (fun p => { p with moving := false, saveRec := none })).modGrid p.grid (fun g =>
    { g with psUsed := dropOpt g.psUsed p.saveRec })).record 0x09 p.part (dieOf p.core) [wordOfNat p.core, 2]
  if (s.core p.core).out then s.endSwitch p.core else s

/-- The panes of a team that have not exited. -/
def State.teamPanes (s : State) (grid ord : Nat) : List Pane :=
  s.allPanes.filter (fun p => p.grid == grid && p.team == ord && p.place.live)

/-- A team takes a free save record of its grid, where it has none; none where there is no free one (R142). -/
def State.teamRecord (s : State) (t : Team) : Option State :=
  if t.saveRec.isSome then some s
  else (Tab.find s.grids t.grid).bind (fun g => (lowestFree g.tsUsed g.tsaven).map (fun r =>
    (s.modTeam t.grid t.ord (fun t => { t with saveRec := some r })).modGrid t.grid (fun g => { g with tsUsed := g.tsUsed ++ [r] })))

/-- The size of a team save record (R142). -/
def Team.saveSize (t : Team) : Nat := (t.scratch + 1024 + 4095) / 4096 * 4096

/-- Whether a team's save record can be written: at TSAVE, by its number (R142, R351). -/
def State.teamAreaOk (s : State) (v : Via) (t : Team) : State × PRes Unit :=
  let i := ((s.team t.grid t.ord).bind Team.saveRec).getD 0
  s.areaOk v (((Tab.find s.grids t.grid).map Grid.tsave).getD 0 + t.saveSize * i) t.saveSize

/-- A team leaves its home core: its image, its panes without a core (R141). -/
def State.teamOut (s : State) (t : Team) : State :=
  let s := s.modTeam t.grid t.ord (fun t => { t with home := none, image := Mem.readN s.ds t.spds t.scratch })
  (s.teamPanes t.grid t.ord).foldl (fun s p =>
    (s.unqueue p.core p.pid).modPane p.pid (fun p => { p with core := noCore })) s

/-- The team whose home core is being switched out and whose other panes have left it: it goes with this pane (R141). -/
def State.lastOut (s : State) (p : Pane) : Option Team :=
  if (s.core p.core).out && (s.teamPanes p.grid p.team).all (fun q => q.pid == p.pid || !q.inCore) then s.team p.grid p.team else none

/-- Step 5 of R140 for a pane, with its team's part where it is the last. -/
def State.saveStep (s : State) (p : Pane) : State × PRes Unit :=
  let v : Via := { who := .save p.pid, die := dieOf p.core, part := p.part, core := some p.core }
  let g := Tab.find s.grids p.grid
  andThen (s.areaOk v ((g.map Grid.psave).getD 0 + 65536 * p.saveRec.getD 0) 65536) (fun s _ =>
    match s.lastOut p with
    | none => (s.saveDone p, .ok ())
    | some t =>
        match s.teamRecord t with
        | none => (s, .fail .refused)
        | some s => andThen (s.teamAreaOk v t) (fun s _ => ((s.saveDone p).teamOut t, .ok ())))

/-- PANE_SAVE_COMPLETE: step 5 of R140. -/
def State.paneSave (s : State) (pid : Nat) : Option State :=
  match s.getPane pid with
  | none => none
  | some p =>
      if !p.moving || !s.departReady p then none
      else
        match s.saveStep p with
        | (t, .wait) => s.waited t
        | (t, .fail _) => some (t.saveFail p)
        | (t, .ok _) => some t

def execPaneSaveComplete (pid : Nat) (s : State) : Out := event s (s.paneSave pid)

/-- PANE_RESTORE: the state is back once the die has applied what the saved clock names (R249); the cancelled loads are
replayed, a POSRD's as a new arrival at its EVE (R334). -/
def State.paneRestore (s : State) (pid : Nat) : Option State :=
  match s.getPane pid with
  | none => none
  | some p =>
      if !p.restoring || !(s.die (dieOf p.core)).covers p.clock then none
      else
        let s := (s.modPane pid (fun p => { p with restoring := false, swapped := false, saveRec := none })).modGrid p.grid
          (fun g => { g with psUsed := dropOpt g.psUsed p.saveRec })
        some { s with reqs := s.reqs.map (fun (e : Nat × Req) =>
          if e.2.pid = pid ∧ e.2.cancelled = true then
            (e.1, { e.2 with cancelled := false, left := false, core := p.core,
                             extra := if e.2.kind = .posrd then setAt e.2.extra 1 16 else e.2.extra,
                             lanes := e.2.lanes.map (fun (l : Lane) =>
                               if l.stage = .landed ∨ l.isFailed = true then l
                               else { l with stage := .issued, again := false, got := [], pa := 0 }) })
          else e) }

def execPaneRestore (pid : Nat) (s : State) : Out := event s (s.paneRestore pid)

/-! ### Teams without a home core (R141, R215, R356) -/

/-- The panes placed on a core: those of its teams that have not exited (R356). -/
def State.placedCount (s : State) (core : Nat) : Nat := (s.corePanes core).length

/-- The stack groups a grid may be placed in (R356). -/
def State.gridGroups (s : State) (g : Grid) : BitVec 16 :=
  let all := (s.part g.part).groups
  if all &&& g.hint = 0 then all else all &&& g.hint

/-- The cores that run a partition, rising. -/
def State.coresOf (s : State) (part : Nat) : List Nat :=
  (s.cores.filter (fun (e : Nat × Core) => e.2.part == part && !e.2.out)).map Prod.fst

/-- Whether a core is eligible for a team that needs n bytes. -/
def State.eligible (s : State) (g : Grid) (n core : Nat) : Bool :=
  (s.gridGroups g).getLsbD (groupOf (dieOf core)) && (s.scratchAt core n).isSome

/-- The eligible core that holds the fewest panes; ties go to the lowest number. -/
def State.placeCore (s : State) (g : Grid) (n : Nat) (ok : Nat → Bool) : Option Nat :=
  match (s.coresOf g.part).filter (fun c => ok c && s.eligible g n c) with
  | [] => none
  | c :: r => some (r.foldl (fun a b => if s.placedCount b < s.placedCount a then b else a) c)

/-- The cluster a team is tied to by its panes' arrivals (R215). -/
def State.teamCluster (s : State) (grid ord : Nat) : Option Nat := (s.teamPanes grid ord).findSome? Pane.clbHome

def dieAdd (l : List Nat) (d : Nat) : List Nat := if l.contains d then l else l ++ [d]

/-- The cores a saved team may go to (R215). -/
def State.tied (s : State) (t : Team) (core : Nat) : Bool :=
  match s.teamCluster t.grid t.ord with
  | some k => core / 6 == k
  | none => true

/-- Whether a grid's next team has an eligible core. -/
def State.nextCore (s : State) (g : Grid) : Option Nat := s.placeCore g g.scratch (fun _ => true)

/-- Whether a grid has a team to place. -/
def Grid.toPlace (g : Grid) : Bool := g.started && decide (g.placed < g.nteam)

/-- Whether a team of a partition that no core is eligible for waits, at a priority or above: a new team of a grid other than
`but`, or a saved one other than `team` (R141, R356). -/
def State.teamWaits (s : State) (part prio : Nat) (but team : Option Nat) : Bool :=
  s.grids.any (fun e => some e.1 != but && e.2.part == part && decide (prio ≤ e.2.prio) && e.2.toPlace && (s.nextCore e.2).isNone) ||
  s.teams.any (fun e => some e.1 != team && e.2.home.isNone && e.2.part == part &&
    match Tab.find s.grids e.2.grid with
    | some g => decide (prio ≤ g.prio) && (s.placeCore g e.2.scratch (s.tied e.2)).isNone
    | none => false)

/-- The team is back on a core: its scratchpad and barriers as they were, its panes with it. Its ready panes join the queue in the
model's order: the pane under way, then the others by number (DESIGN CHOICE, log entry 28). -/
def State.teamBack (s : State) (t : Team) (core off : Nat) : State :=
  let s := { s with
    teams := Tab.set s.teams (teamKey t.grid t.ord)
      { t with home := some core, spds := sliceBase core + off, saveRec := none, image := [] },
    ds := Mem.writeN (Mem.clear s.ds (sliceBase core + off) t.scratch) (sliceBase core + off) t.image }
  let s := s.modGrid t.grid (fun g => { g with tsUsed := dropOpt g.tsUsed t.saveRec, dies := dieAdd g.dies (dieOf core) })
  (s.teamPanes t.grid t.ord).foldl (fun s p =>
    let s := s.modPane p.pid (fun p => { p with core := core })
    if p.place = .ready then s.enqueue p.pid else s) s

/-- TEAM_RESTORE: the dispatcher's choice of a core for a team without a home core, by the placement rule. -/
def State.teamRestore (s : State) (team core : Nat) : Option State :=
  match Tab.find s.teams team with
  | none => none
  | some t =>
      if t.home.isSome then none
      else
        match Tab.find s.grids t.grid with
        | none => none
        | some g =>
            if s.placeCore g t.scratch (s.tied t) ≠ some core ∨ s.teamWaits g.part g.prio none (some team) = true then none
            else (s.scratchAt core t.scratch).map (fun off => s.teamBack t core off)

def execTeamRestore (team core : Nat) (s : State) : Out := event s (s.teamRestore team core)

/-! ### Stack save accesses (R22) -/

/-- A pane's stack save accesses. -/
def Pane.stackVia (p : Pane) : Via := { who := .stack p.pid, die := dieOf p.core, part := p.part, core := some p.core }

/-- The spill of the oldest entry on chip. -/
def State.spill (s : State) (trap : Bool) : State :=
  let p := s.pane
  match p.stack.getLast? with
  | none => onPane (fun p => { p with saveAcc := none }) s
  | some e =>
      match s.writeVA p.stackVia (p.stksave + 16 * (p.deep - p.stack.length)) e.bytes with
      | (s, .wait) => s
      | (s, .fail _) =>
          let s := onPane (fun p => { p with saveAcc := none, saveBad := if trap then 0 else 2 }) (s.forget p.stackVia.who)
          (match p.pendTrap with
            | some (c, d) => s.noPush c d 2
            | none => s)
      | (s, .ok _) =>
          let s := onPane (fun p => { p with saveAcc := none, stack := p.stack.dropLast }) (s.forget p.stackVia.who)
          (match p.pendTrap with
            | some (c, d) => s.enterTrap c d
            | none => s)

/-- The refill of the youngest entry in the save area. -/
def State.refill (s : State) : State :=
  let p := s.pane
  match s.readVA p.stackVia (p.stksave + 16 * (p.deep - p.stack.length - 1)) 16 with
  | (s, .wait) => s
  | (s, .fail _) => onPane (fun p => { p with saveAcc := none, saveBad := 4 }) (s.forget p.stackVia.who)
  | (s, .ok b) => onPane (fun p => { p.refilled (Entry.ofBytes b) with saveAcc := none }) (s.forget p.stackVia.who)

/-- STACK_SAVE_ACCESS_DONE: ordered after every earlier access of the pane. -/
def State.saveAccess (s : State) (pid : Nat) : Option State :=
  match s.getPane pid with
  | none => none
  | some p =>
      match p.saveAcc with
      | none => none
      | some k =>
          if !s.quiet pid s.nextRid then none
          else
            let t := s.asPane pid (fun s => match k with
              | .spill trap => s.spill trap
              | .refill => s.refill)
            if t.getPane pid = some p then s.waited t else some t

def execStackSaveAccessDone (pid : Nat) (s : State) : Out := event s (s.saveAccess pid)

/-! ### Fetches (R29, R110) -/

/-- PACKET_FETCH: the packet at a pane's pc is brought into its buffer. -/
def State.packetFetch (s : State) (pid : Nat) : Option State :=
  match s.getPane pid with
  | none => none
  | some p =>
      if p.place.slot.isNone || p.restoring || p.ibuf.any (fun k => k.addr == pcPkt p.pc) then none
      else
        let t := s.asPane pid (fun s => (fetchTurn s).1)
        if t.getPane pid = some p then s.waited t else some t

def execPacketFetch (pid : Nat) (s : State) : Out := event s (s.packetFetch pid)

/-- LOOP_BUFFER_REFETCH: the values of a loop entry that has become the top entry. -/
def State.loopRefetch (s : State) (pid : Nat) : Option State :=
  match s.getPane pid with
  | none => none
  | some p =>
      if p.place.slot.isNone || p.restoring || p.moving ||
          !(p.stack.head?.any (fun e => e.kind == .loop && (p.loopHeld e).isNone)) then none
      else
        let t := s.asPane pid (fun s => (loopTurn s).1)
        if t.getPane pid = some p then s.waited t else some t

def execLoopBufferRefetch (pid : Nat) (s : State) : Out := event s (s.loopRefetch pid)

end Sys2Proof.Machine
end

