-- ==== Sys2Proof/Machine/Commands.lean ====
section
/-! DEFINITION. What every package engine command shares (R42, R273): its issue, its order, its end. -/

namespace Sys2Proof.Machine

/-- A package engine command of the word at the pane's pc. -/
def State.mkCmd (s : State) (i : Instr) (ac : Option (Fin 16)) : Cmd :=
  let p := s.pane
  { id := s.nextRid, i := i, pid := p.pid, core := p.core, part := p.part, grid := p.grid, team := p.team, pord := p.pord,
    pkt := pcPkt p.pc, slot := pcSlot p.pc, xm := p.xm, ftz := p.ftz, ac := ac, mark := s.nextRid,
    stamp := (s.die (dieOf p.core)).clock }

/-- A run of uniform registers as pending bits. -/
def sRun (d : Option Nat) (n : Nat) : BitVec 64 :=
  match d with
  | none => 0
  | some d => (List.range n).foldl (fun m k => m ||| (1 <<< (d + k))) 0

/-- The command leaves: its counter rises, its destination run is pending (R273). -/
def State.sendCmd (s : State) (c : Cmd) (pend : BitVec 64) : State :=
  onPane (fun p => let p := p.acUp? c.ac
    { p with sPend := p.sPend ||| pend }) { s with cmds := Tab.set s.cmds c.id c, nextRid := s.nextRid + 1 }

/-- A checked command word, a memory word of R238: a fence holds it; it traps, is held at a full counter (R17), or issues. -/
def State.startCmd (s : State) (chk : Chk) (c : Cmd) (pend : BitVec 64) : State :=
  match chk, s.memMayIssue with
  | _, false => held s
  | some (cause, detail), true => takeTrap cause detail s
  | none, true => if c.ac.any (fun k => s.pane.acFull k) then held s else s.sendCmd c pend

/-- R273, step 4: the pane's earlier accesses are accepted or landed, and what the die's clock names has been performed at
its home (log entry 30). -/
def State.cmdReady (s : State) (c : Cmd) : Bool := s.quiet c.pid c.mark && s.forkDone (s.die (dieOf c.core)).clock c.stamp

/-- The die whose port translates for a command's core. -/
def Cmd.die (c : Cmd) : Nat := dieOf c.core

/-- A command's accesses. -/
def Cmd.via (c : Cmd) : Via := { who := .cmd c.id, die := c.die, part := c.part }

/-- The same from an engine of the base die, over bus B (R267). -/
def Cmd.viaB (c : Cmd) : Via := { c.via with busB := true }

/-- The counter of a command falls, with the error flags of R177; what its accesses had seen stays with the pane until its
WAITAC (R241). -/
def State.cmdFall2 (s : State) (c : Cmd) (data eng : Bool) : State :=
  match c.ac with
  | some k => s.modPane c.pid (fun p =>
      if p.place.live then ((p.acDown k).acMark k data eng).sees (s.die c.die).clock else p)
  | none => s

/-- The counter of a command falls; the error flag is that of R177 with ENGINE = 1. -/
def State.cmdFall (s : State) (c : Cmd) (err : Bool) : State := s.cmdFall2 c false err

/-- Uniform registers of a result, no longer pending. -/
def Pane.sResult (p : Pane) (d : Option Nat) (ws : List Word) : Pane :=
  match d with
  | none => p
  | some d =>
      let p := (List.range ws.length).foldl (fun p k => p.sset (d + k) (ws.getD k 0)) p
      { p with sPend := p.sPend &&& ~~~sRun (some d) ws.length }

/-- A command leaves the table. -/
def State.cmdGone (s : State) (c : Cmd) : State := { s.forget (.cmd c.id) with cmds := Tab.erase s.cmds c.id }

/-- A command ends: its results are written, its counter falls, it leaves the table. -/
def State.cmdEnd (s : State) (c : Cmd) (d : Option Nat) (ws : List Word) (err : Bool) : State :=
  ((s.modPane c.pid (fun p => p.sResult d ws)).cmdGone c).cmdFall c err

/-- Whether a command's request meets a failed mesh stop as it leaves its core (R217). -/
def State.cmdRefused (s : State) (c : Cmd) : Bool := s.stopFailed c.core

/-- A command whose word is of one kind. -/
def State.cmdOf (s : State) (id : Nat) (f : Instr → Bool) : Option Cmd :=
  (Tab.find s.cmds id).bind (fun c => if f c.i then some c else none)

end Sys2Proof.Machine
end

