-- ==== Sys2Proof/Machine/Publish.lean ====
section
/-! DEFINITION. Accesses of the package's units, and versioned publication: the record, its unit, VPIN, VREL and VPUB (R270
to R276). -/

namespace Sys2Proof.Machine

/-! ### Accesses of a package unit through a capability (R230, R273, R276) -/

/-- The place of a byte of a capability's extent, at its home: a package unit never uses a duplicate (R282, R290, R316, R330, R333);
`t0` asks for a tier-0 extent. -/
def State.pkgAt (s : State) (v : Via) (c : Cap) (off : Nat) (t0 : Bool) : State × PRes (Nat × Bool) :=
  match s.unitObj { v with home := true } c.obj (c.base + off) with
  | (s, .ok (pa, t)) => (s, if t0 && t then .fail .refused else .ok (pa, t))
  | r => r

/-- The places of a run of bytes under a capability. -/
def State.pkgPlaces (s : State) (v : Via) (c : Cap) (off n : Nat) (t0 : Bool) : State × PRes (List (Nat × Bool × Nat)) :=
  if c.len < off + n then (s, .fail .refused)
  else s.places (fun s o => s.pkgAt v c (off + o) t0) (s.objCuts v c.obj (c.base + off) n)

/-- A run of bytes read at its home. -/
def State.pkgRead (s : State) (v : Via) (c : Cap) (off n : Nat) (t0 : Bool) : State × PRes (List Byte) :=
  andThen (s.pkgPlaces v c off n t0) (fun s ps => s.readPlaces v ps)

/-- A run of bytes written at its home. -/
def State.pkgWrite (s : State) (v : Via) (c : Cap) (off : Nat) (b : List Byte) (t0 : Bool) : State × PRes Unit :=
  andThen (s.pkgPlaces { v with write := true } c off b.length t0) (fun s ps => s.writePlaces v ps b)

/-- A read that a unit performs beside memory is done: its lanes, and whether its contents were invalid (R322, R333). -/
def State.landReq (s : State) (r : Req) (ls : List Lane) (eng : Bool) : State :=
  { (s.forget (.cmd r.rid)) with reqs := Tab.set s.reqs r.rid { r with lanes := ls, tag := eng } }

/-- Every lane of such a read fails. -/
def State.failReq (s : State) (r : Req) (e : Cause) : State :=
  s.landReq r (r.lanes.map (fun l => { l with stage := .failed e })) false

/-! ### The record (R270) -/

structure PubSlot where
  root : Nat
  st   : Nat
  ver  : Nat
  pins : Nat
  deriving DecidableEq, Repr

structure PubRec where
  cur     : Nat
  cv      : Bool
  next    : Nat
  ringoff : Nat
  rtail   : Nat
  rhead   : Nat
  slots   : List PubSlot
  deriving DecidableEq, Repr

def pubSlot (x j : Nat) : Nat := nbitsOf x (512 + 128 * j) 128

/-- No number of a version (R271). -/
def badVer (v : Nat) : Bool := v == 0 || v == 2 ^ 29 - 1

/-- Whether 256 bytes are an invalid record, under a capability's LEN (R272). -/
def pubBad (x len : Nat) : Bool :=
  let ro := nbitsOf x 64 36
  let js := List.range 8
  let st := fun j => nbitsOf (pubSlot x j) 62 2
  nbitsOf x 16 16 != 0x5650 || nbitsOf x 4 12 != 0 || nbitsOf x 61 3 != 0 || nbitsOf x 100 28 != 0 ||
    nbitsOf x 192 320 != 0 || nbitsOf x 1536 512 != 0 ||
    js.any (fun j => nbitsOf (pubSlot x j) 56 6 != 0 || nbitsOf (pubSlot x j) 93 3 != 0 || st j == 3 ||
      ((st j == 1 || st j == 2) && badVer (nbitsOf (pubSlot x j) 64 29))) ||
    (nbitsOf x 3 1 == 1 && st (nbitsOf x 0 3) != 1) || badVer (nbitsOf x 32 29) ||
    (ro != 0 && (ro % 16 != 0 || decide (len < ro + 1024) || decide (ro < 256)))

def PubRec.parse (x len : Nat) : Option PubRec :=
  if pubBad x len then none
  else some
    { cur := nbitsOf x 0 3, cv := nbitsOf x 3 1 == 1, next := nbitsOf x 32 29, ringoff := nbitsOf x 64 36,
      rtail := nbitsOf x 128 32, rhead := nbitsOf x 160 32,
      slots := (List.range 8).map (fun j => let y := pubSlot x j
        ⟨nbitsOf y 0 56, nbitsOf y 62 2, nbitsOf y 64 29, nbitsOf y 96 32⟩) }

def PubSlot.num (p : PubSlot) : Nat := p.root + p.st * 2 ^ 62 + p.ver * 2 ^ 64 + p.pins * 2 ^ 96

/-- The 256 bytes of a record. -/
def PubRec.bytes (r : PubRec) : List Byte :=
  toBytes 64 (r.cur + (if r.cv then 8 else 0) + 0x5650 * 2 ^ 16 + r.next * 2 ^ 32 + r.ringoff * 2 ^ 64 + r.rtail * 2 ^ 128 +
    r.rhead * 2 ^ 160) ++ (r.slots.map (fun p => toBytes 16 p.num)).flatten ++ List.replicate 64 0

def PubRec.slot (r : PubRec) (j : Nat) : PubSlot := r.slots.getD j ⟨0, 0, 0, 0⟩

def PubRec.setSlot (r : PubRec) (j : Nat) (p : PubSlot) : PubRec := { r with slots := setAt r.slots j p }

/-- R271. -/
def handleOf (j ver : Nat) : Word := wordOfNat (j * 2 ^ 29 + ver)

def hSlot (h : Word) : Nat := bits h 29 3
def hVer (h : Word) : Nat := bits h 0 29

def noHandle : Word := 0xFFFFFFFF

/-! ### Commands at the unit (R272, R274, R331) -/

/-- What a command does: VPIN, VREL, VPUB, and the conditional publication of a root under a pinned handle. -/
inductive PubOp where
  | pin
  | rel (h : Word)
  | pub (root : Nat)
  | cond (h : Word) (root : Nat)
  deriving DecidableEq, Repr

/-- VPUB on a valid record: its new state and handle; none where no slot is free. -/
def PubRec.install (r : PubRec) (root : Nat) : Option (PubRec × Word) :=
  ((List.range 8).find? (fun j => (r.slot j).st == 0)).map (fun j =>
    ({ r.setSlot j ⟨root % 2 ^ 56, 1, r.next, 0⟩ with
       next := if r.next = 2 ^ 29 - 2 then 1 else r.next + 1, cur := j, cv := true }, handleOf j r.next))

/-- R274, R331: a command on a valid record: the record, the words of its result, its error flag. -/
def PubRec.perform (r : PubRec) (op : PubOp) : PubRec × List Word × Bool :=
  match op with
  | .pin =>
      let p := r.slot r.cur
      if !r.cv then (r, [noHandle, 0, 0], false)
      else if p.pins = 0xFFFFFFFF then (r, [noHandle, 0, 0], true)
      else (r.setSlot r.cur { p with pins := p.pins + 1 },
        [handleOf r.cur p.ver, wordOfNat p.root, wordOfNat (p.root / 2 ^ 32)], false)
  | .rel h =>
      let p := r.slot (hSlot h)
      if h = noHandle then (r, [], false)
      else if p.st ≠ 1 ∨ p.ver ≠ hVer h ∨ p.pins = 0 then (r, [], true)
      else (r.setSlot (hSlot h) { p with pins := p.pins - 1 }, [], false)
  | .pub root =>
      match r.install root with
      | none => (r, [0x10000000, noHandle], true)
      | some (r, h) => (r, [0, h], false)
  | .cond h root =>
      if !r.cv || r.cur != hSlot h || (r.slot r.cur).ver != hVer h then (r, [7, noHandle], true)
      else
        match r.install root with
        | none => (r, [4, noHandle], true)
        | some (r, h) => (r, [0, h], false)

/-- The result of a command whose record is invalid (`inv`) or whose access failed. -/
def PubOp.failed (op : PubOp) (inv : Bool) : List Word × Bool :=
  match op with
  | .pin => ([noHandle, 0, 0], true)
  | .rel h => ([], h != noHandle)
  | .pub _ => ([0x20000000, noHandle], true)
  | .cond _ _ => ([if inv then 2 else 5, noHandle], true)

/-- The slots that are eligible for retirement. -/
def PubRec.eligible (r : PubRec) : List Nat :=
  (List.range 8).filter (fun j => let p := r.slot j
    (p.st == 1 && p.pins == 0 && !(r.cv && r.cur == j)) || p.st == 2)

/-- A record as a number, but for RHEAD: what only the unit changes once a program has initialised the record (R270). -/
def recImage (b : List Byte) : Nat := ofBytes (b.take 20 ++ b.drop 24)

/-- The order of eligibility a record was left in; none where a program has initialised it anew since (R272). -/
def State.orderOf (s : State) (key : Nat) (b : List Byte) : List Nat :=
  match Tab.find s.elig key with
  | some e => if e.1 = recImage b then e.2 else []
  | none => []

/-- The order of eligibility brought up to date. -/
def PubRec.order (r : PubRec) (old : List Nat) : List Nat :=
  let e := r.eligible
  old.filter (fun j => e.contains j) ++ e.filter (fun j => !old.contains j)

/-- One slot's retirement; the flag says that its ring entry waits for a page. -/
def State.retire1 (s : State) (v : Via) (c : Cap) (r : PubRec) (j : Nat) : State × PubRec × Bool :=
  let p := r.slot j
  if r.ringoff = 0 then (s, r.setSlot j { p with st := 0 }, false)
  else if (r.rtail + 2 ^ 32 - r.rhead) % 2 ^ 32 < 64 then
    match s.pkgWrite v c (r.ringoff + 16 * (r.rtail % 64)) (toBytes 16 (p.root + p.ver * 2 ^ 64)) false with
    | (s, .wait) => (s, r, true)
    | (s, .ok _) => (s, { r.setSlot j { p with st := 0 } with rtail := (r.rtail + 1) % 2 ^ 32 }, false)
    | (s, .fail _) => (s, r.setSlot j { p with st := 2 }, false)
  else (s, r.setSlot j { p with st := 2 }, false)

/-- Retirement (R272). -/
def State.retireAll (s : State) (v : Via) (c : Cap) (r : PubRec) (order : List Nat) : State × PubRec × Bool :=
  order.foldl (fun (acc : State × PubRec × Bool) j =>
    if acc.2.2 then acc else acc.1.retire1 v c acc.2.1 j) (s, r, false)

/-- The words of a record that change are written: a field that a program writes beside them (RHEAD) is left alone. -/
def State.pubWrite (s : State) (v : Via) (c : Cap) (old new : List Byte) : State × PRes Unit :=
  ((List.range 64).filter (fun i => (old.drop (4 * i)).take 4 != (new.drop (4 * i)).take 4)).foldl (fun acc i =>
    andThen acc (fun s _ => s.pkgWrite v c (4 * i) ((new.drop (4 * i)).take 4) true)) (s, .ok ())

/-- What a command at the unit comes to. -/
inductive PubOut where
  | wait (s : Option State)
  | fin (s : State) (res : List Word) (err : Bool)

/-- A record's identity: its partition, object and address (log entry 58). -/
def recordKey (part : Nat) (c : Cap) : Nat := objNo part c.obj * 2 ^ 56 + c.base

/-- Whether a die has applied every write to a record: the unit reads RHEAD acquired at .SYS, so that what it writes bears what the
owner's store and the commands before it had seen (R272, R275). -/
def State.recordSeen (s : State) (v : Via) (c : Cap) : Bool :=
  match s.pkgPlaces v c 0 256 true with
  | (_, .ok ps) => ps.all (fun p => !(lineCuts p.1 p.2.2).any (fun i => s.lineBusy v.die (lineId (p.1 + i.1) p.2.1)))
  | _ => true

/-- R272: one command on the record at a capability's BASE, indivisible. -/
def State.pubUnit (s : State) (v : Via) (c : Cap) (op : PubOp) : PubOut :=
  let fail := fun (t : State) (inv : Bool) => let f := op.failed inv; PubOut.fin (t.forget v.who) f.1 f.2
  if !s.recordSeen v c then .wait none
  else
  match s.pkgRead v c 0 256 true with
  | (t, .wait) => .wait (s.waited t)
  | (t, .fail _) => fail t false
  | (t, .ok b) =>
      match PubRec.parse (ofBytes b) c.len with
      | none => fail t true
      | some r =>
          let key := recordKey v.part c
          let o := r.order (t.orderOf key b)
          let x := r.perform op
          match t.retireAll v c x.1 (x.1.order o) with
          | (u, _, true) => .wait (s.waited u)
          | (u, r', false) =>
              match u.pubWrite v c b r'.bytes with
              | (u, .wait) => .wait (s.waited u)
              | (u, .fail _) => fail u false
              | (u, .ok _) => .fin ({ u with elig := Tab.set u.elig key (recImage r'.bytes, r'.order (x.1.order o)) }.forget v.who) x.2.1 x.2.2

/-! ### VPIN, VREL and VPUB (R273) -/

/-- The checks of a record's capability: `need`, BASE a multiple of `al`, LEN at least `al`. -/
def State.chkRec (s : State) (need : BitVec 8) (al reg : Nat) : Chk :=
  let c := s.pane.creg reg
  (chkCap s.pane.part c need reg).or
    ((chkAlign [0] (fun _ => c.base) al reg).or (chkBounds [0] (fun _ => decide (al ≤ c.len)) reg))

/-- A publication word. -/
def State.pubWord (s : State) (i : Instr) (need : BitVec 8) (a : CReg) (ac : Fin 16) (ws : List Word) (pend : BitVec 64) : State :=
  s.startCmd (s.chkRec need 256 a.val) { s.mkCmd i (some ac) with caps := [s.pane.creg a.val], words := ws } pend

/-- R273: VPIN. -/
def execVpin (d : Option (Fin 62)) (a : CReg) (ac : Fin 16) (s : State) : Out :=
  .next (s.pubWord (.vpin d a ac) (rR ||| rA) a ac [] (sRun (d.map Fin.val) 3))

/-- R273: VREL. -/
def execVrel (a : CReg) (b : SOpt) (ac : Fin 16) (s : State) : Out :=
  .next (s.pubWord (.vrel a b ac) rA a ac [b.val s.pane] 0)

/-- R273: VPUB. -/
def execVpub (d : Option (Fin 63)) (a : CReg) (b : Fin 63) (ac : Fin 16) (s : State) : Out :=
  .next (s.pubWord (.vpub d a b ac) (rW ||| rA) a ac [s.pane.sreg b.val, s.pane.sreg (b.val + 1)] (sRun (d.map Fin.val) 2))

def Cmd.cap (c : Cmd) (k : Nat) : Cap := c.caps.getD k {}
def Cmd.word (c : Cmd) (k : Nat) : Word := c.words.getD k 0

/-- The operation of a publication command, and the destination of its result. -/
def Cmd.pubOp (c : Cmd) : Option (PubOp × Option Nat) :=
  match c.i with
  | .vpin d _ _ => some (.pin, d.map Fin.val)
  | .vrel _ _ _ => some (.rel (c.word 0), none)
  | .vpub d _ _ _ => some (.pub (uns (c.word 0) + bits (c.word 1) 0 24 * 2 ^ 32), d.map Fin.val)
  | _ => none

/-- What R275 asks before an operation beside the unit's own read: a release and a publication are released at .SYS. -/
def State.pubOrdered (s : State) (c : Cmd) (op : PubOp) : Bool :=
  match op with
  | .pin => true
  | _ => s.quietSys c.pid c.mark

/-- PUBLICATION_COMMAND: the unit performs a command that has arrived. -/
def State.publication (s : State) (id : Nat) : Option State :=
  match Tab.find s.cmds id with
  | none => none
  | some c =>
      match c.pubOp with
      | none => none
      | some (op, d) =>
          if !s.cmdReady c || !s.pubOrdered c op then none
          else
            if s.cmdRefused c then let f := op.failed false; some (s.cmdEnd c d f.1 f.2)
            else
              match s.pubUnit c.via (c.cap 0) op with
              | .wait t => t
              | .fin t ws err => some (t.cmdEnd c d ws err)

def execPublicationCommand (cmd : Nat) (s : State) : Out := event s (s.publication cmd)

end Sys2Proof.Machine
end

