-- ==== Sys2Proof/Machine/Fabric.lean ====
section
/-! DEFINITION. The fabric: flits and their links, sealed messages and sessions, windows, peer requests in both directions
(R362 to R368). -/

namespace Sys2Proof.Machine

/-! ### Flits (R362) -/

structure FlitHead where
  lseq    : Nat
  lack    : Nat
  crc     : Nat
  kind    : Nat
  vl      : Nat
  wvl     : Nat
  win     : Nat
  session : Nat
  seq     : Nat
  rsv     : Bool
  deriving DecidableEq, Repr

def FlitHead.parse (x : Nat) : FlitHead :=
  { lseq := nbitsOf x 0 16, lack := nbitsOf x 16 16, crc := nbitsOf x 32 32, kind := nbitsOf x 142 4, vl := nbitsOf x 146 3,
    wvl := nbitsOf x 149 3, win := nbitsOf x 160 16, session := nbitsOf x 176 16, seq := nbitsOf x 192 64,
    rsv := nbitsOf x 64 78 != 0 || nbitsOf x 152 8 != 0 }

/-- Whether a flit's CRC holds, computed with its own field 0. -/
def flitCrcOk (f : Flit) : Bool :=
  wordOfNat (FlitHead.parse (ofBytes (f.bytes.take 32))).crc == crc32c (f.bytes.take 4 ++ [0, 0, 0, 0] ++ f.bytes.drop 8)

/-! ### Links (R363, R365) -/

/-- The number of link sequence numbers from a to b. -/
def seqDist (a b : Nat) : Nat := (b + 65536 - a % 65536) % 65536

/-- The flits that a LACK acknowledges leave the resend buffer. -/
def Port.acked (p : Port) (lack : Nat) : Port :=
  { p with unacked := p.unacked.filter (fun u => seqDist u.lseq lack ≥ 32768 && u.lseq != lack) }

/-- A window that the other end advertises for a virtual lane (R365). -/
def Port.window (p : Port) (vl win : Nat) : Port := { p with txWin := setAt p.txWin vl win, txUsed := setAt p.txUsed vl 0 }

/-- What an intact flit in order does to its port: the next number and, unless it is reserved, its acknowledgement and the window it
advertises; a window update's comes with its own event. -/
def Port.took (p : Port) (h : FlitHead) (reserved : Bool) : Port :=
  let p := { p with expect := (p.expect + 1) % 65536, lack := h.lseq, reqOut := false }
  if reserved then { p with dropped := satInc p.dropped }
  else
    let p := p.acked h.lack
    if h.kind = 2 then p else p.window h.wvl h.win

/-- The event that an intact flit brings. -/
def flitEvent (port : Nat) (f : Flit) (h : FlitHead) : Instr :=
  match h.kind with
  | 0 => .idleFlit port
  | 1 => .sealedMessage port f
  | 2 => .windowUpdate port h.wvl h.win
  | _ => .linkRetryRequest port h.lack

/-- FLIT_RECEIVE: a flit whose CRC fails is discarded and a retry is requested; a flit out of its link order is one that the retry
repeats and is discarded (log entry 38); a reserved one is discarded and counted. -/
def State.flitIn (s : State) (k : Nat) (f : Flit) : Option State :=
  let p := s.port k
  if !p.up || p.failed || f.bytes.length != 256 then none
  else if !flitCrcOk f then some ((s.modPort k (fun p => { p with reqOut := true })).putFlit k 3 0 0 0 [] none)
  else
    let h := FlitHead.parse (ofBytes (f.bytes.take 32))
    if h.lseq ≠ p.expect then some s
    else
      let reserved := h.rsv || decide (4 ≤ h.kind)
      let s := s.modPort k (fun p => p.took h reserved)
      if reserved then some s
      else some { s.pump k (s.port k).sendQ.length with agenda := s.agenda ++ [flitEvent k f h] }

def execFlitReceive (port : Nat) (f : Flit) (s : State) : Out := event s (s.flitIn port f)

/-- IDLE_FLIT: its acknowledgement and window were taken as it arrived. -/
def execIdleFlit (port : Nat) (s : State) : Out := event s (if (s.port port).up then some s else none)

/-- WINDOW_UPDATE: the window of a virtual lane at the sender; what waits for it leaves. -/
def State.windowUpdate (s : State) (k vl amount : Nat) : State :=
  let s := s.modPort k (fun p => p.window vl amount)
  s.pump k (s.port k).sendQ.length

def execWindowUpdate (port vl amount : Nat) (s : State) : Out :=
  event s (if (s.port port).up && decide (vl < 8) && decide (amount ≤ 1024) then some (s.windowUpdate port vl amount) else none)

/-- The requests of a port's flits that have not been acknowledged, and of the messages that wait, do not cross. -/
def State.portLost (s : State) (k : Nat) : State :=
  ((s.port k).unacked.map OutFlit.req).foldl State.refuseOut (s.dropMsgs k (fun _ => true))

/-- A link that has resent a flit 8 times is failed; requests that have not crossed it are refused (R363, log entry 38). -/
def State.linkFail (s : State) (k : Nat) : State :=
  (((s.portLost k).modPort k (fun p => { p with failed := true, sendQ := [] })).record 0x07 0 (80 + k) [wordOfNat k, 8, 0]).collsLost (fun x => x.port == k)

/-- LINK_RETRY_REQUEST: every flit after LACK is resent, in order. -/
def State.retry (s : State) (k lack : Nat) : Option State :=
  let p := s.port k
  if !p.up || p.failed then none
  else
    let u := (p.acked lack).unacked
    if u.any (fun x => decide (8 ≤ x.resent)) then some ((s.modPort k (fun p => p.acked lack)).linkFail k)
    else some (s.modPort k (fun p =>
      { p.acked lack with unacked := u.map (fun x => { x with resent := x.resent + 1 }), retry := min (p.retry + u.length) 0xFFFFFFFF }))

def execLinkRetryRequest (port lack : Nat) (s : State) : Out := event s (s.retry port lack)

/-- LINK_TRAINING: the port is up, its numbers begin again (before the first flit, the number before 0 is the last one received), and
a window update of each virtual lane that carries anything goes out (R363, R365, log entry 38). -/
def State.train (s : State) (k : Nat) : Option State :=
  if 32 ≤ k then none
  else
    let s := if (s.port k).up then s.lifeAdd 6 k else s
    some ((List.range 5).foldl (fun s vl => s.putFlit k 2 vl 0 0 [] none) ((s.portLost k).modPort k (fun p =>
      { p with up := true, failed := false, lseq := 0, expect := 0, lack := 65535, unacked := [], reqOut := false,
               rxWin := [1024, 1024, 1024, 1024, 1024, 0, 0, 0], txWin := List.replicate 8 0,
               rxUsed := List.replicate 8 0, txUsed := List.replicate 8 0 })))

def execLinkTraining (port : Nat) (s : State) : Out := event s (s.train port)

/-! ### Sealed messages (R364) -/

/-- A session that fails: nothing more is accepted, its requests that wait are refused; a record. -/
def State.sessionFail (s : State) (x : Session) : State :=
  let s := s.dropMsgs x.port (fun m => m.sess == x.num)
  (({ s with sessions := s.sessions.map (fun y => if y.num = x.num ∧ y.port = x.port then { y with failed := true } else y) } :
    State).record 0x07 x.part (80 + x.port) [wordOfNat x.port, 0, wordOfNat x.num]).collsLost (fun y => y.num == x.num && y.port == x.port)

/-- The direction bit of what a peer sends. -/
def State.dirIn (s : State) (x : Session) : Nat := if x.peer < s.pkgNo then 0 else 1

def countAuth (s : State) (k : Nat) : State := s.modPort k (fun p => { p with authfail := satInc p.authfail })

/-- A flit has taken a place of the window of its virtual lane; with half of the window used a new one is advertised (R365;
DESIGN CHOICE, log entry 38). -/
def State.windowUsed (s : State) (k vl : Nat) : State :=
  let s := s.modPort k (fun p => { p with rxUsed := setAt p.rxUsed vl (p.rxUsed.getD vl 0 + 1) })
  if 512 ≤ (s.port k).rxUsed.getD vl 0 then s.putFlit k 2 vl 0 0 [] none else s

/-- SEALED_MESSAGE: a flit beyond the advertised window is discarded and reported; a tag or a number that fails ends the
session; what the payload says arrives as an event of its own (log entry 40). A message of link management on virtual lane 4 is an SPDM
request, which the responder answers there (R376, log entry 41). -/
def State.sealed (s : State) (k : Nat) (f : Flit) : Option State :=
  let h := FlitHead.parse (ofBytes (f.bytes.take 32))
  let p := s.port k
  if !p.up then none
  else if p.rxWin.getD h.vl 0 ≤ p.rxUsed.getD h.vl 0 then
    some ((s.modPort k (fun p => { p with dropped := satInc p.dropped })).record 0x07 0 (80 + k) [wordOfNat k, 0, wordOfNat h.session])
  else
    let s := s.windowUsed k h.vl
    if h.session = 0 ∧ h.vl = 4 then some { s with spdm := { s.spdm with via := some k } }
    else
    match s.sessions.find? (fun x => x.num == h.session && x.port == k) with
    | none => some (countAuth s k)
    | some x =>
        if x.failed then some (countAuth s k)
        else if h.seq = x.rxSeq + 1 ∧ (Config.sealOpen x.key (nonceOf x.num (s.dirIn x) h.seq) f.bytes).isSome = true then
          some { s with sessions := s.sessions.map (fun y => if y.num = x.num ∧ y.port = x.port then { y with rxSeq := h.seq } else y) }
        else some ((countAuth s k).sessionFail x)

def execSealedMessage (port : Nat) (f : Flit) (s : State) : Out := event s (s.sealed port f)

/-! ### Peer requests (R366, R367) -/

/-- The number of a linked package in clocks (R220). -/
def peerSrc (pkg : Nat) : Nat := 128 + pkg

/-- A peer's request that has been translated is accepted (R367): it stands in the apply queue of every die and at its channel, and
is acknowledged. -/
def State.pmAccept (s : State) (r : PeerReq) (die pa : Nat) (t1 : Bool) : State :=
  let src := peerSrc r.peer
  let n := r.size.bytes
  let b := if r.red.isNone then r.data.take n else r.data
  let q : Req :=
    { rid := s.nextRid, kind := if r.red.isNone then .store else .red, space := .dm, pid := 0, core := 24 * die, part := r.part, grid := 0,
      team := 0, pord := 0, pkt := 0, slot := 0, op := 0, obj := r.obj, size := n, aop := r.red.getD .add, accepted := true, exited := true,
      left := true, lanes := [{ lane := r.lane, addr := r.off, data := b, mask := 1, stage := .queued, num := r.num, pa := pa }],
      peer := some r }
  let a : Apply := { src := src, num := r.num, stamp := r.stamp, line := lineId pa t1, off := pa % 64, bytes := b, key := r.part,
                     rmw := r.red.isSome }
  let s := { s with reqs := Tab.set s.reqs s.nextRid q, nextRid := s.nextRid + 1 }
  let s := s.broadcast a true
  let item : ChanItem := { kind := if r.red.isNone then .store else .rmw, line := lineId pa t1, pa := pa, tier1 := t1, rid := q.rid,
                           lane := r.lane, die := src, part := r.part, size := n, bytes := b, op := r.red.getD .add, num := r.num }
  ({ s with chanQ := s.chanQ ++ [item] } : State).pmAnswer r none

/-- Whether a peer's number is one that its package has not used. -/
def State.pmFresh (s : State) (r : PeerReq) : Bool :=
  decide (Tab.getD s.ref.clock (peerSrc r.peer) 0 < r.num) && s.ref.applyQ.all (fun a => a.src != peerSrc r.peer || a.num != r.num)

/-- PM_REQUEST: a peer's store or reduction is translated under its partition's key, by a die of its port's stack (log entry 64);
one that its object table refuses is answered with the cause. -/
def State.pmIn (s : State) (r : PeerReq) : Option State :=
  match s.route r.part r.peer r.ppart with
  | none => none
  | some x =>
      if r.data.length < r.size.bytes || !s.pmFresh r then none
      else
        let die := 4 * (x.port / 2)
        let v : Via := { who := .peer x.port, die := die, part := r.part, write := true }
        match s.lookupObj die r.part r.obj with
        | (t, none) => some (t.pmAnswer r (some 3))
        | (t, some o) =>
            if r.off % r.size.bytes ≠ 0 ∨ o.len < r.off + r.size.bytes then some (t.pmAnswer r (some 3))
            else
              match t.unitObj v r.obj (o.vbase + r.off) with
              | (u, .wait) => s.waited u
              | (u, .fail _) => some ((u.forget v.who).pmAnswer r (some 3))
              | (u, .ok (pa, t1)) => some ((u.forget v.who).pmAccept r die pa t1)

def execPmRequest (r : PeerReq) (s : State) : Out := event s (s.pmIn r)

/-- PM_ACK: the peer has accepted a request's lanes. -/
def State.pmAck (s : State) (rid : Nat) : Option State :=
  match Tab.find s.reqs rid with
  | none => none
  | some r =>
      if r.space ≠ .pm ∨ r.accepted = false then none
      else some (s.modReq rid (fun r =>
        { r with destAccepted := true, lanes := r.lanes.map (fun l => if l.stage = .queued then { l with stage := .landed } else l) }))

def execPmAck (rid : Nat) (s : State) : Out := event s (s.pmAck rid)

/-- Some lanes of a request marked as failed at the peer. -/
def Req.peerFailed (r : Req) (lanes : BitVec 32) (c : Cause) : Req :=
  { r with lanes := r.lanes.map (fun l => if bit lanes l.lane && !l.isFailed then { l with stage := .failed c } else l) }

/-- A failure report for a request whose entry an acknowledgement has freed: it is reported now (R180, R367). -/
def State.pmLate (s : State) (r : Req) (lanes : BitVec 32) (c : Cause) : State :=
  let new := { r with lanes := r.lanes.filter (fun l => bit lanes l.lane && !l.isFailed) }.peerFailed lanes c
  let gone := (s.getPane r.pid).all (fun p => p.place == .exited)
  { (s.failRecords 0x02 new (r.exited || gone)) with pmDone := Tab.set s.pmDone r.rid (r.peerFailed lanes c) }

/-- PM_FAILURE_REPORT: lanes that the peer refused, or that met poison there, before or after it accepted them. -/
def State.pmFail (s : State) (rid : Nat) (lanes : BitVec 32) (cause : Nat) : Option State :=
  let c : Cause := if cause = 2 then .poisoned else .refused
  if ¬ (cause = 2 ∨ cause = 3) then none
  else
    match Tab.find s.reqs rid with
    | none => (Tab.find s.pmDone rid).map (fun r => s.pmLate r lanes c)
    | some r =>
        if r.space ≠ .pm ∨ r.accepted = false then none
        else some (s.modReq rid (fun r =>
          let r := r.peerFailed lanes c
          { r with destAccepted := r.lanes.all (fun l => l.stage != .queued) }))

def execPmFailureReport (rid : Nat) (lanes : BitVec 32) (cause : Nat) (s : State) : Out :=
  event s (s.pmFail rid lanes cause)

end Sys2Proof.Machine
end

