-- ==== Sys2Proof/Machine/Sketch.lean ====
section
/-! DEFINITION. Count sketches: hashing, quantisation, counters, and SKUPD, SKQRY, SKADD and SKCLR (R281 to R294). -/

namespace Sys2Proof.Machine

/-! ### Headers, hashes and values (R281 to R286) -/

structure SkHdr where
  rows : Nat
  logw : Nat
  seed : Word
  e    : Int
  deriving DecidableEq, Repr

/-- The bytes of a sketch. -/
def SkHdr.size (h : SkHdr) : Nat := 64 + 4 * h.rows * 2 ^ h.logw

/-- The header 64 bytes hold, valid but for its place (R282). -/
def SkHdr.parse (x len : Nat) : Option SkHdr :=
  let rows := nbitsOf x 0 3
  let logw := nbitsOf x 8 5
  let e := sExt (nbitsOf x 64 8) 8
  if nbitsOf x 16 16 = 0x534B ∧ nbitsOf x 3 5 = 0 ∧ nbitsOf x 13 3 = 0 ∧ nbitsOf x 72 24 = 0 ∧ nbitsOf x 103 25 = 0 ∧
      nbitsOf x 160 352 = 0 ∧ rows % 2 = 1 ∧ 6 ≤ logw ∧ logw ≤ 26 ∧ -64 ≤ e ∧ e ≤ 63 ∧
      64 + 4 * rows * 2 ^ logw ≤ len then some ⟨rows, logw, wordOfNat (nbitsOf x 32 32), e⟩ else none

/-- R283: the multiplier of a row. -/
def skMul (j : Nat) : Word :=
  [0x9A3C5E71, 0xC6B12F8D, 0xE54D93A7, 0xB72E6C15, 0xD18F4A3B, 0xA4E97D53, 0xF36B1C89].getD j 0

/-- R283: the column of a key in a row, and whether its sign is -1. -/
def SkHdr.hash (h : SkHdr) (key : Word) (j : Nat) : Nat × Bool :=
  let prod := (key ^^^ h.seed) * skMul j
  (bits prod (32 - h.logw) h.logw, bit prod (31 - h.logw))

def signedBy (neg : Bool) (x : Int) : Int := if neg then -x else x

/-- The largest counter. -/
def skMax : Int := 2 ^ 31 - 1

/-- R284: the quantised value and whether it was clamped; none for a NaN. -/
def quantise (e : Int) (v : Word) : Option (Int × Bool) :=
  match unpack32 false v with
  | .nan _ _ => none
  | .inf s => some (signedBy s skMax, true)
  | .fin s m x =>
      let q := (roundMag .rn s m (x - e)).1
      if skMax < q then some (signedBy s skMax, true) else some (signedBy s q, false)

/-- R285: the new counter and whether it saturated. -/
def skAdd (c : Word) (x : Int) : Word × Bool :=
  let y := sgn c + x
  (wordOfInt (max (-skMax) (min y skMax)), decide (y < -skMax) || decide (skMax < y))

def insertInt (x : Int) : List Int → List Int
  | [] => [x]
  | y :: r => if x ≤ y then x :: y :: r else y :: insertInt x r

/-- R286: the estimate from the row estimates. -/
def skEstimate (e : Int) (es : List Int) : Word :=
  let m := (es.foldl (fun l x => insertInt x l) []).getD (es.length / 2) 0
  wordOfNat (roundDy F32 .rn false false m e).1

/-- The offset of a counter. -/
def SkHdr.off (h : SkHdr) (j col : Nat) : Nat := 64 + 4 * (j * 2 ^ h.logw + col)

/-! ### Accesses of the sketch engine (R277, R280, R282) -/

/-- The sketch engine's accesses: they wait for a migrating extent, and its writes park there (R282). -/
def skVia (id die part : Nat) : Via := { who := .cmd id, die := die, part := part, hold := true, busB := true }

def Cmd.skVia (c : Cmd) : Via := Machine.skVia c.id c.die c.part

/-- An indivisible operation on a word of a sketch, by a command or under a SKUPD's number: the old word. -/
def State.skOp (s : State) (v : Via) (kind : OpCount) (num : Option Nat) (c : Cap) (off : Nat) (f : Word → Word) : State × PRes Word :=
  let g := fun (b : List Byte) => toBytes 4 (f (wordOfNat (ofBytes b))).toNat
  andThen (s.pkgAt { v with write := true } c off true) (fun s p =>
    match (s.unparked (.unit v.who)).unitOp v kind num p.1 4 false (fun b => some (g b)) with
    | (s, none) => (s, .fail .poisoned)
    | (s, some b) => (s, .ok (wordOfNat (ofBytes b))))

/-- An indivisible read of a word. -/
def State.skRead (s : State) (v : Via) (c : Cap) (off : Nat) : State × PRes Word :=
  andThen (s.pkgRead v c off 4 true) (fun s b => (s, .ok (wordOfNat (ofBytes b))))

/-- Whether every byte of a sketch lies in tier-0 extents of one stack. -/
def State.skPlaced (s : State) (v : Via) (c : Cap) (size stack : Nat) : State × PRes Bool :=
  ((List.range ((size + 65535) / 65536)).map (fun k => 65536 * k) ++ [size - 1]).foldl (fun (acc : State × PRes Bool) off =>
    match acc.2 with
    | .ok true =>
        (match acc.1.pkgAt v c off true with
          | (s, .ok (pa, _)) => (s, .ok (pa / 2 ^ 36 == stack))
          | (s, .fail .refused) => (s, .ok false)
          | (s, .fail e) => (s, .fail e)
          | (s, .wait) => (s, .wait))
    | _ => acc) (s, .ok true)

/-- The header of a sketch: none where it is invalid (R282). -/
def State.skHeader (s : State) (v : Via) (c : Cap) : State × PRes (Option SkHdr) :=
  andThen (s.pkgAt v c 0 false) (fun s p =>
    if p.2 then (s, .ok none)
    else andThen (s.pkgRead v c 0 64 false) (fun s b =>
      match SkHdr.parse (ofBytes b) c.len with
      | none => (s, .ok none)
      | some h => andThen (s.skPlaced v c h.size (p.1 / 2 ^ 36)) (fun s ok => (s, .ok (if ok then some h else none)))))

/-! ### Issue (R287, R288) -/

/-- The checks of several capabilities, kind by kind: each with its rights, BASE a multiple of 64 and LEN of 64. -/
def State.chkSketch (s : State) (us : List (Nat × BitVec 8)) : Chk :=
  let c := fun (u : Nat × BitVec 8) => s.pane.creg u.1
  (us.findSome? (fun u => chkTag (c u) u.1)).or
    ((us.findSome? (fun u => chkKey s.pane.part (c u) u.1)).or
      ((us.findSome? (fun u => chkRights (c u) u.2 u.1)).or
        ((us.findSome? (fun u => chkAlign [0] (fun _ => (c u).base) 64 u.1)).or
          (us.findSome? (fun u => chkBounds [0] (fun _ => decide (64 ≤ (c u).len)) u.1)))))

/-- R289: SKUPD. Its request names the whole sketch until the header is read. -/
def execSkupd (d : CReg) (a b : VSrc) (s : State) : Out :=
  let c := s.pane.creg d.val
  memWord true s (fun s =>
    let p := s.pane
    let nan := p.lanes.any (fun L => (unpack32 false (b.val p L)).isNan)
    let t := s.startReq (s.chkSketch [(d.val, rR ||| rD)])
      { s.mkReq .skupd .dm 0x7F {} with
        entry := true, obj := c.obj, vbase := c.base, size := c.len,
        extra := (p.lanes.map (fun L => [L, uns (a.val p L), uns (b.val p L)])).flatten,
        lanes := [{ lane := 0, addr := c.base, mask := p.xm }] }
      (a.stale p || b.stale p)
    if t.nextRid = s.nextRid then t else onPane (fun p => p.flag (flagIf nan fNV)) t)

/-- The vector registers of a result, pending until the covering WAITAC (R26, R78): nothing is tracked for them. -/
def execSkqry (d : Fin 120) (a : VSrc) (b : CReg) (ac : Fin 16) (s : State) : Out :=
  memWord true s (fun s =>
    let p := s.pane
    let t := s.startCmd (s.chkSketch [(b.val, rR)])
      { s.mkCmd (.skqry d a b ac) (some ac) with
        caps := [p.creg b.val], lanes := p.lanes.map (fun L => (L, [a.val p L])) } 0
    if t.nextRid = s.nextRid then t else onPane (fun p => p.stale (a.stale p)) t)

/-- R291: SKADD. -/
def execSkadd (d a : CReg) (ac : Fin 16) (s : State) : Out :=
  .next (s.startCmd (s.chkSketch [(d.val, rR ||| rW ||| rD), (a.val, rR)])
    { s.mkCmd (.skadd d a ac) (some ac) with caps := [s.pane.creg d.val, s.pane.creg a.val] } 0)

/-- R292: SKCLR. -/
def execSkclr (d : CReg) (ac : Fin 16) (s : State) : Out :=
  .next (s.startCmd (s.chkSketch [(d.val, rW)]) { s.mkCmd (.skclr d ac) (some ac) with caps := [s.pane.creg d.val] } 0)

/-! ### Order of arrival (R288) -/

/-- The sketch a command or request that has arrived and not started names. -/
def State.skWaiting (s : State) : List (Nat × Nat × Nat) :=
  ((Tab.vals s.cmds).filter (fun c => c.stage == 0 && s.cmdReady c && (match c.i with
      | .skqry _ _ _ _ | .skadd _ _ _ | .skclr _ _ => true
      | _ => false))).map (fun c => (c.id, c.part, (c.cap 0).base)) ++
    ((Tab.vals s.reqs).filter (fun r => r.kind == .skupd && r.accepted && !r.destAccepted)).map (fun r => (r.rid, r.part, r.vbase))

/-- Commands that name one sketch start in their order of arrival. -/
def State.skFirst (s : State) (id part base : Nat) : Bool :=
  s.skWaiting.all (fun w => w.2.1 != part || w.2.2 != base || decide (id ≤ w.1))

/-! ### SKUPD (R289) -/

/-- The captured lanes of a SKUPD: key and value. -/
def skLanes : List Nat → List (Word × Word)
  | _ :: k :: v :: r => (wordOfNat k, wordOfNat v) :: skLanes r
  | _ => []

/-- An exact sum raised in a list of sums. -/
def skSum (l : List ((Nat × Nat) × Int)) (k : Nat × Nat) (x : Int) : List ((Nat × Nat) × Int) :=
  if l.any (fun e => e.1 == k) then l.map (fun e => if e.1 = k then (e.1, e.2 + x) else e) else l ++ [(k, x)]

/-- The combiner: one sum for each counter. -/
def skFold (h : SkHdr) (ls : List (Word × Word)) : List ((Nat × Nat) × Int) :=
  ls.foldl (fun acc l =>
    match quantise h.e l.2 with
    | none => acc
    | some (q, _) => (List.range h.rows).foldl (fun acc j =>
        let x := h.hash l.1 j
        skSum acc (j, x.1) (signedBy x.2 q)) acc) []

def skClamped (h : SkHdr) (ls : List (Word × Word)) : Bool :=
  ls.any (fun l => match quantise h.e l.2 with
    | some (_, b) => b
    | none => false)

/-- The operations of a SKUPD, one a lane of its request: a counter's, with its row; or an OR into SAT (`again`). -/
def skOps (h : SkHdr) (r : Req) : List Lane :=
  let ls := skLanes r.extra
  let l0 := r.lanes.headD { lane := 0, addr := 0 }
  let mk := fun (off : Nat) (x : Int) (row : Nat) (sat : Bool) =>
    { l0 with addr := r.vbase + off, data := toBytes 8 (x % 2 ^ 64).toNat, pa := row, again := sat }
  { l0 with stage := .landed } ::
    ((skFold h ls).filter (fun e => e.2 != 0)).map (fun e => mk (h.off e.1.1 e.1.2) e.2 e.1.1 false) ++
    (if skClamped h ls then [mk 12 (2 ^ h.rows - 1) 0 true] else [])

/-- A capability for a request's own accesses. -/
def Req.skCap (r : Req) (len : Nat) : Cap :=
  ⟨true, BitVec.ofNat 128 (r.vbase + len * 2 ^ 56 + r.part * 2 ^ 104 + r.obj * 2 ^ 112)⟩

/-- One operation of a SKUPD; a counter that saturates brings an OR of its row's bit. -/
def State.skupdOp (s : State) (r : Req) (k : Nat) (l : Lane) : Option State :=
  let die := dieOf r.core
  let x := sExt (ofBytes l.data) 64
  let f : Word → Word := fun w => if l.again then w ||| wordOfInt x else (skAdd w x).1
  let set := fun (s : State) (ls : List Lane) => s.modReq r.rid (fun r => { r with lanes := ls })
  match s.skOp (skVia r.rid die r.part) .sketch (some l.num) (r.skCap (2 ^ 40 - 1)) (l.addr - r.vbase) f with
  | (t, .wait) => s.waited t
  | (t, .ok old) => some (set t (setAt r.lanes k { l with stage := .landed } ++
      (if !l.again && (skAdd old x).2 then
        [{ l with addr := r.vbase + 12, data := toBytes 8 (2 ^ l.pa), again := true }] else [])))
  | (t, .fail e) => some (set t (setAt r.lanes k { l with stage := .failed e }))

/-- A step of a SKUPD: its header, or its next operation. -/
def State.skupdStep (s : State) (r : Req) : Option State :=
  let fail := fun (s : State) (c : Cause) => some (s.modReq r.rid (fun r =>
    { r with destAccepted := true, lanes := r.lanes.map (fun l => { l with stage := .failed c }) }))
  if !r.accepted then none
  else if !r.destAccepted then
    if !s.skFirst r.rid r.part r.vbase then none
    else
      match s.skHeader (skVia r.rid (dieOf r.core) r.part) (r.skCap r.size) with
      | (t, .wait) => s.waited t
      | (t, .fail e) => fail t e
      | (t, .ok none) => fail t .refused
      | (t, .ok (some h)) => some (t.modReq r.rid (fun r => { r with destAccepted := true, size := 4, lanes := skOps h r }))
  else
    match r.lanes.findIdx? (fun l => l.stage == .issued) with
    | none => none
    | some k => s.skupdOp r k (r.lanes.getD k { lane := 0, addr := 0 })

/-! ### SKQRY, SKADD and SKCLR (R290 to R292) -/

/-- A header as a command keeps it. -/
def SkHdr.aux (h : SkHdr) : List Nat := [h.rows, h.logw, h.seed.toNat, (h.e + 64).toNat]

def SkHdr.ofAux (l : List Nat) : SkHdr := ⟨l.getD 0 0, l.getD 1 0, wordOfNat (l.getD 2 0), (l.getD 3 0 : Int) - 64⟩

/-- A SKQRY ends: its lanes' results. -/
def State.skqryEnd (s : State) (c : Cmd) (d : Nat) (f : Nat → Word) (data eng : Bool) : State :=
  ((s.modPane c.pid (fun p => if p.place.live then p.vset d c.xm f else p)).cmdGone c).cmdFall2 c data eng

/-- The estimate of a lane from the counters it read. -/
def skLaneResult (h : SkHdr) (ws : List Word) : Word :=
  skEstimate h.e ((List.range h.rows).map (fun j => signedBy (h.hash (ws.getD 0 0) j).2 (sgn (ws.getD (j + 1) 0))))

/-- A step of a SKQRY: its header, or one counter of one lane, row after row. -/
def State.skqryStep (s : State) (c : Cmd) (d : Nat) : Option State :=
  let bad := fun (s : State) (data eng : Bool) => some (s.skqryEnd c d (fun _ => poisonWord) data eng)
  if c.stage = 0 then
    if !s.cmdReady c || !s.skFirst c.id c.part (c.cap 0).base then none
    else if s.cmdRefused c then bad s true false
    else
      match s.skHeader c.skVia (c.cap 0) with
      | (t, .wait) => s.waited t
      | (t, .ok none) => bad t false true
      | (t, .ok (some h)) => some (t.modCmd c.id (fun c => { c with stage := 1, aux := h.aux }))
      | (t, _) => bad t true false
  else
    let h := SkHdr.ofAux c.aux
    match c.lanes.find? (fun l => decide (l.2.length < h.rows + 1)) with
    | none => some (s.skqryEnd c d (fun L => skLaneResult h (((c.lanes.find? (fun l => l.1 == L)).map Prod.snd).getD [])) false false)
    | some l =>
        let j := l.2.length - 1
        match s.skRead c.skVia (c.cap 0) (h.off j (h.hash (l.2.getD 0 0) j).1) with
        | (t, .wait) => s.waited t
        | (t, .ok w) => some (t.modCmd c.id (fun c =>
            { c with lanes := c.lanes.map (fun m => if m.1 = l.1 then (m.1, m.2 ++ [w]) else m) }))
        | (t, _) => bad t true false

/-- Whether an access failed. -/
def PRes.lost {α : Type} : PRes α → Bool
  | .fail _ => true
  | _ => false

/-- A SKADD or SKCLR goes on to its next counter; `bad` says that this one failed. -/
def State.skNext (s : State) (c : Cmd) (bad : Bool) : State :=
  s.modCmd c.id (fun c => { c with base := c.base + 1, words := if bad then [1] else c.words })

/-- The last step of a SKADD or SKCLR: VERSION rises by 1. -/
def State.skVersion (s : State) (c : Cmd) (bad : Bool) : Option State :=
  match s.skOp c.skVia .none none (c.cap 0) 16 (fun w => w + 1) with
  | (t, .wait) => s.waited t
  | (t, r) => some ((t.cmdGone c).cmdFall2 c (bad || r.lost || c.words == [1]) false)

/-- A SKADD or SKCLR that writes nothing. -/
def State.skRefuse (s : State) (c : Cmd) (data eng : Bool) : State :=
  (s.cmdGone c).cmdFall2 c data eng

/-- One counter of a SKADD: the source's read, then the destination's operation. -/
def State.skaddCounter (s : State) (c : Cmd) (h : SkHdr) : Option State :=
  let off := 64 + 4 * c.base
  match s.skRead c.skVia (c.cap 1) off with
  | (t, .wait) => s.waited t
  | (t, .ok w) =>
      (match t.skOp c.skVia .sketch none (c.cap 0) off (fun x => (skAdd x (sgn w)).1) with
        | (t, .wait) => s.waited t
        | (t, .ok old) =>
            if (skAdd old (sgn w)).2 then
              (match t.skOp c.skVia .sketch none (c.cap 0) 12 (fun x => x ||| wordOfNat (2 ^ (c.base / 2 ^ h.logw))) with
                | (t, .wait) => s.waited t
                | (t, r) => some (t.skNext c r.lost))
            else some (t.skNext c false)
        | (t, _) => some (t.skNext c true))
  | (t, _) => some (t.skNext c true)

/-- A step of a SKADD: the two headers, a counter, or SAT and VERSION. -/
def State.skaddStep (s : State) (c : Cmd) : Option State :=
  if c.stage = 0 then
    if !s.cmdReady c || !s.skFirst c.id c.part (c.cap 0).base then none
    else if s.cmdRefused c then some (s.skRefuse c true false)
    else
      match s.skHeader c.skVia (c.cap 0) with
      | (t, .wait) => s.waited t
      | (t, .ok hd) =>
          (match t.skHeader c.skVia (c.cap 1) with
            | (t, .wait) => s.waited t
            | (t, .ok ha) =>
                (match hd with
                  | some h => if ha = some h then some (t.modCmd c.id (fun c => { c with stage := 1, aux := h.aux }))
                      else some (t.skRefuse c false true)
                  | none => some (t.skRefuse c false true))
            | (t, _) => some (t.skRefuse c true false))
      | (t, _) => some (t.skRefuse c true false)
  else
    let h := SkHdr.ofAux c.aux
    if c.base < h.rows * 2 ^ h.logw then s.skaddCounter c h
    else
      match s.skRead c.skVia (c.cap 1) 12 with
      | (t, .wait) => s.waited t
      | (t, .ok w) =>
          (match t.skOp c.skVia .sketch none (c.cap 0) 12 (fun x => x ||| (w &&& 0x7F)) with
            | (t, .wait) => s.waited t
            | (t, r) => t.skVersion c r.lost)
      | (t, _) => t.skVersion c true

/-- A step of a SKCLR: the header and SAT, a counter, or VERSION. -/
def State.skclrStep (s : State) (c : Cmd) : Option State :=
  if c.stage = 0 then
    if !s.cmdReady c || !s.skFirst c.id c.part (c.cap 0).base then none
    else if s.cmdRefused c then some (s.skRefuse c true false)
    else
      match s.skHeader c.skVia (c.cap 0) with
      | (t, .wait) => s.waited t
      | (t, .ok none) => some (t.skRefuse c false true)
      | (t, .ok (some h)) =>
          (match t.skOp c.skVia .sketch none (c.cap 0) 12 (fun x => x &&& 0xFFFFFF80) with
            | (t, .wait) => s.waited t
            | (t, r) => some (t.modCmd c.id (fun c => { c with stage := 1, aux := h.aux, words := if r.lost then [1] else [] })))
      | (t, _) => some (t.skRefuse c true false)
  else
    let h := SkHdr.ofAux c.aux
    if c.base < h.rows * 2 ^ h.logw then
      match s.skOp c.skVia .sketch none (c.cap 0) (64 + 4 * c.base) (fun _ => 0) with
      | (t, .wait) => s.waited t
      | (t, r) => some (t.skNext c r.lost)
    else s.skVersion c false

/-- Whether the base die whose stack holds a capability's first byte is frozen: it starts no command (R391). -/
def State.unitFrozen (s : State) (v : Via) (c : Cap) : Bool :=
  match s.pkgAt v c 0 false with
  | (_, .ok (pa, _)) => (s.base (pa / 2 ^ 36 % 16)).frozen
  | _ => false

/-- SKETCH_COMMAND: the sketch engine's next step of a command, or of a SKUPD's request. -/
def State.sketch (s : State) (id : Nat) : Option State :=
  match Tab.find s.cmds id with
  | some c =>
      if c.stage = 0 ∧ s.unitFrozen c.skVia (c.cap 0) = true then none
      else (match c.i with
        | .skqry d _ _ _ => s.skqryStep c d.val
        | .skadd _ _ _ => s.skaddStep c
        | .skclr _ _ => s.skclrStep c
        | _ => none)
  | none =>
      match Tab.find s.reqs id with
      | some r =>
          if r.kind ≠ .skupd ∨ (!r.destAccepted && s.unitFrozen (skVia r.rid (dieOf r.core) r.part) (r.skCap r.size)) = true then none
          else s.skupdStep r
      | none => none

def execSketchCommand (cmd : Nat) (s : State) : Out := event s (s.sketch cmd)

end Sys2Proof.Machine
end

