-- ==== Sys2Proof/Machine/Coll.lean ====
section
/-! DEFINITION. COLL: its issue, the group record, contributions and folds, completion, timeouts and link engine resets (R369
to R373, R379). -/

namespace Sys2Proof.Machine

/-! ### Issue (R369, R371) -/

/-- A capability seen from an offset within it. -/
def Cap.from (c : Cap) (off : Nat) : Cap :=
  ⟨c.tag, BitVec.ofNat 128 ((c.base + off) % 2 ^ 56 + (c.len - off) * 2 ^ 56 + c.bits.toNat / 2 ^ 96 * 2 ^ 96)⟩

/-- The base die whose link engines perform a collective; 16 where the destination has no place yet. -/
def State.collBase (s : State) (v : Via) (c : Cap) (off : Nat) : Nat :=
  match s.pkgAt v c off false with
  | (_, .ok (pa, t)) => if t then pa / 4096 % 16 else pa / 2 ^ 36
  | _ => 16

/-- Whether a base die holds as many collectives as it can (R371). -/
def State.collFull (s : State) (g : Nat) : Bool := decide (64 ≤ ((Tab.vals s.colls).filter (fun c => c.base == g)).length)

def isSkadd (op : CollOp) : Bool := op == .skadd

/-- The descriptor's own limits. -/
def collBad (op : CollOp) (w : Nat → Word) : Bool :=
  let count := uns (w 4)
  bits (w 0) 20 12 != 0 || w 7 != 0 || w 5 == 0 || decide (0x0FFFFFFF < uns (w 5)) ||
    (if isSkadd op then count != 0 else count == 0 || decide (16777216 < count)) || decide (63 < uns (w 6)) ||
    (op != .bcast && w 6 != 0)

/-- R371, step 2: the kinds in turn, each over CG, CS, CD and CW. -/
def State.chkColl (s : State) (op : CollOp) (w : Nat → Word) : Chk :=
  let p := s.pane
  let r := fun k => bits (w 0) (5 * k) 5
  let c := fun k => p.creg (r k)
  let n := 4 * uns (w 4)
  let ks : List (Nat × BitVec 8) := [(0, rR), (1, rR), (2, rW), (3, rW)]
  let off := fun k => if k = 0 then 0 else uns (w k)
  let size := fun k => if k = 0 then 64 else if k = 3 then 4 else n
  (ks.findSome? (fun k => chkTag (c k.1) (r k.1))).or
    ((ks.findSome? (fun k => chkKey p.part (c k.1) (r k.1))).or
      ((ks.findSome? (fun k => chkRights (c k.1) k.2 (r k.1))).or
        ((if off 3 % 4 ≠ 0 ∨ isSkadd op then ks.findSome? (fun k => chkAlign [0] (fun _ => if k.1 = 0 then 0
            else if k.1 = 3 then (if off 3 % 4 = 0 then 0 else 1) else if isSkadd op then (c k.1).base + off k.1 else 0) 64 (r k.1)) else none).or
          (ks.findSome? (fun k => chkBounds [0] (fun _ => decide (off k.1 + size k.1 ≤ (c k.1).len)) (r k.1))))))

/-- R369: COLL. -/
def execColl (op : CollOp) (d : Option (Fin 63)) (a : Fin 57) (ac : Fin 16) (s : State) : Out :=
  let p := s.pane
  let w := fun k => p.sreg (a.val + k)
  let g := s.collBase { who := .cmd s.nextRid, die := dieOf p.core, part := p.part } (p.creg (bits (w 0) 10 5)) (uns (w 2))
  if !s.memMayIssue then .next (held s)
  else if (List.range 4).any (fun k => bit p.cPend (bits (w 0) (5 * k) 5)) then .next (held s)
  else if collBad op w then .next (takeTrap cOperand s.word s)
  else
    match s.chkColl op w with
    | some (cause, detail) => .next (takeTrap cause detail s)
    | none =>
        if p.acFull ac ∨ (g < 16 ∧ s.collFull g = true) then .next (held s)
        else
          let c := { s.mkCmd (.coll op d a ac) (some ac) with
                     caps := (List.range 4).map (fun k => p.creg (bits (w 0) (5 * k) 5)), words := (List.range 8).map w }
          .next (onPane (fun p => let p := p.acUp ac
            { p with sPend := p.sPend ||| sRun (d.map Fin.val) 2 })
            { s with colls := Tab.set s.colls c.id { cmd := c, base := g }, nextRid := s.nextRid + 1 })

/-! ### The command (R370, R372) -/

def Coll.op (c : Coll) : CollOp :=
  match c.cmd.i with
  | .coll op _ _ _ => op
  | _ => .gath

def Coll.cap (c : Coll) (k : Nat) : Cap := c.cmd.cap k
def Coll.off (c : Coll) (k : Nat) : Nat := uns (c.cmd.word k)
def Coll.tag (c : Coll) : Nat := uns (c.cmd.word 5)
def Coll.root (c : Coll) : Nat := uns (c.cmd.word 6)

/-- The elements of a rank. -/
def Coll.count (c : Coll) : Nat :=
  if isSkadd c.op then (match SkHdr.parse (ofBytes (c.hdr.map (fun (w : Word) => toBytes 4 w.toNat)).flatten) (2 ^ 40) with
    | some h => h.rows * 2 ^ h.logw
    | none => 0)
  else uns (c.cmd.word 4)

def Coll.chunks (c : Coll) : Nat := (c.count + 47) / 48

/-- The elements of a chunk. -/
def Coll.chunkLen (c : Coll) (k : Nat) : Nat := min 48 (c.count - 48 * k)

def Coll.owner (c : Coll) (k : Nat) : Nat := k % c.ranks.length

/-- The byte offset of the elements after a sketch's header. -/
def Coll.pad (c : Coll) : Nat := if isSkadd c.op then 64 else 0

def State.modColl (s : State) (id : Nat) (f : Coll → Coll) : State := { s with colls := Tab.mod s.colls id f }

/-- The group record's entries; none where it is invalid (R370). -/
def groupParse (x mypkg mypart : Nat) (ents : Nat → Nat) : Option (List (Nat × Nat) × Nat) :=
  let n := nbitsOf x 0 7
  let me := nbitsOf x 32 6
  let es := (List.range n).map ents
  if nbitsOf x 16 16 = 0x4347 ∧ nbitsOf x 7 9 = 0 ∧ 2 ≤ n ∧ n ≤ 64 ∧ nbitsOf x 38 26 = 0 ∧ nbitsOf x 64 448 = 0 ∧ me < n ∧
      es.all (fun e => e / 2 ^ 24 == 0) = true ∧ es.getD me 0 = mypkg + mypart * 2 ^ 16 then
    some (es.map (fun e => (e % 2 ^ 16, e / 2 ^ 16)), me) else none

/-- The group record as read. -/
def State.groupRecord (s : State) (c : Coll) : State × PRes (Option (List (Nat × Nat) × Nat)) :=
  let g := c.cap 0
  andThen (s.pkgRead c.cmd.viaB g 0 64 false) (fun s b =>
    let x := ofBytes b
    let n := nbitsOf x 0 7
    if g.base % 64 ≠ 0 ∨ g.len < 64 + 8 * n ∨ n = 0 then (s, .ok none)
    else andThen (s.pkgRead c.cmd.viaB g 64 (8 * n) false) (fun s e =>
      (s, .ok (groupParse x s.pkgNo c.cmd.part (fun r => ofBytes ((e.drop (8 * r)).take 8))))))

/-- The words of a header that must agree (ROWS, LOGW, SEED, E). -/
def hdrKey (h : List Word) : List Nat := [bits (h.getD 0 0) 0 16, uns (h.getD 1 0), bits (h.getD 2 0) 0 8]

/-- A sketch's header as its sixteen words, where it is valid. -/
def State.skWords (s : State) (v : Via) (c : Cap) : State × PRes (Option (List Word)) :=
  andThen (s.skHeader v c) (fun s h =>
    match h with
    | none => (s, .ok none)
    | some _ => andThen (s.pkgRead v c 0 64 true) (fun s b =>
        (s, .ok (some ((List.range 16).map (fun k => wordOfNat (ofBytes ((b.drop (4 * k)).take 4))))))))

/-- Whether the bounds that R372 checks when the command runs hold. -/
def Coll.fits (c : Coll) (n : Nat) : Bool :=
  match c.op with
  | .gath => decide (c.off 2 + 4 * uns (c.cmd.word 4) * n ≤ (c.cap 2).len)
  | .bcast => decide (c.root < n)
  | _ => true

/-- Whether a collective issued before this one with its tag runs in its group (R379). -/
def State.collTwin (s : State) (c : Coll) (ranks : List (Nat × Nat)) : Bool :=
  (Tab.vals s.colls).any (fun o => decide (o.cmd.id < c.cmd.id) && o.started && o.cmd.part == c.cmd.part && o.tag == c.tag &&
    o.ranks == ranks)

/-- Whether one issued before with its tag has not read its group record: which of them is the first in the group is not known yet. -/
def State.collElder (s : State) (c : Coll) : Bool :=
  (Tab.vals s.colls).any (fun o => decide (o.cmd.id < c.cmd.id) && !o.started && o.code == 0 && o.cmd.part == c.cmd.part && o.tag == c.tag)

/-- Whether a message is for a collective: its partition, its tag, its group, and its sender a rank of it. -/
def Coll.hears (c : Coll) (m : CollMsg) : Bool :=
  c.started && c.cmd.part == m.dest && c.tag == m.tag && c.ranks == m.group && c.ranks[m.rank]? == some (m.pkg, m.part)

/-- The group is known: the collective runs, with the contributions that came before it. -/
def State.collRun (s : State) (c : Coll) (ranks : List (Nat × Nat)) (me : Nat) (hdr : List Word) : State :=
  let c' := { c with started := true, ranks := ranks, myrank := me, hdr := hdr, sat := bits (hdr.getD 3 0) 0 7 }
  let mine := s.collEarly.filter (fun m => c'.hears m)
  { s with colls := Tab.set s.colls c.cmd.id c', collEarly := s.collEarly.filter (fun m => !c'.hears m),
           agenda := s.agenda ++ mine.map Instr.collContribution }

/-- A code ends a collective: the first that it meets. -/
def State.collCode (s : State) (c : Coll) (code : Nat) : State :=
  s.modColl c.cmd.id (fun c => { c with code := if c.code = 0 then code else c.code })

/-- The first part of COLL_START. -/
def State.collBegin (s : State) (c : Coll) : Option State :=
  match s.groupRecord c with
  | (t, .wait) => s.waited t
  | (t, .fail _) => some (t.collCode c 1)
  | (t, .ok none) => some (t.collCode c 2)
  | (t, .ok (some (ranks, me))) =>
      if !c.fits ranks.length || t.collTwin c ranks then some (t.collCode c 2)
      else if !(ranks.zipIdx.all (fun r => r.2 == me || (t.route c.cmd.part r.1.1 r.1.2).isSome)) then some (t.collCode c 4)
      else if isSkadd c.op then
        (match t.skWords c.cmd.skVia ((c.cap 1).from (c.off 1)) with
          | (t, .wait) => s.waited t
          | (t, .fail _) => some (t.collCode c 1)
          | (t, .ok none) => some (t.collCode c 2)
          | (t, .ok (some h)) =>
              (match t.skWords c.cmd.skVia ((c.cap 2).from (c.off 2)) with
                | (t, .wait) => s.waited t
                | (t, .fail _) => some (t.collCode c 1)
                | (t, .ok none) => some (t.collCode c 2)
                | (t, .ok (some h2)) => some (if hdrKey h = hdrKey h2 then t.collRun c ranks me h else t.collCode c 2)))
      else some (t.collRun c ranks me [])

/-- The base die of a destination that had no place at issue: known once its page is resident (R371). -/
def State.collPlace (s : State) (c : Coll) : Option State :=
  match s.pkgAt c.cmd.viaB (c.cap 2) (c.off 2) false with
  | (t, .wait) => s.waited t
  | (t, .fail _) => some (t.collCode c 1)
  | (t, .ok _) =>
      let g := t.collBase c.cmd.viaB (c.cap 2) (c.off 2)
      if t.collFull g then none else some (t.modColl c.cmd.id (fun c => { c with base := g }))

/-! ### Folds -/

/-- One element's fold (R372); the flag says that a sketch counter saturated. -/
def foldElem (op : CollOp) (x y : Word) : Word × Bool :=
  match op with
  | .sumF32 => (atomFadd x y, false)
  | .sumI32 => (x + y, false)
  | .maxF32 => ((fminmaxVal false true x y).1, false)
  | .maxI32 => (imaxVal false x y, false)
  | .skadd => skAdd x (sgn y)
  | .bcast | .gath => (x, false)

/-- A rank's elements folded into a chunk; a GATH's chunk keeps the ranks' elements side by side, a BCAST's is the root's. -/
def Coll.fold (c : Coll) (k rank : Nat) (es : List Word) (sat : Nat) : Coll :=
  let old := Tab.getD c.folds k ([], [])
  let len := c.chunkLen k
  let n := c.ranks.length
  let new := if c.op = .gath then
      (List.range (n * len)).map (fun i => if i / len = rank then es.getD (i % len) 0 else old.1.getD i 0)
    else if c.op = .bcast then (if rank = c.root then es else old.1)
    else if old.2.isEmpty then es
    else (List.range len).map (fun i => (foldElem c.op (old.1.getD i 0) (es.getD i 0)).1)
  let rows := if isSkadd c.op && !old.2.isEmpty then
      (List.range len).foldl (fun m i => if (foldElem .skadd (old.1.getD i 0) (es.getD i 0)).2 then
        m ||| 2 ^ ((48 * k + i) / 2 ^ bits (c.hdr.getD 0 0) 8 5) else m) 0 else 0
  { c with folds := Tab.set c.folds k (new, old.2 ++ [rank]), sat := c.sat ||| sat ||| rows }

/-- A chunk whose fold is whole. -/
def Coll.whole (c : Coll) (k : Nat) : Bool :=
  match Tab.find c.folds k with
  | some (_, rs) => (List.range c.ranks.length).all (fun r => rs.contains r)
  | none => false

/-- A message of this rank; its receiver's partition is set as it leaves. -/
def State.collMsg (s : State) (c : Coll) (k : Nat) (result : Bool) (es : List Word) : CollMsg :=
  { rank := c.myrank, pkg := s.pkgNo, part := c.cmd.part, tag := c.tag, op := c.op, count := uns (c.cmd.word 4), root := c.root,
    header := setAt c.hdr 3 (wordOfNat c.sat), chunk := k, result := result, elems := es, dest := c.cmd.part, group := c.ranks,
    clock := mergeClock c.clock (s.die c.cmd.die).clock }

/-- A message as numbers. -/
def collNums (m : CollMsg) : List Nat :=
  [m.rank, m.pkg, m.part, m.dest, m.tag, m.op.ctorIdx, m.count, m.root, m.chunk, if m.result then 1 else 0] ++
    m.header.map BitVec.toNat ++ m.elems.map BitVec.toNat ++ (m.group ++ m.clock).flatMap (fun e => [e.1, e.2])

/-- A message sent to a rank. -/
def State.collSend (s : State) (c : Coll) (rank : Nat) (m : CollMsg) : State :=
  let r := c.ranks.getD rank (0, 0)
  let m := { m with dest := r.2 }
  let s := { s with collOut := s.collOut ++ [(rank, m)] }
  match s.route c.cmd.part r.1 r.2 with
  | some x => s.sendFlit x 2 (collNums m) none
  | none => s

/-- A whole fold goes to every rank; this rank's own result comes as an event. -/
def State.collResult (s : State) (c : Coll) (k : Nat) : State :=
  if !c.whole k || c.code != 0 then s
  else
    let m := s.collMsg c k true (Tab.getD c.folds k ([], [])).1
    let s := (List.range c.ranks.length).foldl (fun s r => if r = c.myrank then s else s.collSend c r m) s
    { s with agenda := s.agenda ++ [.collContribution m] }

/-- A contribution folded at its owner, and the result sent where it is whole. -/
def State.collFold (s : State) (c : Coll) (k rank : Nat) (es : List Word) (sat : Nat) : State :=
  let c := c.fold k rank es sat
  ({ s with colls := Tab.set s.colls c.cmd.id c } : State).collResult c k

/-- The elements a rank contributes to a chunk, read at their home; a rank of a .BCAST other than the root reads none, and its
contribution shows its parameters and what it had seen (R372, R373; log entry 105). -/
def State.collElems (s : State) (c : Coll) (k : Nat) : State × PRes (List Word) :=
  if c.op = .bcast ∧ c.myrank ≠ c.root then (s, .ok [])
  else
    andThen (s.pkgRead c.cmd.viaB (c.cap 1) (c.off 1 + c.pad + 192 * k) (4 * c.chunkLen k) false) (fun s b =>
      (s, .ok ((List.range (c.chunkLen k)).map (fun i => wordOfNat (ofBytes ((b.drop (4 * i)).take 4))))))

/-- This rank's next contribution: folded here or sent to the chunk's owner. A collective that has met a mismatch
still sends, so that the others meet it too (R384). -/
def State.collContribute (s : State) (c : Coll) : Option State :=
  let k := c.next
  if c.chunks ≤ k then none
  else if c.code ≠ 0 ∧ c.owner k = c.myrank then
    some (s.modColl c.cmd.id (fun c => { c with next := k + 1 }))
  else
    match s.collElems c k with
    | (t, .wait) => s.waited t
    | (t, .fail _) => some ((t.modColl c.cmd.id (fun c => { c with next := k + 1 })).collCode c 1)
    | (t, .ok es) =>
        let c := { c with next := k + 1 }
        if c.owner k = c.myrank then
          let mine := c.hold.filter (fun m => m.chunk == k)
          let c := { c with hold := c.hold.filter (fun m => m.chunk != k) }
          let t := t.collFold c k c.myrank es 0
          some { t with agenda := t.agenda ++ mine.map Instr.collContribution }
        else some (({ t with colls := Tab.set t.colls c.cmd.id c } : State).collSend c (c.owner k) (t.collMsg c k false es))

/-- Whether a collective still has contributions to send: all of them, or those that show a mismatch. -/
def Coll.sends (c : Coll) : Bool := c.started && (c.code == 0 || c.code == 2) && decide (c.next < c.chunks)

/-- COLL_START: the destination's base die, the group record, then contribution after contribution; a frozen die starts none
(R391), and a failed mesh stop lets none through (R217). -/
def State.collStart (s : State) (id : Nat) : Option State :=
  match Tab.find s.colls id with
  | none => none
  | some c =>
      if (s.base c.base).frozen = true then none
      else if c.started then (if c.sends then s.collContribute c else none)
      else if c.code ≠ 0 ∨ s.cmdReady c.cmd = false ∨ s.collElder c = true then none
      else if s.cmdRefused c.cmd then some (s.collCode c 1)
      else if c.base = 16 then s.collPlace c
      else s.collBegin c

def execCollStart (cmd : Nat) (s : State) : Out := event s (s.collStart cmd)

/-! ### Messages from other ranks (R372) -/

/-- Whether a message's parameters are the collective's own. -/
def Coll.agrees (c : Coll) (m : CollMsg) : Bool :=
  m.op == c.op && m.count == uns (c.cmd.word 4) && m.root == c.root && (!isSkadd c.op || hdrKey m.header == hdrKey c.hdr)

/-- A chunk's result is written. -/
def State.collWrite (s : State) (c : Coll) (m : CollMsg) : Option State :=
  let put := fun (acc : State × PRes Unit) (w : Nat × List Word) =>
    match acc.2 with
    | .ok _ => acc.1.pkgWrite c.cmd.viaB (c.cap 2) (c.off 2 + c.pad + w.1)
        (w.2.map (fun (x : Word) => toBytes 4 x.toNat)).flatten false
    | _ => acc
  let len := c.chunkLen m.chunk
  let ws := if c.op = .gath then
      (List.range c.ranks.length).map (fun r => (4 * (c.count * r + 48 * m.chunk), (m.elems.drop (len * r)).take len))
    else [(192 * m.chunk, m.elems.take len)]
  match ws.foldl put (s, .ok ()) with
  | (t, .wait) => s.waited t
  | (t, r) => some (t.modColl c.cmd.id (fun c =>
      { c with got := c.got ++ [m.chunk], sat := c.sat ||| bits (m.header.getD 3 0) 0 7, code := if r.lost then 1 else c.code }))

/-- COLL_CONTRIBUTION. -/
def State.collIn (s : State) (m : CollMsg) : Option State :=
  match (Tab.vals s.colls).find? (fun c => c.hears m) with
  | none => some { s with collEarly := s.collEarly ++ [m] }
  | some c =>
      let s := s.modColl c.cmd.id (fun c => { c with clock := mergeClock c.clock m.clock })
      let c := { c with clock := mergeClock c.clock m.clock }
      if c.code ≠ 0 then some s
      else if !c.agrees m then some (s.collCode c 2)
      else if c.chunks ≤ m.chunk then some (s.collCode c 2)
      else if m.result then
        (if c.got.contains m.chunk then none
         else if c.chunkLen m.chunk = 0 then none else s.collWrite c m)
      else if c.owner m.chunk ≠ c.myrank then none
      else
        let rs := (Tab.getD c.folds m.chunk ([], [])).2
        if rs.contains m.rank then none
        else if ¬ rs.contains c.myrank then some (s.modColl c.cmd.id (fun c => { c with hold := c.hold ++ [m] }))
        else some (s.collFold c m.chunk m.rank m.elems (bits (m.header.getD 3 0) 0 7))

def execCollContribution (m : CollMsg) (s : State) : Out := event s (s.collIn m)

/-! ### Completion (R373) -/

/-- The status pair, the counter, the end of the command. -/
def State.collEnd (s : State) (c : Coll) (code : Nat) : State :=
  let d := match c.cmd.i with
    | .coll _ d _ _ => d.map Fin.val
    | _ => none
  ({ s with colls := Tab.erase s.colls c.cmd.id } : State).cmdEnd c.cmd d [wordOfNat (code * 2 ^ 28), wordOfNat c.tag] (code != 0)

/-- The completion word, released at .SYS, then the end. -/
def State.collWord (s : State) (c : Coll) (code : Nat) : Option State :=
  match s.pkgWrite c.cmd.viaB (c.cap 3) (c.off 3) (toBytes 4 (code * 2 ^ 28 + c.tag)) false with
  | (t, .wait) => s.waited t
  | (t, r) => some (t.collEnd c (if r.lost && code == 0 then 1 else code))

/-- The destination's SAT and VERSION after a .SKADD. -/
def State.collSketch (s : State) (c : Coll) : State × PRes Unit :=
  let d := (c.cap 2).from (c.off 2)
  andThen (s.skOp c.cmd.skVia .sketch none d 12 (fun w => (w &&& 0xFFFFFF80) ||| wordOfNat (c.sat % 128))) (fun s _ =>
    andThen (s.skOp c.cmd.skVia .none none d 16 (fun w => w + 1)) (fun s _ => (s, .ok ())))

/-- COLL_COMPLETE: every chunk is written, or a code ends the collective; its die has applied what the ranks had seen, so that what
follows its end on this rank comes after it (R373). -/
def State.collComplete (s : State) (id : Nat) : Option State :=
  match Tab.find s.colls id with
  | none => none
  | some c =>
      if !s.quietSys c.cmd.pid c.cmd.mark || !(s.die c.cmd.die).covers c.clock || (c.code == 2 && c.sends) then none
      else if c.code ≠ 0 then s.collWord c c.code
      else if !c.started || !(List.range c.chunks).all (fun k => c.got.contains k) || decide (c.next < c.chunks) then none
      else if isSkadd c.op then
        (match s.collSketch c with
          | (t, .wait) => s.waited t
          | (t, r) => (t.collWord c (if r.lost then 1 else 0)).bind (fun u =>
              if (Tab.find u.colls id).isSome then s.waited u else some u))
      else s.collWord c 0

def execCollComplete (cmd : Nat) (s : State) : Out := event s (s.collComplete cmd)

/-- COLL_TIMEOUT: 100 ms without a contribution; not while frozen (R391). -/
def State.collTimeout (s : State) (id : Nat) : Option State :=
  match Tab.find s.colls id with
  | none => none
  | some c =>
      if !c.started || c.warned || c.code != 0 || (s.base c.base).frozen then none
      else some ((s.modColl id (fun c => { c with warned := true })).record 0x06 c.cmd.part (64 + c.base % 16)
        [wordOfNat c.base, wordOfNat c.tag])

def execCollTimeout (cmd : Nat) (s : State) : Out := event s (s.collTimeout cmd)

/-- LNKENG_RESET: the base die's collectives complete with code 3. -/
def State.lnkReset (s : State) (g : Nat) : State :=
  ((Tab.vals s.colls).filter (fun c => c.base == g)).foldl (fun s c =>
    let s := s.modColl c.cmd.id (fun c => { c with code := 3 })
    (s.collComplete c.cmd.id).getD s) s

def execLnkengReset (base : Nat) (s : State) : Out := .next (s.lnkReset base)

end Sys2Proof.Machine
end

