-- ==== Sys2Proof/Machine/Engines.lean ====
section
/-! DEFINITION. The die engines: CPY, GATH, SCAT, ROUTE and CHAIN, from issue to completion, their page faults, hangs and
resets (R221 to R233). -/

namespace Sys2Proof.Machine

/-! ### Issue (R221 to R224) -/

/-- How a command uses one capability of its descriptor: which (0 CD, 1 CS, 2 CI, 3 CX), its rights, its offset with the
alignment it needs, and the bytes it covers from there (none: its bounds are checked at each element). -/
structure CapUse where
  which : Nat
  need  : BitVec 8
  off   : Nat
  align : Nat
  size  : Option Nat
  deriving DecidableEq, Repr

/-- The capability register a descriptor names. -/
def descReg (w0 : Word) (which : Nat) : Nat := bits w0 (5 * which) 5

/-- The checks of R223, steps 3 and 4: kind by kind, the capabilities in order. -/
def chkUses (p : Pane) (w0 : Word) (us : List CapUse) : Chk :=
  let cap := fun (u : CapUse) => p.creg (descReg w0 u.which)
  let reg := fun (u : CapUse) => descReg w0 u.which
  (us.findSome? (fun u => chkTag (cap u) (reg u))).or
    ((us.findSome? (fun u => chkKey p.part (cap u) (reg u))).or
      ((us.findSome? (fun u => chkRights (cap u) u.need (reg u))).or
        ((us.findSome? (fun u => if u.off % u.align ≠ 0 then some (cAlign, memDetail false 0 (reg u) 0) else none)).or
          (us.findSome? (fun u => match u.size with
            | some n => if (cap u).len < u.off + n then some (cBounds, memDetail false 0 (reg u) 0) else none
            | none => none)))))

/-- The block of the core's cluster. -/
def Pane.blk (p : Pane) : Nat := clusterOf p.core

def State.blk (s : State) (die b : Nat) : Blk := (s.die die).blks.getD b {}

def State.modBlk (s : State) (die b : Nat) (f : Blk → Blk) : State :=
  s.modDie die (fun d => { d with blks := setAt d.blks b (f (d.blks.getD b {})) })

/-- The descriptor of a command. -/
def Pane.desc (p : Pane) (a : Fin 57) : List Word := (List.range 8).map (fun i => p.sreg (a.val + i))

/-- R223: a die engine word, a memory word of R238: a fence holds it; its traps, then what holds it, then its place in the block; one
without elements completes at once (R228). -/
def dieEngine (i : Instr) (d : Option (Fin 63)) (a : Fin 57) (b : SOpt) (ac : Fin 16) (uses : List Nat → Nat → List CapUse)
    (s : State) : State :=
  let p := s.pane
  let ws := p.desc a
  let w0 := ws.getD 0 0
  let n := uns (b.val p)
  let us := uses (ws.map uns) n
  if !s.memMayIssue || us.any (fun u => bit p.cPend (descReg w0 u.which)) then held s
  else if 16777215 < n ∨ bits w0 20 12 ≠ 0 ∨ ws.getD 7 0 ≠ 0 then takeTrap cOperand s.word s
  else
    match chkUses p w0 us with
    | some (cause, detail) => takeTrap cause detail s
    | none =>
        let die := dieOf p.core
        if 64 ≤ (s.blk die p.blk).cmds.length ∨ p.acFull ac = true then held s
        else if n = 0 then onPane (fun p => p.sResult (d.map Fin.val) [0, 0xFFFFFFFF]) s
        else
          let c : Cmd := { s.mkCmd i (some ac) with caps := (List.range 4).map (fun k => p.creg (descReg w0 k)), words := ws }
          let s := onPane (fun p => let p := p.acUp ac
            { p with sPend := p.sPend ||| sRun (d.map Fin.val) 2 }) { s with nextRid := s.nextRid + 1 }
          s.modBlk die p.blk (fun x => { x with cmds := x.cmds ++ [{ cmd := c, n := n }] })

/-- The alignment of element data. -/
def elemAlign (esz : Fin 13) : Nat := 2 ^ min esz.val 4

/-- R224: CPY. -/
def execCpy (d : Option (Fin 63)) (a : Fin 57) (b : SOpt) (ac : Fin 16) (esz : Fin 13) (st : Bool) (s : State) : Out :=
  .next (dieEngine (.cpy d a b ac esz st) d a b ac (fun w n =>
    [⟨0, rW, w.getD 1 0, elemAlign esz, some (n * 2 ^ esz.val)⟩, ⟨1, rR, w.getD 2 0, elemAlign esz, some (n * 2 ^ esz.val)⟩]) s)

/-- R224: GATH. -/
def execGath (d : Option (Fin 63)) (a : Fin 57) (b : SOpt) (ac : Fin 16) (esz : Fin 13) (st : Bool) (s : State) : Out :=
  .next (dieEngine (.gath d a b ac esz st) d a b ac (fun w n =>
    [⟨0, rW, w.getD 1 0, elemAlign esz, some (n * 2 ^ esz.val)⟩, ⟨1, rR, w.getD 2 0, elemAlign esz, none⟩,
     ⟨2, rR, w.getD 3 0, 4, some (4 * n)⟩]) s)

/-- R224: SCAT. -/
def execScat (d : Option (Fin 63)) (a : Fin 57) (b : SOpt) (ac : Fin 16) (esz : Fin 13) (st : Bool) (red : Option AOp)
    (s : State) : Out :=
  .next (dieEngine (.scat d a b ac esz st red) d a b ac (fun w n =>
    [⟨0, if red.isSome then rD else rW, w.getD 1 0, elemAlign esz, none⟩,
     ⟨1, rR, w.getD 2 0, elemAlign esz, some (n * 2 ^ esz.val)⟩, ⟨2, rR, w.getD 3 0, 4, some (4 * n)⟩]) s)

/-- R224, R226: ROUTE. -/
def execRoute (d : Option (Fin 63)) (a : Fin 57) (b : SOpt) (ac : Fin 16) (esz : Fin 13) (st : Bool) (s : State) : Out :=
  .next (dieEngine (.route d a b ac esz st) d a b ac (fun w n =>
    [⟨0, rW, w.getD 1 0, elemAlign esz, none⟩, ⟨1, rR, w.getD 2 0, elemAlign esz, none⟩,
     ⟨2, rR ||| rW, w.getD 3 0, 4, some (4 * n)⟩, ⟨3, rR ||| rA, w.getD 4 0, 4, some (4 * (w.getD 5 0 + 1))⟩]) s)

/-- The size of a CHAIN element. -/
def ChFmt.size : ChFmt → Nat
  | .f32 => 4
  | _ => 2

/-- Whether a chain record's operations read the stream: words up to the first END. -/
def chainStream (ws : List Word) : Bool := ((ws.take 8).takeWhile (fun w => bits w 0 8 != 0)).any (fun w => bit w 8)

/-- The operation words as they stand at issue, where they can be read; they decide whether CX is checked then (log entry
34). -/
def State.chainPeek (s : State) (c : Cap) (off : Nat) : List Word :=
  match (s.pkgRead { who := .eng s.nextRid, die := dieOf s.pane.core, part := s.pane.part } c off 32 false).2 with
  | .ok b => (List.range 8).map (fun k => wordOfNat (ofBytes ((b.drop (4 * k)).take 4)))
  | _ => []

/-- R224, R227: CHAIN. -/
def execChain (d : Option (Fin 63)) (a : Fin 57) (b : SOpt) (ac : Fin 16) (ofmt ifmt : ChFmt) (st : Bool) (s : State) : Out :=
  let w0 := s.pane.sreg a.val
  let stream := chainStream (s.chainPeek (s.pane.creg (descReg w0 2)) (uns (s.pane.sreg (a.val + 3))))
  let si := ChFmt.size ifmt
  let so := ChFmt.size ofmt
  .next (dieEngine (.chain d a b ac ofmt ifmt st) d a b ac (fun w n =>
    [⟨0, rW, w.getD 1 0, so, some (n * so)⟩, ⟨1, rR, w.getD 2 0, si, some (n * si)⟩, ⟨2, rR, w.getD 3 0, 64, some 64⟩] ++
      (if stream then [⟨3, rR, w.getD 4 0, si, some (n * si)⟩] else [])) s)

/-! ### Accesses of an element (R224, R229, R232) -/

def ECmd.cap (c : ECmd) (k : Nat) : Cap := c.cmd.caps.getD k {}
def ECmd.word (c : ECmd) (k : Nat) : Nat := uns (c.cmd.words.getD k 0)

/-- The element size. -/
def ECmd.esz (c : ECmd) : Nat :=
  match c.cmd.i with
  | .cpy _ _ _ _ z _ => 2 ^ z.val
  | .gath _ _ _ _ z _ => 2 ^ z.val
  | .scat _ _ _ _ z _ _ => 2 ^ z.val
  | .route _ _ _ _ z _ => 2 ^ z.val
  | _ => 4

/-- Whether a command carries .ST. -/
def ECmd.st (c : ECmd) : Bool :=
  match c.cmd.i with
  | .cpy _ _ _ _ _ st => st
  | .gath _ _ _ _ _ st => st
  | .scat _ _ _ _ _ st _ => st
  | .route _ _ _ _ _ st => st
  | .chain _ _ _ _ _ _ st => st
  | _ => false

/-- A command's accesses. -/
def ECmd.via (c : ECmd) : Via := { who := .eng c.cmd.id, die := c.cmd.die, part := c.cmd.part, view := true }

/-- What an access of an element gives: refused or poisoned; not resident, at pages of an object; a write that parks; or it must
wait. -/
inductive ERes (α : Type) where
  | ok (x : α)
  | fail
  | absent (obj : Nat) (pages : List Nat)
  | park
  | wait

/-- The pages of a run that are not resident, and one more. -/
def ERes.more {α : Type} (r : ERes α) (obj page : Nat) : ERes α :=
  match r with
  | .absent _ ps => .absent obj (ps ++ [page])
  | _ => .absent obj [page]

/-- A piece added to a run. -/
def ERes.add (r : ERes (List (Nat × Bool × Nat))) (pa : Nat) (t : Bool) (n : Nat) : ERes (List (Nat × Bool × Nat)) :=
  match r with
  | .ok l => .ok (l ++ [(pa, t, n)])
  | r => r

/-- A write of a run that parks, unless a page of it is absent. -/
def ERes.parks {α : Type} (r : ERes α) : ERes α :=
  match r with
  | .absent o ps => .absent o ps
  | _ => .park

/-- One piece of a run translated (R229, R232, R268, R269): a read over a failed link is refused where the die does not hold the line. -/
def State.engPiece (s : State) (v : Via) (c : Cap) (va n : Nat) (r : ERes (List (Nat × Bool × Nat))) :
    State × ERes (List (Nat × Bool × Nat)) :=
  match s.lookupObj v.die v.part c.obj with
  | (s, none) => (s, .fail)
  | (s, some o) =>
      match s.transObj o v.part 0 va with
      | .refused => (s, .fail)
      | .absent _ => (s, r.more c.obj ((va - o.vbase) / 4096))
      | .migrating pa t => if v.write then (s, r.parks) else (s, r.add pa t n)
      | .ok pa t =>
          if v.write && !t && s.pathFailed v.die (pa / 2 ^ 36) then (s, .fail)
          else
            match (if t then none else o.ext (va - o.vbase)) with
            | none => (s, r.add pa t n)
            | some e =>
                if v.write then
                  match s.dupWrite v.part c.obj o e (va - o.vbase) with
                  | (s, true) => (s, r.add pa t n)
                  | (s, false) => (s, r.parks)
                else (s, r.add ((s.dupRead v.die v.part c.obj o e (va - o.vbase) pa).getD pa) t n)

/-- A run of bytes of a capability translated: the pieces as physical address, tier and length. -/
def State.engRun (s : State) (v : Via) (c : Cap) (off n : Nat) : State × ERes (List (Nat × Bool × Nat)) :=
  if c.len < off + n then (s, .fail)
  else
    (s.objCuts v c.obj (c.base + off) n).foldl (fun (acc : State × ERes (List (Nat × Bool × Nat))) cut =>
      match acc.2 with
      | .fail | .wait => acc
      | r => acc.1.engPiece v c (c.base + off + cut.1) cut.2 r) (s, .ok [])

/-- The lines of a run are replaced first after an access with .ST (R219, R221). -/
def State.engMark (s : State) (c : ECmd) (l : List (Nat × Bool × Nat)) : State :=
  if !c.st then s
  else l.foldl (fun s x => (lineCuts x.1 x.2.2).foldl (fun s k => s.markFirst c.cmd.die (lineId (x.1 + k.1) x.2.1) true) s) s

/-- Bytes read through the die's view. -/
def State.engRead (s : State) (c : ECmd) (k off n : Nat) : State × ERes (List Byte) :=
  match s.engRun c.via (c.cap k) off n with
  | (s, .fail) => (s, .fail)
  | (s, .wait) | (s, .park) => (s, .wait)
  | (s, .absent o ps) => (s, .absent o ps)
  | (s, .ok l) =>
      let r := l.foldl (fun (acc : State × ERes (List Byte)) x =>
        match acc.2 with
        | .ok b =>
            match acc.1.dieRead c.via c.bad x.1 x.2.2 x.2.1 with
            | (s, .wait) => (s, .wait)
            | (s, .fail _) => (s, .fail)
            | (s, .ok y) => (s, .ok (b ++ y))
        | _ => acc) (s, .ok [])
      (r.1.engMark c l, r.2)

/-- Bytes written, or an operation performed, at their homes. -/
def State.engPut (s : State) (c : ECmd) (l : List (Nat × Bool × Nat)) (b : List Byte) (op : Option AOp) : State × ERes Unit :=
  match op, l with
  | none, l =>
      match s.unitWrites c.via (cutTo l b) with
      | (s, true) => (s.engMark c l, .ok ())
      | (s, false) => (s, .fail)
  | some op, l =>
      match s.unitOps c.via .reduction none l (fun old => some (aopBytes op b.length old b)) with
      | (s, some _) => (s.engMark c l, .ok ())
      | (s, none) => (s, .fail)

/-- Whether writes of a command stand in its die's park buffer. -/
def State.engParked (s : State) (c : ECmd) : Bool :=
  s.parkQ.any (fun p => match p.kind with
    | .elem id _ _ _ _ _ => id == c.cmd.id
    | _ => false)

/-- Whether one of them is to the same bytes. -/
def State.engBehind (s : State) (c : ECmd) (off n : Nat) : Bool :=
  s.parkQ.any (fun p => match p.kind with
    | .elem id _ _ o b _ => id == c.cmd.id && overlap o b.length off n
    | _ => false)

/-- Some elements' write or operation: it parks with its data (R268, R269); it stays behind the command's parked writes of the same
bytes (R225). With the park buffer full it waits. -/
def State.engWrite (s : State) (c : ECmd) (is : List Nat) (off : Nat) (b : List Byte) (op : Option AOp) : State × ERes Unit :=
  match s.engRun { c.via with write := true } (c.cap 0) off b.length with
  | (s, .fail) => (s, .fail)
  | (s, .wait) => (s, .wait)
  | (s, .absent o ps) => (s, .absent o ps)
  | (s, .park) =>
      let p : Parked := ⟨c.cmd.die, c.cmd.part, (c.cap 0).obj, .elem c.cmd.id is (c.cap 0) off b op, false⟩
      if s.parkedCount c.cmd.die < 256 then (s.park p, .ok ()) else (s, .wait)
  | (s, .ok l) => if s.engBehind c off b.length then (s, .wait) else s.engPut c l b op

/-- A run of bytes for an access of ROUTE's first phase, which halts while its write is parked. -/
def State.haltRun (s : State) (c : ECmd) (k off n : Nat) : State × ERes (List (Nat × Bool × Nat)) :=
  match s.engRun { c.via with write := true } (c.cap k) off n with
  | (s, .park) => (s.unitPark c.via (c.cap k).obj, .wait)
  | (s, .ok l) => if s.replayWaits c.cmd.die (.unit (.eng c.cmd.id)) then (s, .wait) else (s.unparked (.unit (.eng c.cmd.id)), .ok l)
  | r => r

/-- An operation at the home of four bytes; the old word. -/
def State.engOp (s : State) (c : ECmd) (k off : Nat) (f : List Byte → Option (List Byte)) : State × ERes Nat :=
  match s.haltRun c k off 4 with
  | (s, .fail) => (s, .fail)
  | (s, .wait) | (s, .park) => (s, .wait)
  | (s, .absent o ps) => (s, .absent o ps)
  | (s, .ok l) =>
      match s.unitOps c.via .reduction none l f with
      | (s, none) => (s, .fail)
      | (s, some old) => (s, .ok (ofBytes old))

/-- A token's index word written. -/
def State.engIdxPut (s : State) (c : ECmd) (i x : Nat) : State × ERes Unit :=
  match s.haltRun c 2 (c.word 3 + 4 * i) 4 with
  | (s, .fail) => (s, .fail)
  | (s, .wait) | (s, .park) => (s, .wait)
  | (s, .absent o ps) => (s, .absent o ps)
  | (s, .ok l) => s.engPut c l (toBytes 4 x) none

/-! ### Faults and failures of elements (R229) -/

/-- A command and the state beside it; the flag says that it must wait. -/
abbrev EStep := State × ECmd × Bool

def ECmd.fail (c : ECmd) (i : Nat) : ECmd :=
  { c with failed := if c.failed.contains i then c.failed else c.failed ++ [i], waiting := c.waiting.filter (fun w => w.1 != i) }

def ECmd.failAll (c : ECmd) (is : List Nat) : ECmd := is.foldl (fun c i => c.fail i) c

/-- A faulting element waits on each of its pages; one that was replayed fails; with no room in the tag table the chunk
waits (R388). -/
def engFault (s : State) (c : ECmd) (i obj : Nat) (pages : List Nat) (replay : Bool) : EStep :=
  if replay then (s, c.fail i, false)
  else pages.foldl (fun (acc : EStep) g =>
    match acc.1.sendPage c.cmd.part obj g (.blk c.cmd.die (clusterOf c.cmd.core)) with
    | (s, some t) => (s, { acc.2.1 with waiting := acc.2.1.waiting ++ [(i, t)] }, acc.2.2)
    | (s, none) => (s, acc.2.1, true)) (s, c, false)

/-- What follows an access of element i. -/
def thenElem {α : Type} (c : ECmd) (i : Nat) (replay : Bool) (r : State × ERes α) (k : State → α → EStep) : EStep :=
  match r with
  | (s, .ok x) => k s x
  | (s, .fail) => (s, c.fail i, false)
  | (s, .absent o ps) => engFault s c i o ps replay
  | (s, .wait) | (s, .park) => (s, c, true)

/-- The same for the elements of one request. -/
def thenElems {α : Type} (c : ECmd) (is : List Nat) (replay : Bool) (r : State × ERes α) : EStep :=
  match r with
  | (s, .ok _) => (s, c, false)
  | (s, .fail) => (s, c.failAll is, false)
  | (s, .absent o ps) => is.foldl (fun (acc : EStep) i =>
      let r := engFault acc.1 acc.2.1 i o ps replay
      (r.1, r.2.1, acc.2.2 || r.2.2)) (s, c, false)
  | (s, .wait) | (s, .park) => (s, c, true)

/-! ### Elements (R224, R225, R227) -/

/-- CPY's element. -/
def cpyElem (s : State) (c : ECmd) (i : Nat) (replay : Bool) : EStep :=
  let e := c.esz
  thenElem c i replay (s.engRead c 1 (c.word 2 + i * e) e) (fun s b =>
    thenElems c [i] replay (s.engWrite c [i] (c.word 1 + i * e) b none))

/-- The index of element i. -/
def State.engIdx (s : State) (c : ECmd) (i : Nat) : State × ERes (List Byte) := s.engRead c 2 (c.word 3 + 4 * i) 4

/-- GATH's element. -/
def gathElem (s : State) (c : ECmd) (i : Nat) (replay : Bool) : EStep :=
  let e := c.esz
  let put := fun (s : State) (b : List Byte) => thenElems c [i] replay (s.engWrite c [i] (c.word 1 + i * e) b none)
  thenElem c i replay (s.engIdx c i) (fun s x =>
    if ofBytes x = 0xFFFFFFFF then put s (List.replicate e 0)
    else thenElem c i replay (s.engRead c 1 (c.word 2 + ofBytes x * e) e) put)

/-- One operation of a chain on x; `b` is its operand (R227). -/
def chainOp (code : Nat) (x b : Word) : Word :=
  match code with
  | 1 => (faddVal false .rn x b).1
  | 2 => (fmulVal false .rn x b).1
  | 3 => (fminmaxVal false true x b).1
  | 4 => (fminmaxVal false false x b).1
  | 5 => (sfnVal false .exp2 x).1
  | 6 => (sfnVal false .log2 x).1
  | 7 => (sfnVal false .rcp x).1
  | 8 => (sfnVal false .rsq x).1
  | 9 => (sfnVal false .sqrt x).1
  | 10 => (sfnVal false .tanh x).1
  | 11 => (sfnVal false .sig x).1
  | 12 => (sfnVal false .gelu x).1
  | _ => x

/-- The operation words up to the first END. -/
def chainOps (rec : List Word) : List (Nat × Word) :=
  ((List.range 8).map (fun k => (k, rec.getD k 0))).takeWhile (fun o => bits o.2 0 8 != 0)

/-- The result of a chain. -/
def chainVal (rec : List Word) (x stream : Word) : Word :=
  (chainOps rec).foldl (fun x o => chainOp (bits o.2 0 8) x (if bit o.2 8 then stream else rec.getD (8 + o.1) 0)) x

def ChFmt.cvt : ChFmt → CFmt
  | .f32 => .f32
  | .f16 => .f16
  | .bf16 => .bf16

/-- An element's bytes as F32, exactly. -/
def chainIn (f : ChFmt) (b : List Byte) : Word :=
  match f with
  | .f32 => wordOfNat (ofBytes b)
  | f => (cvtVal false .f32 (ChFmt.cvt f) .rn (wordOfNat (ofBytes b))).1

/-- A result's bytes. -/
def chainOut (f : ChFmt) (x : Word) : List Byte :=
  match f with
  | .f32 => toBytes 4 x.toNat
  | f => toBytes 2 (cvtVal false (ChFmt.cvt f) .f32 .rn x).1.toNat

/-- Whether a CHAIN works in place, which is exact (R224). -/
def ECmd.inPlace (c : ECmd) : Bool := c.cap 0 == c.cap 1 && c.word 1 == c.word 2

/-- Whether element j's source has not been read when element i is performed. -/
def ECmd.unread (c : ECmd) (i j : Nat) (replay : Bool) : Bool :=
  j != i && decide (j < c.n) && !c.ahead.any (fun a => a.1 == j) &&
    (c.waiting.any (fun w => w.1 == j) || c.ready.contains j || (if replay then decide (c.next ≤ j) else decide (i < j)))

/-- CHAIN in place: the sources that element i's write covers are read before it; the flag says that one must wait. -/
def chainAhead (so si : Nat) (s : State) (c : ECmd) (i : Nat) (replay : Bool) : EStep :=
  if !c.inPlace then (s, c, false)
  else ((List.range ((so * i + so - 1) / si + 1 - so * i / si)).map (fun k => so * i / si + k)).foldl (fun (acc : EStep) j =>
    if !acc.2.1.unread i j replay then acc
    else
      match acc.1.engRead c 1 (c.word 2 + j * si) si with
      | (s, .ok b) => (s, { acc.2.1 with ahead := acc.2.1.ahead ++ [(j, b)] }, acc.2.2)
      | (s, .wait) => (s, acc.2.1, true)
      | (s, _) => (s, acc.2.1, acc.2.2)) (s, c, false)

/-- CHAIN's element. -/
def chainElem (ofmt ifmt : ChFmt) (s : State) (c : ECmd) (i : Nat) (replay : Bool) : EStep :=
  let si := ChFmt.size ifmt
  let so := ChFmt.size ofmt
  let src : State × ERes (List Byte) := match c.ahead.find? (fun a => a.1 == i) with
    | some a => (s, .ok a.2)
    | none => s.engRead c 1 (c.word 2 + i * si) si
  let put := fun (s : State) (x y : Word) =>
    let (s, c, w) := chainAhead so si s { c with ahead := c.ahead.filter (fun a => a.1 != i) } i replay
    let r := thenElems c [i] replay (s.engWrite c [i] (c.word 1 + i * so) (chainOut ofmt (chainVal c.record x y)) none)
    (r.1, r.2.1, w || r.2.2)
  thenElem c i replay src (fun s b =>
    if chainStream c.record then
      thenElem c i replay (s.engRead c 3 (c.word 4 + i * si) si) (fun s y => put s (chainIn ifmt b) (chainIn ifmt y))
    else put s (chainIn ifmt b) 0)

/-- SCAT: an element's index and bytes, gathered for its chunk's combiner. -/
def scatRead (s : State) (c : ECmd) (i : Nat) (replay : Bool) (acc : List (Nat × Nat × List Byte)) :
    State × ECmd × Bool × List (Nat × Nat × List Byte) :=
  let e := c.esz
  let off := fun {α : Type} (r : State × ERes α) =>
    let x := thenElem c i replay r (fun s _ => (s, c, false))
    (x.1, x.2.1, x.2.2, acc)
  match s.engIdx c i with
  | (s, .ok x) =>
      if ofBytes x = 0xFFFFFFFF then (s, c, false, acc)
      else
        match s.engRead c 1 (c.word 2 + i * e) e with
        | (s, .ok b) => (s, c, false, acc ++ [(i, ofBytes x, b)])
        | r => off r
  | r => off r

/-- SCAT: one request of the combiner: the elements of one destination (R225). -/
def scatSend (red : Option AOp) (s : State) (c : ECmd) (x : Nat) (g : List (Nat × List Byte)) (replay : Bool) : EStep :=
  let off := c.word 1 + x * c.esz
  let is := g.map Prod.fst
  match red, g with
  | _, [] => (s, c, false)
  | none, _ => thenElems c is replay (s.engWrite c is off ((g.getLast?.map Prod.snd).getD []) none)
  | some op, m :: r =>
      let w := fun (b : List Byte) => wordOfNat (ofBytes b)
      let v := r.foldl (fun v k => aopVal op v (w k.2) 0) (w m.2)
      thenElems c is replay (s.engWrite c is off (toBytes 4 v.toNat) (some op))

/-- The elements of one destination taken from a chunk's list, destinations in the order of their first element. -/
def scatGroups : Nat → List (Nat × Nat × List Byte) → List (Nat × List (Nat × List Byte))
  | 0, _ => []
  | _, [] => []
  | n + 1, m :: r =>
      (m.2.1, ((m :: r).filter (fun k => k.2.1 == m.2.1)).map (fun k => (k.1, k.2.2))) ::
        scatGroups n (r.filter (fun k => k.2.1 != m.2.1))

/-- SCAT over some elements. -/
def scatElems (red : Option AOp) (s : State) (c : ECmd) (is : List Nat) (replay : Bool) : EStep :=
  let r := is.foldl (fun (acc : State × ECmd × Bool × List (Nat × Nat × List Byte)) i =>
    let x := scatRead acc.1 acc.2.1 i replay acc.2.2.2
    (x.1, x.2.1, acc.2.2.1 || x.2.2.1, x.2.2.2)) (s, c, false, [])
  (scatGroups r.2.2.2.length r.2.2.2).foldl (fun (acc : EStep) g =>
    let x := scatSend red acc.1 acc.2.1 g.1 g.2 replay
    (x.1, x.2.1, acc.2.2 || x.2.2)) (r.1, r.2.1, r.2.2.1)

/-! ### ROUTE (R226) -/

/-- A token's admission: the row it takes. -/
def routeToken (s : State) (c : ECmd) (i : Nat) (replay : Bool) : EStep :=
  let E := c.word 5
  let C := c.word 6
  let cnt := fun (s : State) (j : Nat) (f : Nat → Option Nat) =>
    s.engOp c 3 (c.word 4 + 4 * j) (fun old => (f (ofBytes old)).map (toBytes 4))
  let put := fun (s : State) (x row : Nat) =>
    thenElem c i replay (s.engIdxPut c i x) (fun s _ => (s, { c with routes := c.routes ++ [(i, row)] }, false))
  thenElem c i replay (s.engIdx c i) (fun s b =>
    let x := ofBytes b
    if x = 0xFFFFFFFF then (s, c, false)
    else if E ≤ x then (s, c.fail i, false)
    else thenElem c i replay (cnt s x (fun n => if n < C then some (n + 1) else none)) (fun s n =>
      if n < C then put s (x * C + n) (x * C + n)
      else thenElem c i replay (cnt s E (fun r => some (r + 1))) (fun s r => put s (2 ^ 31 + r) (E * C + r))))

/-- Phase 1 over the next tokens: it halts at a token that waits on a page or for a parked write, and nothing of that token's step
stays (log entry 79). -/
def routeTokens : Nat → EStep → EStep
  | 0, x => x
  | n + 1, (s, c, w) =>
      if w || decide (c.n ≤ c.next) || c.waiting.any (fun m => m.1 == c.next) then (s, c, w)
      else if c.failed.contains c.next then routeTokens n (s, { c with next := c.next + 1 }, w)
      else
        let i := c.next
        let (s', c', w') := routeToken s { c with ready := c.ready.filter (· != i) } i (c.ready.contains i)
        if w' then ((s.waited s').getD s, c, n == 31)
        else if c'.waiting.any (fun m => m.1 == i) then (s', c', false)
        else routeTokens n (s', { c' with next := i + 1 }, false)

/-- Phase 2: the row of a token. -/
def routeCopy (s : State) (c : ECmd) (i : Nat) (replay : Bool) : EStep :=
  let e := c.esz
  match c.routes.find? (fun r => r.1 == i) with
  | none => (s, c, false)
  | some r => thenElem c i replay (s.engRead c 1 (c.word 2 + i * e) e) (fun s b =>
      thenElems c [i] replay (s.engWrite c [i] (c.word 1 + r.2 * e) b none))

/-! ### Chunks (R225, R228, R229, R359) -/

/-- The elements of a chunk performed in turn. -/
def engElems (f : State → ECmd → Nat → Bool → EStep) (s : State) (c : ECmd) (is : List Nat) (replay : Bool) : EStep :=
  is.foldl (fun (acc : EStep) i =>
    let r := f acc.1 acc.2.1 i replay
    (r.1, r.2.1, acc.2.2 || r.2.2)) (s, c, false)

/-- A command's elements, by its word; a ROUTE's are its rows. -/
def runElems (s : State) (c : ECmd) (is : List Nat) (replay : Bool) : EStep :=
  match c.cmd.i with
  | .cpy _ _ _ _ _ _ => engElems cpyElem s c is replay
  | .gath _ _ _ _ _ _ => engElems gathElem s c is replay
  | .scat _ _ _ _ _ _ red => scatElems red s c is replay
  | .route _ _ _ _ _ _ => engElems routeCopy s c is replay
  | .chain _ _ _ _ o f _ => engElems (chainElem o f) s c is replay
  | _ => (s, c, false)

def ECmd.isRoute (c : ECmd) : Bool :=
  match c.cmd.i with
  | .route _ _ _ _ _ _ => true
  | _ => false

/-- Whether a command is in ROUTE's first phase. -/
def ECmd.phase1 (c : ECmd) : Bool := c.isRoute && decide (c.next < c.n)

/-- The elements of the next chunk: 32 consecutive ones; ROUTE's second phase copies the rows among them. -/
def ECmd.chunk (c : ECmd) : List Nat :=
  let at_ := if c.isRoute then c.sent else c.next
  (List.range (min 32 (c.n - at_))).map (fun k => at_ + k)

/-- The command behind its next chunk. -/
def ECmd.passed (c : ECmd) (k : Nat) : ECmd := if c.isRoute then { c with sent := c.sent + k } else { c with next := c.next + k }

/-- The chunks of a command with a nonzero fault mask. -/
def ECmd.faultChunks (c : ECmd) : List Nat := (c.waiting.map (fun (w : Nat × Nat) => w.1 / 32) ++ c.ready.map (fun i => i / 32)).eraseDups

/-- The chunks of a block with a nonzero fault mask. -/
def Blk.faultChunks (b : Blk) : Nat := (b.cmds.map (fun c => c.faultChunks.length)).foldl (· + ·) 0

/-- The bytes an element reads and writes. -/
def ECmd.elemBytes (c : ECmd) : Nat :=
  match c.cmd.i with
  | .cpy _ _ _ _ _ _ => 2 * c.esz
  | .gath _ _ _ _ _ _ | .scat _ _ _ _ _ _ _ => 4 + 2 * c.esz
  | .route _ _ _ _ _ _ => if c.phase1 then 12 else 2 * c.esz
  | .chain _ _ _ _ o f _ => ChFmt.size o + (if chainStream c.record then 2 else 1) * ChFmt.size f
  | _ => 0

/-- The write of a command that was parked and may go on. -/
def State.engReplay (s : State) (c : ECmd) : Option Parked :=
  (s.replayHead c.cmd.die).bind (fun p => match p.kind with
    | .elem id _ _ _ _ _ => if id = c.cmd.id then some p else none
    | _ => none)

/-- The elements that a step performs. -/
def ECmd.stepElems (c : ECmd) : Nat :=
  if c.phase1 then min 32 (c.n - c.next) else if c.ready.isEmpty then c.chunk.length else 1

/-- Whether a command has requests for its block's port. -/
def ECmd.asks (c : ECmd) : Bool :=
  c.running && c.code == 0 && (if c.phase1 then !(c.waiting.any (fun w => w.1 == c.next)) else !c.ready.isEmpty || !c.chunk.isEmpty)

/-- What a step costs its block's port: what it reads and writes (R359, log entry 33). -/
def State.engCost (s : State) (c : ECmd) : Nat := if (s.engReplay c).isSome then 0 else c.elemBytes * c.stepElems

/-- A parked write replayed (R268): against the new page; it may park again. -/
def State.engAgain (s : State) (c : ECmd) (p : Parked) : EStep :=
  match p.kind with
  | .elem _ is cap off b op =>
      let t := s.unparked p.kind
      (match t.engRun { c.via with write := true } cap off b.length with
        | (t, .park) => (t.park { p with replay := false }, c, false)
        | (t, .ok l) => thenElems c is false (t.engPut c l b op)
        | (t, .fail) => (t, c.failAll is, false)
        | (t, .absent o ps) => thenElems c is false (t, (.absent o ps : ERes Unit))
        | (t, .wait) => (t, c, true))
  | _ => (s, c, false)

/-- One step of a running command: a parked write's replay, ROUTE's tokens, an element's replay alone, or its next chunk. -/
def engRun1 (s : State) (c : ECmd) (faults : Nat) : Option EStep :=
  match s.engReplay c with
  | some p => some (s.engAgain c p)
  | none =>
      if c.phase1 then
        (if c.waiting.any (fun w => w.1 == c.next) || (decide (64 ≤ faults) && c.ready.isEmpty) then none else some (routeTokens 32 (s, c, false)))
      else
        match c.ready.find? (fun i => !c.waiting.any (fun w => w.1 == i)) with
        | some i => some (runElems s { c with ready := c.ready.filter (· != i) } [i] true)
        | none =>
            if c.chunk.isEmpty ∨ 64 ≤ faults then none
            else
              let r := runElems s c c.chunk false
              some (r.1, r.2.1.passed c.chunk.length, r.2.2)

/-- A command of a block replaced. -/
def Blk.put (b : Blk) (c : ECmd) : Blk := { b with cmds := b.cmds.map (fun x => if x.cmd.id = c.cmd.id then c else x) }

/-- Whether a block does anything: it is not hung and its die not frozen. -/
def State.blkLive (s : State) (die b : Nat) : Bool := !(s.blk die b).hung && !(s.die die).frozen

/-- Stripes that a CPY or GATH has filled are written whole (R262). -/
def State.engStripes (s : State) (c : ECmd) : State :=
  match c.cmd.i with
  | .cpy _ _ _ _ _ _ | .gath _ _ _ _ _ _ => (Tab.keys s.bases).foldl (fun s g => s.fullStripes g) s
  | _ => s

/-- The bucket of a block's port. -/
def blockBucket (die blk : Nat) : Nat := 1536 + die * 4 + blk

/-- A chunk that must wait leaves nothing but its page requests and what a ROUTE's halted token parks: the writes that its elements have
parked are its own, and are parked again with the chunk (R225, R268). -/
def State.chunkWaits (s t : State) : Option State :=
  let elems := fun (q : List Parked) => q.filter (fun p => match p.kind with
    | .elem _ _ _ _ _ _ => true
    | _ => false)
  s.waited (if elems t.parkQ = elems s.parkQ then t else { t with parkQ := s.parkQ })

/-- ENGINE_CHUNK: one chunk, or one replay, of a running command, once its requests' cost is paid: what the bucket lacks is paid as it
fills (R359). -/
def State.engineChunk (s : State) (die b : Nat) (turn : ChunkTurn) : Option State :=
  match (s.blk die b).cmds.find? (fun c => c.cmd.id == turn.id) with
  | none => none
  | some c =>
      if !s.blkLive die b || !c.running || c.code != 0 then none
      else
        match engRun1 s { c with bad := turn.bad } (s.blk die b).faultChunks with
        | none => none
        | some (t, _, true) => s.chunkWaits t
        | some (t, c', false) =>
            let bucket := Tab.getD s.buckets (blockBucket die b) 0
            let owed := s.engCost c - c.paid
            if owed ≤ bucket then
              some (({ t with buckets := Tab.set t.buckets (blockBucket die b) (bucket - owed) }.modBlk die b (fun x =>
                x.put { c' with bad := false, paid := 0 })).engStripes c)
            else if bucket = 0 then none
            else some ({ s with buckets := Tab.set s.buckets (blockBucket die b) 0 }.modBlk die b (fun x =>
              x.put { c with paid := c.paid + bucket }))

def execEngineChunk (die blk : Nat) (cmd : ChunkTurn) (s : State) : Out := event s (s.engineChunk die blk cmd)

/-! ### Start and completion (R227, R228) -/

/-- Whether a chain record is valid (R227). -/
def chainOk (rec : List Word) : Bool :=
  (rec.take 8).all (fun w => bits w 9 23 == 0 && decide (bits w 0 8 ≤ 12) && !(bit w 8 && decide (5 ≤ bits w 0 8)))

/-- Whether the stream's capability serves, where the record reads it. -/
def ECmd.streamOk (c : ECmd) (si : Nat) : Bool :=
  let x := c.cap 3
  x.tag && x.key == c.cmd.part && (rR &&& ~~~x.rights == 0) && c.word 4 % si == 0 && decide (c.word 4 + c.n * si ≤ x.len)

/-- The parameters of a ROUTE (log entry 35). -/
def routeOk (E C : Nat) : Bool := decide (1 ≤ E) && decide (E ≤ 65536) && decide (1 ≤ C) && decide (E * C < 2 ^ 31)

/-- The bytes of a command's record, by pages, through the die's view; none in the value where it must wait. -/
def State.engRecord (s : State) (c : ECmd) : State × PRes (List Byte) :=
  andThen (s.pkgPlaces c.via (c.cap 2) (c.word 3) 64 false) (fun s ps =>
    ps.foldl (fun acc p => andThen acc (fun s b =>
      andThen (s.dieRead c.via false p.1 p.2.2 p.2.1) (fun s x => (s, .ok (b ++ x))))) (s, .ok []))

/-- A command starts: CHAIN reads its record, ROUTE its parameters; a bad one ends with code 2, and so does a record that is refused or
poisoned; one at a page that is not resident holds the start behind a page request (DESIGN CHOICE, log entry 34). -/
def State.startCommand (s : State) (c : ECmd) : State × Option ECmd :=
  let bad := { c with running := true, code := 2 }
  match c.cmd.i with
  | .route _ _ _ _ _ _ => (s, some (if routeOk (c.word 5) (c.word 6) then { c with running := true } else bad))
  | .chain _ _ _ _ _ f _ =>
      (match s.engRecord c with
        | (s, .wait) => (s, none)
        | (s, .fail _) => (s.forget c.via.who, some bad)
        | (s, .ok b) =>
            let r16 := (List.range 16).map (fun k => wordOfNat (ofBytes ((b.drop (4 * k)).take 4)))
            (s.forget c.via.who, some (if chainOk r16 && (!chainStream r16 || c.streamOk (ChFmt.size f)) then
              { c with running := true, record := r16 } else bad)))
  | _ => (s, some { c with running := true })

/-- ENGINE_COMMAND_START: the oldest command with elements that has not started, once its fork condition holds and fewer than 8
run. -/
def State.engineStart (s : State) (die b : Nat) : Option State :=
  let x := s.blk die b
  match x.cmds.find? (fun c => !c.running && c.n != 0) with
  | none => none
  | some c =>
      if !s.blkLive die b || decide (8 ≤ (x.cmds.filter (fun c => c.running)).length) || !s.quiet c.cmd.pid c.cmd.mark then none
      else
        match s.startCommand c with
        | (t, some c') => some (t.modBlk die b (fun x => x.put c'))
        | (t, none) => s.waited t

def execEngineCommandStart (die blk : Nat) (s : State) : Out := event s (s.engineStart die blk)

/-- The status destination of a command. -/
def engDst (i : Instr) : Option Nat :=
  match i with
  | .cpy d _ _ _ _ _ => d.map Fin.val
  | .gath d _ _ _ _ _ => d.map Fin.val
  | .scat d _ _ _ _ _ _ => d.map Fin.val
  | .route d _ _ _ _ _ => d.map Fin.val
  | .chain d _ _ _ _ _ _ => d.map Fin.val
  | _ => none

/-- Nothing of a command is left in the park buffers. -/
def State.engForget (s : State) (c : ECmd) : State :=
  let s := s.forget c.via.who
  { s with parkQ := s.parkQ.filter (fun p => match p.kind with
    | .elem id _ _ _ _ _ => id != c.cmd.id
    | _ => true) }

/-- A command completes with a code: the counter, the status pair, the error flag. -/
def State.engEnd (s : State) (die b : Nat) (c : ECmd) (code : Nat) : State :=
  let low := match c.failed.min? with
    | some i => wordOfNat i
    | none => 0xFFFFFFFF
  let st := [wordOfNat (code * 2 ^ 28 + c.failed.length), low]
  let s := (s.engForget c).modPane c.cmd.pid (fun p => if p.place.live then p.sResult (engDst c.cmd.i) st else p)
  (s.modBlk die b (fun x => { x with cmds := x.cmds.filter (fun y => y.cmd.id != c.cmd.id) })).cmdFall c.cmd (code != 0)

/-- Whether every element has been performed or has failed. -/
def ECmd.finished (c : ECmd) : Bool :=
  c.code != 0 || (c.n == 0) || (c.running && decide (c.n ≤ c.next) && c.waiting.isEmpty && c.ready.isEmpty &&
    (!c.isRoute || decide (c.n ≤ c.sent)))

/-- ENGINE_COMMAND_COMPLETE: a frozen die's commands complete, too (R391). -/
def State.engineComplete (s : State) (die b cmd : Nat) : Option State :=
  match (s.blk die b).cmds.find? (fun c => c.cmd.id == cmd) with
  | none => none
  | some c =>
      if (s.blk die b).hung || !c.finished || s.engParked c then none
      else some (s.engEnd die b c (if c.code ≠ 0 then c.code else if c.failed.isEmpty then 0 else 1))

def execEngineCommandComplete (die blk cmd : Nat) (s : State) : Out :=
  event s (s.engineComplete die blk cmd)

/-! ### Hangs and resets (R232) -/

/-- ENGINE_BLOCK_HANG: a block with work and no fault pending completes no chunk for 1 ms; parked writes are no faults (R229). -/
def State.blockHang (s : State) (die b : Nat) : Option State :=
  let x := s.blk die b
  if x.cmds.isEmpty || x.hung || x.faultChunks != 0 || (s.die die).frozen then none
  else some ((s.modBlk die b (fun x => { x with hung := true })).record 0x06 0 die [wordOfNat b, wordOfNat x.cmds.length])

def execEngineBlockHang (die blk : Nat) (s : State) : Out := event s (s.blockHang die blk)

/-- ENGSTAT_RESET: every command of the block completes with code 3; writes already made stay. HUNG clears (DESIGN CHOICE, log
entry 99). -/
def State.blockReset (s : State) (die b : Nat) : State :=
  (s.blk die b).cmds.foldl (fun s c => s.engEnd die b c 3) (s.modBlk die b (fun x => { x with hung := false }))

def execEngstatReset (die blk : Nat) (s : State) : Out := .next (s.blockReset die blk)

end Sys2Proof.Machine
end

