-- ==== Sys2Proof/Machine/Evict.lean ====
section
/-! DEFINITION. Attention mass and eviction: ATMASS, EVICT with its conditional publication, POSRD, the eviction engine (R325
to R337). -/

namespace Sys2Proof.Machine

/-! ### ATMASS (R327) -/

/-- The offset of a token reference's counter (R326). -/
def trefOff (t : Word) : Nat := 512 * bits t 6 26 + 4 * bits t 0 6

/-- R327: ATMASS, a reduction like REDDM.FADD. -/
def execAtmass (d : CReg) (a b : VSrc) (s : State) : Out :=
  let c := s.pane.creg d.val
  memWord true s (fun s =>
    let p := s.pane
    s.startReq ((chkCap p.part c rD d.val).or (chkBounds p.lanes (fun L => decide (trefOff (a.val p L) + 4 ≤ c.len)) d.val))
      { s.mkReq .red .dm 0x7F {} with
        entry := true, obj := c.obj, aop := .fadd,
        lanes := combineLanes .fadd (fun L => c.base + trefOff (a.val p L)) (b.val p) 32 p.lanes }
      (a.stale p || b.stale p))

/-! ### Page lists (R325, R326) -/

structure PageList where
  nextpos : Nat
  tsz     : Nat
  pages   : List (Nat × Nat)
  deriving DecidableEq, Repr

/-- The size of a KV page. -/
def pageSize (tsz : Nat) : Nat := 512 + 64 * tsz

/-- The header of a page list at an offset: NPAGE, TSZ, NEXTPOS. -/
def listHeader (x off len : Nat) : Option (Nat × Nat × Nat) :=
  let np := nbitsOf x 32 32
  let tsz := nbitsOf x 64 32
  if nbitsOf x 16 16 = 0x4B56 ∧ nbitsOf x 0 16 = 0 ∧ nbitsOf x 128 384 = 0 ∧ np ≤ 65536 ∧ tsz % 16 = 0 ∧ 16 ≤ tsz ∧
      tsz ≤ 16384 ∧ off + 64 + 8 * np ≤ len then some (np, tsz, nbitsOf x 96 32) else none

/-- An entry: POFF and COUNT. -/
def listEntry (x tsz len : Nat) : Option (Nat × Nat) :=
  let poff := nbitsOf x 0 40
  let n := nbitsOf x 40 7
  if nbitsOf x 47 17 = 0 ∧ n ≤ 64 ∧ poff % 512 = 0 ∧ poff < 2 ^ 35 ∧ poff + pageSize tsz ≤ len then some (poff, n) else none

/-- The page list at a root: none where it is malformed. -/
def State.pageList (s : State) (v : Via) (c : Cap) (root : Nat) : State × PRes (Option PageList) :=
  if root < c.base ∨ (root - c.base) % 64 ≠ 0 ∨ c.len < root - c.base + 64 then (s, .ok none)
  else
    let off := root - c.base
    andThen (s.pkgRead v c off 64 false) (fun s b =>
      match listHeader (ofBytes b) off c.len with
      | none => (s, .ok none)
      | some (np, tsz, nextpos) =>
          andThen (s.pkgRead v c (off + 64) (8 * np) false) (fun s b =>
            (s, .ok (((List.range np).mapM (fun e => listEntry (ofBytes ((b.drop (8 * e)).take 8)) tsz c.len)).map
              (fun ps => ⟨nextpos, tsz, ps⟩)))))

/-! ### Issue of EVICT and POSRD (R328, R329, R333, R334) -/

/-- The base die whose stack holds a capability's record. -/
def State.evePlace (s : State) (v : Via) (c : Cap) : State × PRes Nat :=
  andThen (s.pkgAt v c 0 true) (fun s p => (s, .ok (p.1 / 2 ^ 36)))

/-- The same at issue; 16 where the record has no place yet: the command comes to its EVE once it has (R334). -/
def State.eveOf (s : State) (v : Via) (c : Cap) : Nat :=
  match (s.evePlace v c).2 with
  | .ok g => g
  | _ => 16

def Cmd.isEvict (c : Cmd) : Bool :=
  match c.i with
  | .evict _ _ _ => true
  | _ => false

/-- The base die of a POSRD's EVE. -/
def Req.eve (r : Req) : Nat := r.extra.getD 1 16

/-- Whether a POSRD is still to be performed. -/
def Req.posOpen (r : Req) : Bool := r.kind == .posrd && !r.cancelled && r.lanes.any (fun l => l.stage == .issued)

/-- The commands an EVE holds: EVICTs and POSRDs by number. -/
def State.eveQueue (s : State) (g : Nat) : List Nat :=
  ((Tab.vals s.cmds).filter (fun c => c.base == g && c.isEvict)).map Cmd.id ++
    ((Tab.vals s.reqs).filter (fun r => r.posOpen && r.eve == g)).map Req.rid

def State.eveFull (s : State) (g : Nat) : Bool := decide (g < 16) && decide (64 ≤ (s.eveQueue g).length)

/-- A POSRD's accesses (R267: an engine of the base die). -/
def Req.posVia (r : Req) : Via := { who := .cmd r.rid, die := dieOf r.core, part := r.part, busB := true }

/-- R328, R329: EVICT. -/
def execEvict (d : Option (Fin 63)) (a : Fin 57) (ac : Fin 16) (s : State) : Out :=
  let p := s.pane
  let w := fun k => p.sreg (a.val + k)
  let cr := bits (w 0) 0 5
  let chk := s.chkRec (rR ||| rW ||| rA) 256 cr
  let c := { s.mkCmd (.evict d a ac) (some ac) with caps := [p.creg cr], words := (List.range 8).map w }
  let g := s.eveOf c.viaB (p.creg cr)
  if !s.memMayIssue || bit p.cPend cr then .next (held s)
  else if bits (w 0) 5 27 ≠ 0 ∨ bits (w 3) 5 27 ≠ 0 ∨ w 6 ≠ 0 ∨ w 7 ≠ 0 then .next (takeTrap cOperand s.word s)
  else if chk.isNone ∧ s.eveFull g = true then .next (held s)
  else .next (s.startCmd chk { c with base := g } (sRun (d.map Fin.val) 2))

/-- R333: POSRD. -/
def execPosrd (d : Fin 120) (a : CReg) (b : Fin 119) (ac : Fin 16) (s : State) : Out :=
  memWord true s (fun s =>
    let p := s.pane
    let c := p.creg a.val
    let r := { s.mkReq .posrd .tm 0x7F {} with
      d := some d.val, ac := some ac, obj := c.obj, vbase := c.base, size := 256,
      lanes := mkLanes p (fun _ => c.base) (fun L => toBytes 4 (uns (p.vreg b.val L)) ++ toBytes 4 (uns (p.vreg (b.val + 1) L))) }
    let g := s.eveOf r.posVia c
    if (s.chkRec rR 256 a.val).isNone ∧ s.eveFull g = true then held s
    else s.startReq (s.chkRec rR 256 a.val) { r with extra := [c.len, g] } false)

/-! ### EVICT (R330, R332) -/

/-- Whether a command of an EVE has arrived: the accesses that R273 orders before it are done. -/
def State.eveArrived (s : State) (id : Nat) : Bool :=
  match Tab.find s.cmds id, Tab.find s.reqs id with
  | some c, _ => c.stage != 0 || s.cmdReady c
  | none, some r => s.quiet r.pid r.rid && s.homeDone (s.die (dieOf r.core)).clock
  | none, none => false

/-- The place of a command in the order of arrival at its EVE: its number, or the number it took when it came later. -/
def State.eveOrder (s : State) (id : Nat) : Nat :=
  match Tab.find s.cmds id, Tab.find s.reqs id with
  | some c, _ => max id c.ev.arrival
  | none, some r => max id (r.extra.getD 2 0)
  | none, none => id

/-- Whether a command may run at its EVE: one at a time, in order of arrival; a hung EVE waits (R335); none starts on a frozen die
(R391). -/
def State.eveTurn (s : State) (g id : Nat) (started : Bool) : Bool :=
  !(s.base g).eveHung && (started || (!(s.base g).frozen &&
    (s.eveQueue g).all (fun k => decide (s.eveOrder id ≤ s.eveOrder k) || !s.eveArrived k) &&
    !(Tab.vals s.cmds).any (fun c => c.base == g && c.stage != 0 && c.isEvict)))

/-- A step of an EVICT is done: its accesses' page responses are used up. -/
def State.modEv (s : State) (id stage : Nat) (f : Evict → Evict) : State :=
  (s.forget (.cmd id)).modCmd id (fun c => { c with stage := stage, ev := f c.ev })

/-- An EVICT ends with a code. -/
def State.evictCode (s : State) (id code : Nat) : State := s.modEv id 6 (fun e => { e with code := code })

/-- The EVE's accesses for an EVICT: held at an extent that is not resident or is migrating (R330). -/
def Cmd.eveVia (c : Cmd) : Via := { c.viaB with hold := true }

/-- What an access of an EVICT comes to: the command is held, goes on with a value, or ends with code 5. -/
def State.evictGo {α : Type} (s : State) (c : Cmd) (r : State × PRes α) (k : State → α → State) : Option State :=
  match r with
  | (t, .wait) => s.waited t
  | (t, .ok x) => some (k t x)
  | (t, .fail _) => some (t.evictCode c.id 5)

/-- The codes for which the status counts the survivors. -/
def evictCounts (code : Nat) : Bool := code == 0 || code == 1 || code == 3 || code == 4 || code == 7

/-- R332: the completion. -/
def State.evictDone (s : State) (c : Cmd) (d : Option Nat) : State :=
  let e := c.ev
  let n := if evictCounts e.code then e.keep.length else 0
  let s := s.modBase c.base (fun b =>
    let dead := if e.code = 0 then min (b.deadtok + e.dead) 0xFFFFFFFF else b.deadtok
    { b with evicts := satInc b.evicts, deadtok := dead })
  s.cmdEnd c d [wordOfNat (e.code * 2 ^ 28 + n % 2 ^ 24), if e.code = 0 then e.out else noHandle] (2 ≤ e.code)

/-- The pin is released, where one is held, and the command completes. -/
def State.evictEnd (s : State) (c : Cmd) (d : Option Nat) : Option State :=
  if c.ev.handle = noHandle then some (s.evictDone c d)
  else
    match s.pubUnit c.eveVia (c.cap 0) (.rel c.ev.handle) with
    | .wait t => t
    | .fin t _ _ => some (t.evictDone c d)

/-- The EVE of a record that had no place at issue: the command arrives now (R334). -/
def State.evictPlace (s : State) (c : Cmd) : Option State :=
  match s.evePlace c.eveVia (c.cap 0) with
  | (t, .wait) => s.waited t
  | (t, .fail _) => some (t.evictCode c.id 2)
  | (t, .ok g) => if t.eveFull g then none
      else some { t.modCmd c.id (fun c => { c with base := g, ev := { c.ev with arrival := t.nextRid } }) with nextRid := t.nextRid + 1 }

/-- Stage 0: the pin and the page list. -/
def State.evictPin (s : State) (c : Cmd) : Option State :=
  match s.pubUnit c.eveVia (c.cap 0) .pin with
  | .wait t => t
  | .fin t ws err =>
      if err || ws.getD 0 0 == noHandle then some (t.evictCode c.id 2)
      else
        let root := uns (ws.getD 1 0) + uns (ws.getD 2 0) * 2 ^ 32
        some (t.modEv c.id 1 (fun e => { e with handle := ws.getD 0 0, root := root, listed := false }))

/-- Stage 1 begins: the page list of the pinned version. -/
def State.evictList (s : State) (c : Cmd) : Option State :=
  s.evictGo c (s.pageList c.eveVia (c.cap 0) c.ev.root) (fun t l =>
    match l with
    | none => t.evictCode c.id 2
    | some l => t.modEv c.id 1 (fun e => { e with listed := true, pages := l.pages, tsz := l.tsz, nextpos := l.nextpos }))

/-- Whether a token is dead. -/
def tokenDead (thresh window : Word) (nextpos : Nat) (m p : Word) : Bool :=
  (fcondHolds false .lt m thresh).1 && decide (uns p + uns window < nextpos)

/-- Stage 1: one slot's mass and position; a read each. -/
def State.evictScan (s : State) (c : Cmd) (poff slot : Nat) : Option State :=
  let e := c.ev
  let count := (e.pages.getD e.k (0, 0)).2
  s.evictGo c (andThen (s.pkgRead c.eveVia (c.cap 0) (poff + 4 * slot) 4 false) (fun t m =>
      andThen (t.pkgRead c.eveVia (c.cap 0) (poff + 256 + 4 * slot) 4 false) (fun t p => (t, .ok (m, p)))))
    (fun t x =>
      let m := wordOfNat (ofBytes x.1)
      let p := wordOfNat (ofBytes x.2)
      (t.modEv c.id 1 (fun e =>
        let e := if tokenDead (c.word 1) (c.word 2) e.nextpos m p then { e with dead := e.dead + 1 }
          else { e with keep := e.keep ++ [(poff, slot, m, p)] }
        if slot + 1 < count then e else { e with k := e.k + 1 })).modCmd c.id (fun c =>
          { c with aux := [if slot + 1 < count then slot + 1 else 0] }))

/-- The pages a compaction needs, the bytes of its page list, the bytes in all. -/
def evictPages (n : Nat) : Nat := (n + 63) / 64
def evictListLen (n : Nat) : Nat := 512 * ((64 + 8 * evictPages n + 511) / 512)
def evictNeed (n tsz : Nat) : Nat := evictListLen n + evictPages n * pageSize tsz

/-- Whether two runs of bytes meet. -/
def meet (a n b m : Nat) : Bool := decide (a < b + m) && decide (b < a + n)

/-- The code that stops a compaction before it writes; none where it goes on. -/
def evictCheck (c : Cmd) : Option Nat :=
  let e := c.ev
  let out := uns (c.word 4)
  let need := evictNeed e.keep.length e.tsz
  if e.dead = 0 then some 1
  else if out % 512 ≠ 0 then some 2
  else if uns (c.word 5) < need || decide ((c.cap 0).len < out + need) || meet out need 0 256 ||
      meet out need (e.root - (c.cap 0).base) (64 + 8 * e.pages.length) || e.pages.any (fun p => meet out need p.1 (pageSize e.tsz)) then
    some 3
  else none

/-- R330: a decayed mass. -/
def decay (m : Word) (k : Nat) : Word :=
  match unpack32 false m with
  | .nan _ _ => 0x7FC00000
  | .inf _ => m
  | .fin s x e => wordOfNat (roundDy F32 .rn false s (signed s x) (e - k)).1

/-- The offset of an output page. -/
def evictPage (c : Cmd) (k : Nat) : Nat := uns (c.word 4) + evictListLen c.ev.keep.length + k * pageSize c.ev.tsz

/-- Writes of one step of a command, in turn. -/
def State.evictWrite (s : State) (c : Cmd) (ws : List (Nat × List Byte)) : State × PRes Unit :=
  ws.foldl (fun acc w => andThen acc (fun s _ => s.pkgWrite c.eveVia (c.cap 0) w.1 w.2 false)) (s, .ok ())

/-- Stage 3: one survivor written to its new slot. -/
def State.evictCopy (s : State) (c : Cmd) (k : Nat) (x : Nat × Nat × Word × Word) : Option State :=
  let e := c.ev
  let pg := evictPage c (k / 64)
  let sl := k % 64
  s.evictGo c (andThen (s.pkgRead c.eveVia (c.cap 0) (x.1 + 512 + x.2.1 * e.tsz) e.tsz false) (fun t b =>
      t.evictWrite c [(pg + 512 + sl * e.tsz, b), (pg + 256 + 4 * sl, toBytes 4 (uns x.2.2.2)),
        (pg + 4 * sl, toBytes 4 (uns (decay x.2.2.1 (bits (c.word 3) 0 5))))]))
    (fun t _ => t.modEv c.id 3 (fun e => { e with k := e.k + 1 }))

/-- Stage 4: the unused slots of the last page, and the page list. -/
def State.evictFinish (s : State) (c : Cmd) : Option State :=
  let e := c.ev
  let n := e.keep.length
  let np := evictPages n
  let last := evictPage c (np - 1)
  let free := if n % 64 = 0 then [] else
    [(last + 4 * (n % 64), List.replicate (4 * (64 - n % 64)) 0), (last + 256 + 4 * (n % 64), List.replicate (4 * (64 - n % 64)) 0xFF)]
  let head := toBytes 64 (0x4B56 * 2 ^ 16 + np * 2 ^ 32 + e.tsz * 2 ^ 64 + e.nextpos * 2 ^ 96)
  let ents := ((List.range np).map (fun i =>
    toBytes 8 (evictPage c i + (if i + 1 = np then n - 64 * (np - 1) else 64) * 2 ^ 40))).flatten
  s.evictGo c (s.evictWrite c (free ++ [(uns (c.word 4), head ++ ents)])) (fun t _ => t.modEv c.id 5 (fun e => e))

/-- EVICT_PERFORM: the next step of the EVE's command. -/
def State.evictStep (s : State) (id : Nat) : Option State :=
  match Tab.find s.cmds id with
  | none => none
  | some c =>
      match c.i with
      | .evict d _ _ =>
          (match c.stage with
            | 0 =>
                if !s.cmdReady c then none
                else if s.cmdRefused c then some (s.evictCode id 5)
                else if c.base = 16 then s.evictPlace c
                else if s.eveTurn c.base id false then s.evictPin c
                else none
            | n =>
                if !s.eveTurn c.base id true then none
                else
                  (match n with
                    | 1 =>
                        if !c.ev.listed then s.evictList c
                        else (match c.ev.pages[c.ev.k]? with
                          | some (poff, n) =>
                              if n = 0 then some (s.modEv id 1 (fun e => { e with k := e.k + 1 })) else s.evictScan c poff (c.aux.getD 0 0)
                          | none => some (match evictCheck c with
                              | some code => s.evictCode id code
                              | none => s.modEv id 3 (fun e => { e with k := 0 })))
                    | 3 =>
                        (match c.ev.keep[c.ev.k]? with
                          | some x => s.evictCopy c c.ev.k x
                          | none => some (s.modEv id 4 (fun e => e)))
                    | 4 => s.evictFinish c
                    | 6 => s.evictEnd c (d.map Fin.val)
                    | _ => none))
      | _ => none

def execEvictPerform (cmd : Nat) (s : State) : Out := event s (s.evictStep cmd)

/-- CONDITIONAL_PUBLICATION (R331): after every write has been performed; released at .SYS. -/
def State.condPublish (s : State) (id : Nat) : Option State :=
  match Tab.find s.cmds id with
  | none => none
  | some c =>
      if c.stage ≠ 5 ∨ s.quietSys c.pid c.mark = false ∨ s.eveTurn c.base id true = false then none
      else
        match s.pubUnit c.eveVia (c.cap 0) (.cond c.ev.handle ((c.cap 0).base + uns (c.word 4))) with
        | .wait t => t
        | .fin t ws _ => some (t.modEv id 6 (fun e => { e with code := uns (ws.getD 0 0), out := ws.getD 1 noHandle }))

def execConditionalPublication (cmd : Nat) (s : State) : Out := event s (s.condPublish cmd)

/-! ### POSRD (R333) -/

/-- What one lane of a POSRD comes to: held, a word (with the ENGINE flag), or a failure. -/
inductive PosLane where
  | wait
  | word (w : Word) (eng : Bool)
  | fail (c : Cause)
  | all (c : Cause)

/-- One lane. -/
def State.posLane (s : State) (r : Req) (c : Cap) (rec? : Option PubRec) (l : Lane) : State × PosLane :=
  let h := wordOfNat (ofBytes (l.data.take 4))
  let k := ofBytes (l.data.drop 4)
  match rec? with
  | none => (s, .word poisonWord true)
  | some p =>
      let x := p.slot (hSlot h)
      if x.st ≠ 1 ∨ x.ver ≠ hVer h then (s, .word poisonWord true)
      else
        match s.pageList r.posVia c x.root with
        | (s, .wait) => (s, .wait)
        | (s, .fail e) => (s, .all e)
        | (s, .ok none) => (s, .word poisonWord true)
        | (s, .ok (some pl)) =>
            (match pl.pages[k / 64]? with
              | none => (s, .word 0xFFFFFFFF false)
              | some (poff, n) =>
                  if n ≤ k % 64 then (s, .word 0xFFFFFFFF false)
                  else
                    match s.pkgRead r.posVia c (poff + 256 + 4 * (k % 64)) 4 false with
                    | (s, .wait) => (s, .wait)
                    | (s, .ok b) => (s, .word (wordOfNat (ofBytes b)) false)
                    | (s, .fail e) => (s, .fail e))

/-- A lane with its result. -/
def posLand (l : Lane) (w : Word) : Lane := { l with stage := .landed, got := toBytes 4 (uns w), again := false }

/-- Every lane; none where one is held. A failure of the record or of a page list fails every active lane. -/
def State.posLanes (s : State) (r : Req) (c : Cap) (p : Option PubRec) : Except State (State × List Lane × Bool) :=
  r.lanes.foldl (fun (acc : Except State (State × List Lane × Bool)) l =>
    match acc with
    | .error t => .error t
    | .ok (s, ls, eng) =>
        match s.posLane r c p l with
        | (s, .wait) => .error s
        | (s, .word w e) => .ok (s, ls ++ [posLand l w], eng || e)
        | (s, .fail x) => .ok (s, ls ++ [{ l with stage := .failed x, again := false }], eng)
        | (s, .all x) => .ok (s, ls ++ [{ l with stage := .failed x, again := true }], eng)) (.ok (s, [], false))

/-- The failure of a page list fails every active lane. -/
def posSpread (ls : List Lane) : List Lane :=
  match ls.find? (fun l => l.again) with
  | some x => ls.map (fun l => { l with stage := x.stage, again := false })
  | none => ls

/-- The EVE of a POSRD whose record had no place at issue, or that a restore replays: it arrives now (R334). -/
def State.posPlace (s : State) (r : Req) (c : Cap) : Option State :=
  match s.evePlace r.posVia c with
  | (t, .wait) => s.waited t
  | (t, .fail e) => some (t.failReq r e)
  | (t, .ok g) => if t.eveFull g then none
      else some { t.modReq r.rid (fun r => { r with extra := [r.extra.getD 0 0, g, t.nextRid] }) with nextRid := t.nextRid + 1 }

/-- POSRD_PERFORM. -/
def State.posrd (s : State) (rid : Nat) : Option State :=
  match Tab.find s.reqs rid with
  | none => none
  | some r =>
      let c : Cap := ⟨true, BitVec.ofNat 128 (r.vbase + r.extra.getD 0 0 * 2 ^ 56 + r.part * 2 ^ 104 + r.obj * 2 ^ 112)⟩
      if !r.posOpen || r.lanes.any (fun l => l.stage != .issued) || !s.eveArrived rid then none
      else
        match s.leavePort r with
        | none => none
        | some (s1, r1) =>
            let r := r1
            if s1.stopFailed r.core then some (s1.failReq r .refused)
            else if r.eve = 16 then s1.posPlace r c
            else if !s1.eveTurn r.eve rid false then none
            else
            match s1.pkgRead r.posVia c 0 256 true with
            | (t, .wait) => s.waited t
            | (t, .ok b) =>
                (match t.posLanes r c (PubRec.parse (ofBytes b) c.len) with
                  | .error t => s.waited t
                  | .ok (t, ls, eng) => some (t.landReq r (posSpread ls) (eng && !(ls.any (fun l => l.again)))))
            | (t, .fail e) => some (t.failReq r e)

def execPosrdPerform (rid : Nat) (s : State) : Out := event s (s.posrd rid)

/-! ### Hangs and resets (R335) -/

/-- EVE_HANG: a queued command, none completed for 1 ms; not while frozen (R391). -/
def State.eveHang (s : State) (g : Nat) : Option State :=
  if (s.eveQueue g).isEmpty || (s.base g).eveHung || (s.base g).frozen then none
  else some ((s.modBase g (fun b => { b with eveHung := true })).record 0x06 0 (64 + g)
    [wordOfNat g, wordOfNat (s.eveQueue g).length])

def execEveHang (base : Nat) (s : State) : Out := event s (s.eveHang base)

/-- A queued command of a reset EVE: an EVICT completes with code 6 once its pin is released; a POSRD gets poison. -/
def State.eveDrop (s : State) (id : Nat) : State :=
  match Tab.find s.cmds id with
  | some c =>
      let s := s.evictCode id 6
      let c := { c with stage := 6, ev := { c.ev with code := 6 } }
      (match c.i with
        | .evict d _ _ => (s.evictEnd c (d.map Fin.val)).getD s
        | _ => s)
  | none => s.modReq id (fun r => { r with tag := true, lanes := r.lanes.map (fun l => posLand l poisonWord) })

/-- EVE_RESET. -/
def State.eveReset (s : State) (g : Nat) : State :=
  ((s.eveQueue g).foldl (fun s id => s.eveDrop id) s).modBase g (fun b => { b with eveHung := false })

def execEveReset (base : Nat) (s : State) : Out := .next (s.eveReset base)

end Sys2Proof.Machine
end

