-- ==== Sys2Proof/Machine/RayMath.lean ====
section
/-! DEFINITION. The arithmetic of rays, in exact rationals: rounding a quotient, the box test and the triangle test (R301 to
R303). -/

namespace Sys2Proof.Machine

/-- A nonnegative quotient p / q rounded to a format (RN), with a sign. -/
def roundQ (f : Fmt) (neg : Bool) (p q : Nat) : Nat :=
  if p = 0 then f.signPat neg
  else
    let k := 64 + Nat.log2 q - Nat.log2 p
    let m := p * 2 ^ k / q
    (roundFin f .rn false neg (2 * m + (if p * 2 ^ k % q = 0 then 0 else 1)) (-(k : Int) - 1)).1

/-- A finite F32 as a multiple of 2^-149. -/
def fix32 (x : Word) : Int :=
  match unpack32 false x with
  | .fin s m e => signed s (m * 2 ^ (e + 149).toNat)
  | _ => 0

def isFin32 (x : Word) : Bool :=
  match unpack32 false x with
  | .fin _ _ _ => true
  | _ => false

def isNan32 (x : Word) : Bool := (unpack32 false x).isNan

/-- The order of F32 values that are no NaN. -/
def lt32 (x y : Word) : Bool := lessNum false (unpack32 false x) (unpack32 false y)

/-! ### Three-vectors -/

structure V3 where
  x : Int
  y : Int
  z : Int
  deriving DecidableEq, Repr

def V3.sub (a b : V3) : V3 := ⟨a.x - b.x, a.y - b.y, a.z - b.z⟩
def V3.cross (a b : V3) : V3 := ⟨a.y * b.z - a.z * b.y, a.z * b.x - a.x * b.z, a.x * b.y - a.y * b.x⟩
def V3.dot (a b : V3) : Int := a.x * b.x + a.y * b.y + a.z * b.z
def V3.of (a b c : Word) : V3 := ⟨fix32 a, fix32 b, fix32 c⟩

/-! ### Boxes (R302) -/

/-- A lower bound and an upper bound on t from one axis, as fractions with a positive denominator; none: no t at all. A
bound that is absent does not bound. -/
def slab (o d lo hi : Word) : Option (Option (Int × Int) × Option (Int × Int)) :=
  let D := fix32 d
  let at_ := fun (w : Word) => if isFin32 w then
      some (if D < 0 then (fix32 o - fix32 w, -D) else (fix32 w - fix32 o, D)) else none
  let above := fun (w : Word) => isFin32 w || w == 0x7F800000
  let below := fun (w : Word) => isFin32 w || w == 0xFF800000
  if !below lo || !above hi then none
  else if D = 0 then
    (if (isFin32 lo && decide (fix32 o < fix32 lo)) || (isFin32 hi && decide (fix32 hi < fix32 o)) then none
     else some (none, none))
  else if D < 0 then some (at_ hi, at_ lo) else some (at_ lo, at_ hi)

/-- The larger of two fractions. -/
def maxQ (a b : Int × Int) : Int × Int := if a.1 * b.2 < b.1 * a.2 then b else a

/-- Whether some t with TMIN ≤ t and Round(t) ≤ TMAX puts the ray into the box; the ray as its eight words. -/
def boxExact (ray box : List Word) : Bool :=
  let w := fun k => ray.getD k 0
  let b := fun k => box.getD k 0
  if !isFin32 (w 3) then false
  else match slab (w 0) (w 4) (b 0) (b 3), slab (w 1) (w 5) (b 1) (b 4), slab (w 2) (w 6) (b 2) (b 5) with
  | some x, some y, some z =>
      let t := [x.1, y.1, z.1].foldl (fun (m : Int × Int) q => match q with
        | some q => maxQ m q
        | none => m) (fix32 (w 3), 2 ^ 149)
      [x.2, y.2, z.2].all (fun q => match q with
        | some q => decide (t.1 * q.2 ≤ q.1 * t.2)
        | none => true) &&
        !lt32 (w 7) (wordOfNat (roundQ F32 (decide (t.1 < 0)) t.1.natAbs t.2.natAbs))
  | _, _, _ => false

/-- R302: the box test. -/
def boxHit (ray box : List Word) : Bool :=
  if box.any isNan32 then true
  else if (List.range 3).any (fun a => lt32 (box.getD (a + 3) 0) (box.getD a 0)) then false
  else boxExact ray box || Config.boxExtra ray box

/-- The entry distance. -/
def boxNear (ray box : List Word) : Nat := if box.any isNan32 then (ray.getD 3 0).toNat else Config.boxNear ray box

/-! ### Triangles (R303) -/

/-- A candidate: t, u and v as fractions over one positive denominator, and whether the ray meets the back. -/
structure TriHit where
  den  : Nat
  t    : Nat
  u    : Nat
  v    : Nat
  back : Bool
  deriving DecidableEq, Repr

/-- The candidate a triangle of nine words gives a ray, if any. -/
def triTest (ray tri : List Word) : Option TriHit :=
  let w := fun k => ray.getD k 0
  let p := fun k => V3.of (tri.getD (3 * k) 0) (tri.getD (3 * k + 1) 0) (tri.getD (3 * k + 2) 0)
  if !(tri.take 9).all isFin32 || !isFin32 (w 3) then none
  else
    let o := V3.of (w 0) (w 1) (w 2)
    let d := V3.of (w 4) (w 5) (w 6)
    let e1 := (p 1).sub (p 0)
    let e2 := (p 2).sub (p 0)
    let h := d.cross e2
    let det := e1.dot h
    let so := o.sub (p 0)
    let q := so.cross e1
    let sg := fun (x : Int) => if det < 0 then -x else x
    let u := sg (so.dot h)
    let v := sg (d.dot q)
    let t := sg (e2.dot q)
    let n := sg det
    if det = 0 ∨ u < 0 ∨ v < 0 ∨ n < u + v ∨ t < 0 ∨ t * 2 ^ 149 < fix32 (w 3) * n then none
    else some ⟨n.toNat, t.toNat, u.toNat, v.toNat, decide (det < 0)⟩

/-- R301. -/
def rayInvalid (ray : List Word) : Bool :=
  let w := fun k => ray.getD k 0
  !([w 0, w 1, w 2, w 4, w 5, w 6].all isFin32) || ([w 4, w 5, w 6].all (fun x => fix32 x == 0)) ||
    isNan32 (w 3) || lt32 (w 3) 0 || isNan32 (w 7) || lt32 (w 7) (w 3)

end Sys2Proof.Machine
end

