-- ==== Sys2Proof/Machine/Filter.lean ====
section
/-! DEFINITION. The filtering units: texture and hash-grid requests performed beside memory (R316 to R324). -/

namespace Sys2Proof.Machine

/-! ### Weighted sums -/

/-- The weighted sum of values of a format, rounded: the weights over 2^wl, the whole over `den` (R319, R321). -/
def weighSum (fin fout : Fmt) (den wl : Nat) (ts : List (Nat × Nat)) : Nat :=
  let vs := ts.map (fun (t : Nat × Nat) => (t.1, unpack fin false t.2))
  let infs := vs.filterMap (fun v => match v.2 with
    | .inf s => some s
    | _ => none)
  if vs.any (fun v => v.2.isNan) || (infs.contains true && infs.contains false) then fout.nanPat
  else if infs.contains true then fout.infPat true
  else if infs.contains false then fout.infPat false
  else
    let x := vs.foldl (fun (n : Int) v => match v.2 with
      | .fin s m e => n + v.1 * signed s (m * 2 ^ (e + 149).toNat)
      | _ => n) 0
    let neg0 := vs.all (fun v => match v.2 with
      | .fin s _ _ => s
      | _ => false)
    roundQ fout (if x = 0 then neg0 && !vs.isEmpty else decide (x < 0)) x.natAbs (den * 2 ^ (149 + wl))

/-- The same for unsigned bytes, each standing for b / 255. -/
def weighBytes (wl : Nat) (ts : List (Nat × Nat)) : Nat :=
  roundQ F32 false (ts.foldl (fun n t => n + t.1 * t.2) 0) (255 * 2 ^ wl)

/-! ### Reads of the FLT (R316, R322) -/

/-- What a read beside memory gives: it is held, outside the extent, fails, or bytes. -/
inductive FRead where
  | wait
  | outside
  | fail (c : Cause)
  | ok (b : List Byte)

/-- The FLT's accesses for a request: held at an extent that is not resident or is migrating. -/
def Req.fltVia (r : Req) : Via := { who := .cmd r.rid, die := dieOf r.core, part := r.part, hold := true, busB := true, home := true }

/-- The capability of a request, of a length. -/
def Req.fltCap (r : Req) (len : Nat) : Cap := ⟨true, BitVec.ofNat 128 (r.vbase + len * 2 ^ 56 + r.part * 2 ^ 104 + r.obj * 2 ^ 112)⟩

/-- Bytes of the object at an offset from the capability's BASE, in tier-0 extents of a stack. -/
def State.fltRead (s : State) (r : Req) (len stack off n : Nat) : State × FRead :=
  if len < off + n then (s, .outside)
  else
    match andThen (s.pkgPlaces r.fltVia (r.fltCap len) off n true) (fun s ps =>
        if ps.all (fun p => p.1 / 2 ^ 36 == stack) then s.readPlaces r.fltVia ps else (s, .fail .refused)) with
    | (s, .wait) => (s, .wait)
    | (s, .ok b) => (s, .ok b)
    | (s, .fail c) => (s, .fail c)

/-! ### Textures (R317 to R319) -/

structure TexDesc where
  fmt   : Nat
  w     : Nat
  h     : Nat
  pitch : Nat
  toff  : Nat
  deriving DecidableEq, Repr

/-- R318: size and channels of a texel. -/
def texSize (fmt : Nat) : Nat := if fmt = 2 then 8 else 4
def texChans (fmt : Nat) : Nat :=
  match fmt with
  | 0 => 4 | 1 => 2 | 2 => 4 | _ => 1

/-- R317: the descriptor; one with another MAGIC than the table's is invalid too, which the rule's list does not name (DESIGN CHOICE, log
entry 106). -/
def TexDesc.parse (x : Nat) : Option TexDesc :=
  let d : TexDesc := ⟨nbitsOf x 0 3, nbitsOf x 32 16 + 1, nbitsOf x 48 16 + 1, nbitsOf x 64 32, nbitsOf x 96 40⟩
  let z := texSize d.fmt
  if nbitsOf x 3 13 = 0 ∧ nbitsOf x 136 376 = 0 ∧ nbitsOf x 16 16 = 0x5458 ∧ d.fmt < 4 ∧ d.pitch % z = 0 ∧ d.w * z ≤ d.pitch ∧
      d.toff % z = 0 then some d else none

/-- R319: an index brought into a dimension. -/
def texAddr (clamp : Bool) (i : Int) (n : Nat) : Nat :=
  if clamp then (min (max i 0) ((n : Int) - 1)).toNat else (i % (n : Int)).toNat

/-- The terms of a lane: column, row and weight over 2^16. -/
def texTerms (d : TexDesc) (clamp lin : Bool) (u v : Word) : List (Nat × Nat × Nat) :=
  if !lin then [(texAddr clamp (Int.fdiv (fix32 u * d.w) (2 ^ 149)) d.w, texAddr clamp (Int.fdiv (fix32 v * d.h) (2 ^ 149)) d.h, 65536)]
  else
    let split := fun (c : Word) (n : Nat) =>
      let x := 2 * fix32 c * n - 2 ^ 149
      let x0 := Int.fdiv x (2 ^ 150)
      (x0, (Int.fdiv ((x - x0 * 2 ^ 150) * 256) (2 ^ 150)).toNat)
    let x := split u d.w
    let y := split v d.h
    [(0, 0), (1, 0), (0, 1), (1, 1)].filterMap (fun (k : Nat × Nat) =>
      let w := (if k.1 = 1 then x.2 else 256 - x.2) * (if k.2 = 1 then y.2 else 256 - y.2)
      if w = 0 then none else some (texAddr clamp (x.1 + k.1) d.w, texAddr clamp (y.1 + k.2) d.h, w))

/-- One channel of a texel's bytes: its pattern. -/
def texChan (fmt c : Nat) (b : List Byte) : Nat :=
  let z := texSize fmt / texChans fmt
  ofBytes ((b.drop (c * z)).take z)

/-- A result register from the terms' texels. -/
def texResult (fmt c : Nat) (ts : List (Nat × List Byte)) : Word :=
  if texChans fmt ≤ c then 0
  else
    let xs := ts.map (fun t => (t.1, texChan fmt c t.2))
    wordOfNat (match fmt with
      | 0 => weighBytes 16 xs
      | 3 => (match xs with
          | [(65536, x)] => (roundNum F32 .rn false (unpack F32 false x)).1
          | _ => weighSum F32 F32 1 16 xs)
      | _ => weighSum F16 F32 1 16 xs)

/-- Reads in turn, each with its weight; a texel outside the extent is zeros. -/
def State.fltReads (s : State) (r : Req) (len stack n : Nat) (ts : List (Nat × Nat)) :
    State × Except FRead (List (Nat × List Byte)) :=
  ts.foldl (fun (acc : State × Except FRead (List (Nat × List Byte))) (t : Nat × Nat) =>
    match acc.2 with
    | .error _ => acc
    | .ok l =>
        match acc.1.fltRead r len stack t.1 n with
        | (s, .ok b) => (s, .ok (l ++ [(t.2, b)]))
        | (s, .outside) => (s, .ok (l ++ [(t.2, List.replicate n 0)]))
        | (s, e) => (s, .error e)) (s, .ok [])

/-- The coordinates of a lane. -/
def coordOf (l : Lane) (k : Nat) : Word := wordOfNat (ofBytes ((l.data.drop (4 * k)).take 4))

/-- A lane of TEX: its result registers. -/
def State.texLane (s : State) (r : Req) (d : TexDesc) (stack : Nat) (l : Lane) : State × Except FRead (List Word) :=
  let n := r.extra.getD 2 1
  let u := coordOf l 0
  let v := coordOf l 1
  if !isFin32 u || !isFin32 v then (s, .ok (List.replicate n 0))
  else
    let ts := texTerms d (r.extra.getD 0 0 == 1) (r.extra.getD 1 0 == 1) u v
    match s.fltReads r (r.extra.getD 3 0) stack (texSize d.fmt)
        (ts.map (fun t => (d.toff + t.2.1 * d.pitch + t.1 * texSize d.fmt, t.2.2))) with
    | (s, .error e) => (s, .error e)
    | (s, .ok xs) => (s, .ok ((List.range n).map (fun c => texResult d.fmt c xs)))

/-! ### Hash grids (R320, R321) -/

structure HgDesc where
  levels : Nat
  f4     : Bool
  tsize  : Nat
  toff   : Nat
  res    : List Nat
  deriving DecidableEq, Repr

def HgDesc.es (d : HgDesc) : Nat := if d.f4 then 8 else 4

/-- R320: the descriptor, for a request of `nlev` levels and a feature width; another MAGIC than the table's is invalid (DESIGN CHOICE, log
entry 106). -/
def HgDesc.parse (x nlev : Nat) (f4 : Bool) : Option HgDesc :=
  let d : HgDesc := ⟨nbitsOf x 0 4 + 1, nbitsOf x 4 1 == 1, nbitsOf x 32 32, nbitsOf x 64 40,
    (List.range 16).map (fun l => nbitsOf x (128 + 16 * l) 16)⟩
  if nbitsOf x 5 11 = 0 ∧ nbitsOf x 104 24 = 0 ∧ nbitsOf x 384 128 = 0 ∧ nbitsOf x 16 16 = 0x4847 ∧ 1 ≤ d.tsize ∧
      d.tsize ≤ 16777216 ∧ d.toff % d.es = 0 ∧ ((d.res.take nlev).all (fun r => r != 0)) = true ∧ nlev ≤ d.levels ∧ d.f4 = f4 then
    some d else none

/-- The corners of a level with their weights over 2^48: entry numbers. -/
def hgCorners (n tsize : Nat) (p : List Word) : List (Nat × Nat) :=
  let ax := p.map (fun w =>
    let s := fix32 w * n
    let i := Int.fdiv s (2 ^ 149)
    (i, (Int.fdiv ((s - i * 2 ^ 149) * 65536) (2 ^ 149)).toNat))
  let a := fun k => ax.getD k (0, 0)
  (List.range 8).filterMap (fun c =>
    let on := fun (k : Nat) => c / 2 ^ k % 2 = 1
    let wt := (List.range 3).foldl (fun w k => w * (if on k then (a k).2 else 65536 - (a k).2)) 1
    let ix := fun (k : Nat) => wordOfInt ((a k).1 + (if on k then 1 else 0))
    if wt = 0 then none
    else some (uns (ix 0 ^^^ (ix 1 * 0x8DA6B343) ^^^ (ix 2 * 0xD8163841)) % tsize, wt))

/-- A lane of HGRID: level by level, two features a register. -/
def State.hgLane (s : State) (r : Req) (d : HgDesc) (stack : Nat) (l : Lane) : State × Except FRead (List Word) :=
  let nlev := r.extra.getD 0 1
  let p := (List.range 3).map (coordOf l)
  let per := if d.f4 then 2 else 1
  if !p.all isFin32 then (s, .ok (List.replicate (nlev * per) 0))
  else
    (List.range nlev).foldl (fun (acc : State × Except FRead (List Word)) lv =>
      match acc.2 with
      | .error _ => acc
      | .ok ws =>
          match acc.1.fltReads r (r.extra.getD 2 0) stack d.es
              ((hgCorners (d.res.getD lv 1) d.tsize p).map (fun c => (d.toff + (lv * d.tsize + c.1) * d.es, c.2))) with
          | (s, .error e) => (s, .error e)
          | (s, .ok xs) =>
              let feat := fun (q : Nat) => weighSum F16 F16 1 48 (xs.map (fun x => (x.1, ofBytes ((x.2.drop (2 * q)).take 2))))
              (s, .ok (ws ++ (List.range per).map (fun k => wordOfNat (feat (2 * k) + feat (2 * k + 1) * 65536))))) (s, .ok [])

/-! ### The request (R316, R322) -/

/-- A lane's registers as the bytes of its reply. -/
def landWords (l : Lane) (ws : List Word) : Lane :=
  { l with stage := .landed, got := (ws.map (fun (w : Word) => toBytes 4 w.toNat)).flatten }

/-- Every lane in turn; none where one is held. -/
def State.fltLanes (s : State) (r : Req) (f : State → Lane → State × Except FRead (List Word)) : Except State (State × List Lane) :=
  r.lanes.foldl (fun (acc : Except State (State × List Lane)) l =>
    match acc with
    | .error t => .error t
    | .ok (s, ls) =>
        match f s l with
        | (s, .ok ws) => .ok (s, ls ++ [landWords l ws])
        | (s, .error (.fail c)) => .ok (s, ls ++ [{ l with stage := .failed c }])
        | (s, .error _) => .error s) (.ok (s, []))

/-- Whether 64 bytes at a capability's BASE lie wholly in one tier-0 extent (R322). -/
def State.oneExtent (s : State) (v : Via) (c : Cap) (ps : List (Nat × Bool × Nat)) : Bool :=
  ps.all (fun p => !p.2.1) && (match (s.lookupObj v.die v.part c.obj).2 with
    | some o => o.extIx (c.base - o.vbase) == o.extIx (c.base + 63 - o.vbase)
    | none => false)

/-- The lanes of a request whose descriptor has been read; none where it is invalid. -/
def State.filterLanes (s : State) (r : Req) (stack : Nat) (b : List Byte) : Option (Except State (State × List Lane)) :=
  if r.kind = .tex then (TexDesc.parse (ofBytes b)).map (fun d => s.fltLanes r (fun s l => s.texLane r d stack l))
  else (HgDesc.parse (ofBytes b) (r.extra.getD 0 1) (r.extra.getD 1 0 == 1)).map (fun d =>
    s.fltLanes r (fun s l => s.hgLane r d stack l))

/-- What the FLT waits for: what the die's clock names at its home (R316), an earlier write or atomic of the pane to the object (R167,
R244), and the replay of a write of the die to it that is parked (R247). -/
def State.fltWaits (s : State) (r : Req) : Bool :=
  !s.homeDone (s.die (dieOf r.core)).clock ||
  (s.paneReqs r.pid).any (fun q => decide (q.rid < r.rid) && q.space == .dm && q.obj == r.obj && q.changes &&
    q.lanes.any (fun k => !k.stage.ordered || (q.kind == .atomic && k.stage == .queued))) ||
  s.parkedAt (dieOf r.core) r.part r.obj (some r.rid) r.vbase (r.extra.getD (if r.kind = .tex then 3 else 2) 0)

/-- FILTER_REQUEST: the request leaves the port; then the descriptor, then the lanes, at the FLT of the descriptor's stack; a failed mesh
stop refuses it (R217). -/
def State.filter (s : State) (rid : Nat) : Option State :=
  match Tab.find s.reqs rid with
  | none => none
  | some r =>
      let mine := r.kind == .tex || r.kind == .hgrid
      if !mine || r.cancelled || r.lanes.any (fun l => l.stage != .issued) then none
      else
        match s.leavePort r with
        | none => none
        | some (s1, r1) =>
            if s1.stopFailed r1.core then some (s1.failReq r1 .refused)
            else if s1.fltWaits r1 then (if r1.left = r.left then none else some s1)
            else
            let r := r1
            let c := r.fltCap (r.extra.getD (if r.kind = .tex then 3 else 2) 0)
            let bad := fun (s : State) => some (s.landReq r (r.lanes.map (fun l => landWords l (List.replicate r.regs poisonWord))) true)
            match s1.pkgPlaces r.fltVia c 0 64 false with
            | (t, .wait) => s.waited t
            | (t, .fail e) => some (t.failReq r e)
            | (t, .ok ps) =>
                if !t.oneExtent r.fltVia c ps then bad t
                else
                  (match t.readPlaces r.fltVia ps with
                    | (t, .wait) => s.waited t
                    | (t, .fail e) => some (t.failReq r e)
                    | (t, .ok b) =>
                        match t.filterLanes r ((ps.headD (0, false, 0)).1 / 2 ^ 36) b with
                        | none => bad t
                        | some (.error t) => s.waited t
                        | some (.ok (t, ls)) => some (t.landReq r ls false))

def execFilterRequest (rid : Nat) (s : State) : Out := event s (s.filter rid)

end Sys2Proof.Machine
end

