-- ==== Sys2Proof/Machine/Launch.lean ====
section
/-! DEFINITION. Partitions, launch records, work queues, placement, LAUNCH and EVSIG, retirement, bandwidth shares and the
context switch (R216, R349 to R361). -/

namespace Sys2Proof.Machine

/-! ### Launch records (R351, R352) -/

/-- Whether the fields of a record keep R351. -/
def recordOk (x : Nat) : Bool :=
  nbitsOf x 1464 584 == 0 && nbitsOf x 1376 4 == 0 && nbitsOf x 1336 8 == 0 && nbitsOf x 1280 12 == 0 &&
  nbitsOf x 400 16 == 0 && nbitsOf x 376 8 == 0 && nbitsOf x 320 6 == 0 && nbitsOf x 269 3 == 0 &&
  decide (nbitsOf x 256 13 ≤ 4096) && nbitsOf x 248 8 == 0 && nbitsOf x 192 4 == 0 && nbitsOf x 184 8 == 0 &&
  nbitsOf x 128 4 == 0 && nbitsOf x 120 8 == 0 && nbitsOf x 64 4 == 0 && nbitsOf x 56 8 == 0 &&
  nbitsOf x 16 16 == 0x4C52 && nbitsOf x 2 9 == 0

/-- The four wait counters of a record, and the counter it advances. -/
def recCounters (x : Nat) : List Nat := [nbitsOf x 448 16, nbitsOf x 464 16, nbitsOf x 480 16, nbitsOf x 496 16, nbitsOf x 384 16]

/-- Whether a counter belongs to a partition; 0xFFFF names none. -/
def State.ctrOk (s : State) (part n : Nat) : Bool := n == 0xFFFF || (part != 0 && (Tab.getD s.ctrs n {}).owner == part)

/-- The grid that a valid record with its header and capabilities makes. -/
def mkGrid (x part prio depth : Nat) (parent : Option Nat) (k : Kernel) (caps : List Cap) : Grid :=
  { part := part, prio := prio, depth := depth, parent := parent, entry := nbitsOf x 64 56, nteam := nbitsOf x 32 24 + 1,
    npm1 := nbitsOf x 11 5, ftz := x % 2 == 1, mxsat := nbitsOf x 1 1 == 1, stklim := nbitsOf x 256 13,
    stksave := nbitsOf x 192 56, psave := nbitsOf x 320 56, psaven := nbitsOf x 288 32, tsave := nbitsOf x 1280 56,
    tsaven := nbitsOf x 1344 32, sstk := nbitsOf x 1376 56, sstkn := nbitsOf x 1432 32,
    hint := BitVec.ofNat 16 (nbitsOf x 272 16), args := (List.range 16).map (fun i => wordOfNat (x / 2 ^ (768 + 32 * i))),
    caps := caps, wctr := (recCounters x).take 4, wval := (List.range 4).map (fun j => nbitsOf x (512 + 64 * j) 64),
    sigctr := nbitsOf x 384 16, siginc := nbitsOf x 416 32, regs := k.regs, scratch := k.scratch, trapvec := k.trapvec }

/-- What the reads of a launch give. -/
inductive LRead where
  | wait
  | bad
  | ok (g : Grid)
  deriving DecidableEq, Repr

/-- One granule of a capability list with its tag (R159); an untagged one is a null capability. -/
def State.readCap (s : State) (v : Via) (va : Nat) : State × PRes Cap :=
  andThen (s.unitTrans v va) (fun s p => andThen (s.readPlaces v [(p.1, p.2, 16)]) (fun s b =>
    (s, .ok (if !p.2 && s.tags.contains (p.1 / 16) then ⟨true, BitVec.ofNat 128 (ofBytes b)⟩ else {}))))

/-- The capabilities of a list. -/
def State.readCaps (s : State) (v : Via) (va n : Nat) : State × PRes (List Cap) :=
  (List.range n).foldl (fun acc i => andThen acc (fun s cs =>
    andThen (s.readCap v (va + 16 * i)) (fun s c => (s, .ok (cs ++ [c]))))) (s, .ok [])

/-- A launch record read and judged (R350 to R352): its accesses are held at an extent that is not resident until a failure
response. -/
def State.readLaunch (s : State) (v : Via) (addr prio depth : Nat) (parent : Option Nat) : State × LRead :=
  match s.readVA v addr 256 with
  | (s, .wait) => (s, .wait)
  | (s, .fail _) => (s, .bad)
  | (s, .ok b) =>
      let x := ofBytes b
      if !recordOk x || !(recCounters x).all (s.ctrOk v.part) || (s.part v.part).groups == 0 then (s, .bad)
      else
        match s.readKernel v (nbitsOf x 64 56) with
        | (s, .wait) => (s, .wait)
        | (s, .bad) => (s, .bad)
        | (s, .ok k) =>
            match s.readCaps v (nbitsOf x 128 56) k.caps with
            | (s, .ok cs) => (s, .ok (mkGrid x v.part prio depth parent k cs))
            | (s, .wait) => (s, .wait)
            | (s, .fail _) => (s, .bad)

/-! ### The grid dispatcher (R355) -/

/-- Whether every named wait of a grid holds. -/
def State.waitsHold (s : State) (g : Grid) : Bool :=
  (g.wctr.zip g.wval).all (fun w => w.1 == 0xFFFF || decide (w.2 ≤ (Tab.getD s.ctrs w.1 {}).value.toNat))

/-- The clocks that the named counters carry. -/
def State.waitClock (s : State) (g : Grid) : Tab Nat :=
  g.wctr.foldl (fun t n => if n = 0xFFFF then t else mergeClock t (Tab.getD s.ctrs n {}).clock) g.clock

/-- Whether a queue has a head record to start; in ERROR a TDI's queues start nothing (R375), and recovery mode serves no
partition (R377). -/
def State.queueOpen (s : State) (q : Queue) : Bool :=
  q.en && q.part != 0 && q.logsz != 0 && !q.err && q.head != q.tail && (s.part q.part).en && (s.part q.part).tdi != 3 && !s.recovery

/-- The dispatcher's accesses for a queue. -/
def Queue.via (q : Queue) (n : Nat) : Via := { who := .launch n, die := 0, part := q.part, again := true, hold := true }

/-- The address of a queue's head record. -/
def Queue.headAt (q : Queue) : Nat := q.base + 256 * (q.head.toNat % 2 ^ q.logsz)

/-- The head record of a queue, as the dispatcher reads it. -/
def State.readHead (s : State) (n : Nat) (q : Queue) : State × LRead := s.readLaunch (q.via n) q.headAt q.prio 1 none

/-- Whether a queue's head record is eligible. -/
def State.headEligible (s : State) (n : Nat) (q : Queue) : Bool :=
  s.queueOpen q && (match (s.readHead n q).2 with
    | .ok g => s.waitsHold g
    | _ => false)

/-- What the writers of a run of bytes had seen (R242). -/
def State.writersOf (s : State) (v : Via) (va n : Nat) : Tab Nat :=
  match s.places (fun s o => s.unitTrans v (va + o)) (s.vaCuts v va n) with
  | (_, .ok ps) =>
      (ps.flatMap (fun p => (lineCuts p.1 p.2.2).map (fun i => lineId (p.1 + i.1) p.2.1))).foldl (fun c l =>
        mergeClock c (Tab.getD s.lineClock l [])) []
  | _ => []

/-- The eligible heads: queue numbers with their priorities. -/
def State.eligibleHeads (s : State) : List (Nat × Nat) :=
  (s.queues.filter (fun e => s.headEligible e.1 e.2)).map (fun e => (e.1, e.2.prio))

/-- The accepted child grids that may start, in acceptance order. -/
def State.eligibleKids (s : State) : List (Nat × Nat) :=
  s.accepted.filterMap (fun g => (Tab.find s.grids g).bind (fun x =>
    if s.waitsHold x && (s.part x.part).en then some (g, x.prio) else none))

/-- The dispatcher's next choice: a child (true) or a queue. -/
def State.nextStart (s : State) : Option (Bool × Nat) :=
  let kids := s.eligibleKids
  let heads := s.eligibleHeads
  match ((kids ++ heads).map Prod.snd).max? with
  | none => none
  | some pr =>
      match kids.find? (fun e => e.2 == pr) with
      | some e => some (true, e.1)
      | none =>
          let qs := (heads.filter (fun e => e.2 == pr)).map Prod.fst
          let r := s.rrQueue.getD pr 0
          ((qs.find? (fun q => decide (r ≤ q))).orElse (fun _ => qs.head?)).map (fun q => (false, q))

/-- A grid becomes live. -/
def State.goLive (s : State) (gid : Nat) (g : Grid) : State :=
  { s with grids := Tab.set s.grids gid { g with started := true, clock := s.waitClock g } }

/-- The head record of a queue is consumed. -/
def State.raiseHead (s : State) (q : Nat) : State :=
  { s with queues := Tab.mod s.queues q (fun x => { x with head := x.head + 1 }) }

/-- GRID_START: a queue below 32,768, or an accepted child grid above (its GRIDID added); the dispatcher's next choice, or
an invalid head record, which is passed over and reported. -/
def State.gridStart (s : State) (n : Nat) : Option State :=
  if n < 32768 then
    match Tab.find s.queues n with
    | none => none
    | some q =>
        if !s.queueOpen q then none
        else
          match s.readHead n q with
          | (t, .wait) => s.waited t
          | (t, .bad) => some (((t.forget (.launch n)).raiseHead n).record 0x09 q.part 112 [wordOfNat n, 1])
          | (t, .ok g) =>
              if s.nextStart ≠ some (false, n) then none
              else
                let g := { g with clock := mergeClock q.clock (t.writersOf (q.via n) q.headAt 256) }
                let t := ((t.forget (.launch n)).raiseHead n).goLive t.nextGrid g
                some { t with nextGrid := t.nextGrid + 1, rrQueue := setAt t.rrQueue q.prio ((n + 1) % 32768) }
  else
    let gid := n - 32768
    if s.nextStart ≠ some (true, gid) then none
    else (Tab.find s.grids gid).map (fun g =>
      { s.goLive gid g with accepted := s.accepted.filter (· != gid), children := s.children - 1 })

def execGridStart (queue : Nat) (s : State) : Out := event s (s.gridStart queue)

/-- WQTAIL_WRITE: a tail too far ahead stops the queue (R354). What the host has written before it comes before what the queue
starts (R242). -/
def State.wqtail (s : State) (n : Nat) (tail : BitVec 32) : State :=
  let q := Tab.getD s.queues n {}
  let q := { q with tail := tail, err := q.err || decide (2 ^ q.logsz < (tail - q.head).toNat), clock := mergeClock q.clock s.hostClock }
  { s with queues := Tab.set s.queues n q }

/-- A write to the MMIO of a TDI in RUN comes under IDE, or it is rejected (R375). -/
def execWqtailWrite (queue : Nat) (tail : Tlp 32) (s : State) : Out :=
  event s (if queue < 32768 then
    some (if s.tlpBarred (Tab.getD s.queues queue {}).part tail.ide tail.tdi then s else s.wqtail queue tail.value) else none)

/-- A host write of VALUE (R353), after what the host has written before. -/
def State.ctrWrite (s : State) (n : Nat) (value : BitVec 64) : State :=
  let c := Tab.getD s.ctrs n {}
  { s with ctrs := Tab.set s.ctrs n { c with value := value, clock := mergeClock c.clock s.hostClock } }

/-- EVENT_COUNTER_WRITE. -/
def execEventCounterWrite (n : Nat) (value : Tlp 64) (s : State) : Out :=
  event s (if n < 65535 then
    some (if s.tlpBarred (Tab.getD s.ctrs n {}).owner value.ide value.tdi then s else s.ctrWrite n value.value) else none)

/-! ### Placement (R356) -/

/-- The panes of a new team. -/
def State.placePanes (s : State) (gid : Nat) (g : Grid) (team core : Nat) : State :=
  (List.range (g.npm1 + 1)).foldl (fun s o =>
    let p := (g.newPane gid s.nextPid core).withStack (g.stksave + 16 * g.stklim * (team * (g.npm1 + 1) + o))
    s.addPane { p with team := team, pord := o, npane := g.npm1 }) s

/-- TEAM_PLACEMENT: the next team of a grid, whole, on the core that the placement rule gives. -/
def State.teamPlace (s : State) (gid : Nat) : Option State :=
  match Tab.find s.grids gid with
  | none => none
  | some g =>
      if !g.toPlace || s.teamWaits g.part g.prio (some gid) none then none
      else
        (s.nextCore g).bind (fun c => (s.scratchAt c g.scratch).map (fun off =>
          ((s.addTeam gid g.placed g.part c (sliceBase c + off) g.scratch).modGrid gid (fun g =>
            { g with placed := g.placed + 1, dies := dieAdd g.dies (dieOf c) })).placePanes gid g g.placed c))

def execTeamPlacement (grid : Nat) (s : State) : Out := event s (s.teamPlace grid)

/-! ### LAUNCH and EVSIG (R357) -/

/-- R357: LAUNCH. -/
def execLaunch (p : PReg) (a : Fin 63) (ac : Fin 16) (s : State) : Out :=
  let x := s.pane
  let addr := uns (x.sreg a.val) + bits (x.sreg (a.val + 1)) 0 24 * 2 ^ 32
  if !s.memMayIssue then .next (held s)
  else if addr % 256 ≠ 0 then .next (takeTrap cAlign (memDetail false 0 a.val 0) s)
  else if x.depth = 10 then done (fun q => (q.pset p.val 0).flag fLNEST) s
  else if 4096 ≤ s.children ∨ x.acFull ac = true then .next (held s)
  else
    let c := { s.mkCmd (.launch p a ac) (some ac) with base := addr }
    .next (onPane (fun q => q.pset p.val 0xFFFFFFFF) (({ s with children := s.children + 1 } : State).sendCmd c 0))

/-- R357: EVSIG, a reduction of the pane. -/
def execEvsig (a b : SOpt) (s : State) : Out :=
  let p := s.pane
  let n := uns (a.val p)
  memWord false s (fun s => s.startReq none
    { s.mkReq .sig .tm 0x7F {} with
      entry := true, lanes := [{ lane := 0, addr := n, data := toBytes 4 (uns (b.val p)), mask := 1 }] } false)

/-- LAUNCH_ACCEPT: the record is read; the child grid is accepted, or the launch is refused (R352, R357). -/
def State.launchAccept (s : State) (core k : Nat) : Option State :=
  match s.cmdOf k (fun i => match i with
    | .launch _ _ _ => true
    | _ => false) with
  | none => none
  | some c =>
      if c.core ≠ core ∨ s.cmdReady c = false then none
      else if s.cmdRefused c then some ((({ s with children := s.children - 1 } : State).cmdGone c).cmdFall2 c true false)
      else
        match Tab.find s.grids c.grid with
        | none => none
        | some g =>
            match s.readLaunch { c.via with again := true, hold := true } c.base g.prio (g.depth + 1) (some c.grid) with
            | (t, .wait) => s.waited t
            | (t, .bad) => some ({ t with children := t.children - 1 }.cmdEnd c none [] true)
            | (t, .ok x) =>
                let clock := mergeClock (t.die c.die).clock (t.writersOf c.via c.base 256)
                let t := { t with grids := Tab.set t.grids t.nextGrid { x with clock := clock },
                                  accepted := t.accepted ++ [t.nextGrid], nextGrid := t.nextGrid + 1 }
                some (t.cmdEnd c none [] false)

def execLaunchAccept (core k : Nat) (s : State) : Out := event s (s.launchAccept core k)

/-! ### Retirement (R358) -/

/-- Whether a core holds threads or ray contexts of a grid, those that this cycle has spawned among them (log entry 104). -/
def Core.holdsGrid (c : Core) (gid : Nat) : Bool :=
  c.bins.any (fun b => match b.key with
    | some (_, g) => g == gid
    | none => false) || c.forming.any (fun f => f.grid == gid) || c.pend.any (fun e => e.2.1.2 == gid) || (Tab.vals c.ctxs).any (fun x => x.grid == gid)

/-- Whether a die's engines hold commands of a grid. -/
def Die.holdsGrid (d : Die) (gid : Nat) : Bool := d.blks.any (fun b => b.cmds.any (fun c => c.cmd.grid == gid))

/-- Whether an access of a grid is still open: a write not accepted, an atomic not performed, a peer or host write not accepted at
its destination (R238, R358). -/
def State.openAccess (s : State) (gid : Nat) : Bool :=
  (Tab.vals s.reqs).any (fun r => r.grid == gid &&
    (!r.isWrite || !r.accepted || ((r.space == .pm || r.space == .hm) && !r.destAccepted)))

def State.mayRetire (s : State) (gid : Nat) (g : Grid) : Bool :=
  g.started && !g.toPlace && !(s.allPanes.any (fun p => p.grid == gid && p.place.live)) &&
  !((Tab.vals s.cores).any (fun c => c.holdsGrid gid)) && !((Tab.vals s.dies).any (fun d => d.holdsGrid gid)) &&
  !((Tab.vals s.cmds).any (fun c => c.grid == gid)) && !((Tab.vals s.colls).any (fun c => c.cmd.grid == gid)) &&
  !((Tab.vals s.grids).any (fun x => x.parent == some gid)) && !s.openAccess gid

/-- GRID_RETIREMENT: the counter advances, released at .SYS, with the clocks of the dies the grid ran on. -/
def State.retire (s : State) (gid : Nat) : Option State :=
  match Tab.find s.grids gid with
  | none => none
  | some g =>
      if !s.mayRetire gid g then none
      else
        let s := { s with grids := Tab.erase s.grids gid }
        some (if g.sigctr = 0xFFFF then s
          else
            let c := Tab.getD s.ctrs g.sigctr {}
            let c := { c with value := c.value + BitVec.ofNat 64 g.siginc,
                              clock := g.dies.foldl (fun t d => mergeClock t (s.die d).clock) (mergeClock c.clock g.clock) }
            { s with ctrs := Tab.set s.ctrs g.sigctr c })

def execGridRetirement (grid : Nat) (s : State) : Out := event s (s.retire grid)

/-! ### Bandwidth shares (R359) -/

/-- The partitions of a block's commands, or of those with requests for its port. -/
def Blk.parts (b : Blk) (ask : Bool) : List Nat := ((b.cmds.filter (fun c => !ask || c.asks)).map (fun c => c.cmd.part)).eraseDups

/-- The engine blocks that hold commands, or commands with requests: their bucket, their partitions, their group. -/
def State.busyBlocks (s : State) (ask : Bool) : List (Nat × Nat × Nat) :=
  s.dies.flatMap (fun e => (List.range 4).flatMap (fun b =>
    ((e.2.blks.getD b {}).parts ask).map (fun p => (blockBucket e.1 b, p, groupOf e.1))))

/-- The cores that run a partition: their bucket, their partition, their group. -/
def State.busyCores (s : State) : List (Nat × Nat × Nat) :=
  (s.cores.filter (fun (e : Nat × Core) => e.2.part != 0)).map (fun e => (e.1, e.2.part, groupOf (dieOf e.1)))

/-- The partitions with a request waiting at a metered port of a group. -/
def State.activeParts (s : State) (g : Nat) : List Nat :=
  (((Tab.vals s.reqs).filter (fun r => groupOf (dieOf r.core) == g && !r.left && !r.cancelled && r.metered && s.atPort r)).map Req.part ++
    ((s.busyBlocks true).filter (fun b => b.2.2 == g)).map (fun b => b.2.1)).eraseDups

def State.share (s : State) (p : Nat) : Nat := max 1 (s.part p).share.toNat

/-- One group's shares: the ports of an active partition gain, whether or not a request of theirs waits. -/
def State.bandGroup (s : State) (g : Nat) : State :=
  let act := s.activeParts g
  let sum := act.foldl (fun n p => n + s.share p) 0
  ((s.busyCores ++ s.busyBlocks false).filter (fun b => b.2.2 == g && act.contains b.2.1)).foldl (fun s b =>
    { s with buckets := Tab.set s.buckets b.1 (min 65536 (Tab.getD s.buckets b.1 0 + 65536 * s.share b.2.1 / sum)) }) s

/-- BANDWIDTH_TICK, every 1,024 cycles. -/
def State.bandwidthTick (s : State) : Option State :=
  if s.cycle / 1024 ≤ s.lastBand then none
  else some ((List.range 16).foldl (fun s g => s.bandGroup g) { s with lastBand := s.cycle / 1024 })

def execBandwidthTick (s : State) : Out := event s s.bandwidthTick

/-! ### The context switch (R360) and the barrier sets (R216) -/

/-- The switch stops (step 3 of R360). -/
def State.stopSwitch (s : State) (core : Nat) (unit cause : Nat) : State :=
  (s.endSwitch core).record 0x09 (s.core core).part (dieOf core) [wordOfNat unit, wordOfNat cause]

/-- A pane of a core begins to leave; the last one of its team takes a team save record too (R141, R142). None where a record is
lacking. -/
def State.leaveOne (s : State) (p : Pane) : Option State :=
  let last := (s.teamPanes p.grid p.team).all (fun q => q.pid == p.pid || !q.inCore || q.moving)
  (match s.team p.grid p.team with
    | some t => if last then s.teamRecord t else some s
    | none => some s).bind (fun s => s.beginLeave p.pid)

/-- Every pane whose state lies in the core begins to leave; one that lacks a record stops the switch, and those after it stay. -/
def State.leaveAll (s : State) (core : Nat) : State :=
  match ((s.corePanes core).filter (fun p => p.inCore && !p.moving)).foldl (fun (acc : State × Bool) p =>
      if acc.2 then
        (match acc.1.leaveOne p with
          | some s => (s, true)
          | none => (acc.1, false))
      else acc) (s, true) with
  | (s, true) => s
  | (s, false) => s.stopSwitch core core 1

/-- CONTEXT_SWITCH_OUT: OUT = 1 is written. -/
def State.switchOut (s : State) (core : Nat) : Option State :=
  let c := s.core core
  if c.part = 0 ∨ c.busy = true then none
  else
    let s := s.modCore core (fun c => { c.settleBins s.cycle false with busy := true, out := true })
    some (((List.range 16).foldl (fun s b => s.formBin core b) s).leaveAll core)

def execContextSwitchOut (core : Nat) (s : State) : Out := event s (s.switchOut core)

/-- Whether another core of the cluster runs the partition. -/
def State.clusterRuns (s : State) (core part : Nat) : Bool :=
  s.cores.any (fun (e : Nat × Core) => e.1 != core && e.1 / 6 == core / 6 && e.2.part == part)

/-- The sixteen bytes of a barrier in a save block: PHASE in [31:0], GRIDID in [63:32], COUNT in [79:64], TOTAL in [95:80] with 0xFFFF
for none (DESIGN CHOICE, log entry 12). -/
def Bar.bytes (b : Bar) : List Byte :=
  toBytes 16 (b.phase % 2 ^ 32 + b.grid % 2 ^ 32 * 2 ^ 32 + b.count % 2 ^ 16 * 2 ^ 64 + b.total.getD 0xFFFF % 2 ^ 16 * 2 ^ 80)

def Bar.ofBytes (b : List Byte) : Bar :=
  let x := Machine.ofBytes b
  let n := nbitsOf x 80 16
  { phase := nbitsOf x 0 32, grid := nbitsOf x 32 32, count := nbitsOf x 64 16, total := if n = 0xFFFF then none else some n }

/-- The accesses of a core's switch, and the address of its cluster's barrier block (R216). -/
def switchVia (core part : Nat) : Via := { who := .switch core, die := dieOf core, part := part, core := some core }

def State.clBlock (s : State) (core part : Nat) : Nat := (s.part part).clbAddr + 256 * (core / 6)

/-- The write-back of a cluster's barrier set as its last core goes (R216). -/
def State.clWriteBack (s : State) (core : Nat) : State × PRes Unit :=
  let part := (s.core core).part
  let cl := core / 6
  let drop := fun (s : State) => s.modCluster cl (fun c => { c with sets := Tab.erase c.sets part })
  if s.clusterRuns core part || s.clLoading cl part then (s, .ok ())
  else if (s.part part).clbV then
    andThen (s.writeVA (switchVia core part) (s.clBlock core part) ((s.clBars cl part).flatMap Bar.bytes)) (fun s _ =>
      (drop (s.modPart part (fun p => { p with clbSaved := if p.clbSaved.contains cl then p.clbSaved else p.clbSaved ++ [cl] })), .ok ()))
  else if (s.clBars cl part).any (fun b => decide (0 < b.count)) then (s, .fail .refused)
  else (drop s, .ok ())

/-- Whether everything of a core has left it (steps 2 to 4 of R360). -/
def State.coreEmpty (s : State) (core : Nat) : Bool :=
  let c := s.core core
  !((s.corePanes core).any (fun p => p.inCore || p.moving)) && c.forming.isEmpty && c.pend.isEmpty &&
    (Tab.vals c.ctxs).all (fun (x : RayCtx) => x.left == 0) && c.bins.all (fun (b : Bin) => b.key.isNone)

/-- The teams of a core. -/
def State.homeTeams (s : State) (core : Nat) : List Team := (Tab.vals s.teams).filter (fun t => t.home == some core)

/-- The teams of a core that have no pane in it take their records, too; none where one is lacking. -/
def State.teamRecords (s : State) (core : Nat) : Option State :=
  (s.homeTeams core).foldl (fun acc t => acc.bind (fun s => s.teamRecord t)) (some s)

/-- CONTEXT_SWITCH_COMPLETE: the teams' records and the barrier set are written and PART becomes 0; a final read of a watch is made
first (R145). -/
def State.switchDone (s : State) (core : Nat) : Option State :=
  let part := (s.core core).part
  if (s.core core).out = false ∨ s.coreEmpty core = false then none
  else
    match s.teamRecords core with
    | none => some (s.stopSwitch core core 1)
    | some s1 =>
        match (s1.homeTeams core).foldl (fun acc t => andThen acc (fun s _ => s.teamAreaOk (switchVia core part) t)) (s1, .ok ()) with
        | (t, .wait) => s.waited t
        | (t, .fail _) => some (t.stopSwitch core core 2)
        | (t, .ok _) =>
            match t.clWriteBack core with
            | (t, .wait) => s.waited t
            | (t, .fail _) => some ((t.forget (.switch core)).stopSwitch core (core / 6) 3)
            | (t, .ok _) =>
                let t := (t.homeTeams core).foldl (fun s x => s.teamOut x) (t.forget (.switch core))
                some (t.modCore core (fun c => { c with part := 0, busy := false, out := false, timer := 0 }))

def execContextSwitchComplete (core : Nat) (s : State) : Out := event s (s.switchDone core)

/-- The barrier set a cluster starts a partition with, where it does not come from its block. -/
def State.idleSet (s : State) (core part : Nat) : State :=
  if s.clusterRuns core part || s.clLoading (core / 6) part then s
  else s.modCluster (core / 6) (fun c => { c with sets := Tab.set c.sets part (List.replicate 16 {}) })

/-- The barrier set of a core's partition is read from its block; with a read that fails the barriers are idle and a record is sent
(DESIGN CHOICE, log entry 12). A phase that exits have completed meanwhile completes now. None where there is nothing to do. -/
def State.loadSet (s : State) (core : Nat) : Option State :=
  let part := (s.core core).part
  let cl := core / 6
  let put := fun (s : State) (bs : List Bar) =>
    ((s.forget (.switch core)).modCluster cl (fun c => { c with sets := Tab.set c.sets part bs })).settleCl cl part
  if part = 0 ∨ s.clLoading cl part = false then none
  else
    match s.readVA (switchVia core part) (s.clBlock core part) 256 with
    | (t, .wait) => s.waited t
    | (t, .fail _) => some ((put t (List.replicate 16 {})).record 0x09 part (dieOf core) [wordOfNat cl, 3])
    | (t, .ok b) => some (put t ((List.range 16).map (fun k => Bar.ofBytes ((b.drop (16 * k)).take 16))))

/-- CORECTX_PART_WRITE: takes effect only while PART = 0 and BUSY = 0; the spawn timer and the barrier set are loaded, and
the slice holds nothing of another partition (R356). -/
def State.corePart (s : State) (core : Nat) (part : Nat) : State :=
  let c := s.core core
  if c.part ≠ 0 ∨ c.busy = true ∨ part = 0 then s
  else
    let s := s.idleSet core part
    { s.modCore core (fun c => { c with part := part, timer := (s.part part).spn }) with
      ds := Mem.clear s.ds (sliceBase core) 524288 }

def execCorectxPartWrite (core : Nat) (part : BitVec 8) (s : State) : Out :=
  event s (if core < 1536 then some (s.corePart core part.toNat) else none)

end Sys2Proof.Machine
end

