-- ==== Sys2Proof/Machine/Host.lean ====
section
/-! DEFINITION. The SPDM responder, the TDIs of the partitions (R375, R376), and the host's own writes to device memory
(R146, R159). -/

namespace Sys2Proof.Machine

/-! ### The SPDM responder (R376, R377) -/

/-- A response: its code and what it carries; a request that came on virtual lane 4 of a port is answered there (R376, log
entry 41). -/
def State.spdmSay (s : State) (code : Nat) (body : List Byte) : State :=
  let msg := BitVec.ofNat 8 code :: body
  let t := { s with spdm := { s.spdm with out := s.spdm.out ++ [msg], via := none } }
  match s.spdm.via with
  | some k => t.queueMsg k ⟨0, 4, msg, none⟩
  | none => t

/-- An ERROR response; nothing else changes. -/
def State.spdmError (s : State) : State := s.spdmSay 0x7F []

def State.modSpdm (s : State) (f : Spdm → Spdm) : State := { s with spdm := f s.spdm }

/-- The responder's phases, in the order SPDM 1.3 gives its requests (log entry 41): 1 after GET_VERSION, 2 after
GET_CAPABILITIES, 3 after NEGOTIATE_ALGORITHMS, 4 after KEY_EXCHANGE, 5 with a secure session. -/
def State.spdmFrom (s : State) (phase : Nat) (k : State → State) : Out :=
  .next (if phase ≤ s.spdm.phase then k s else s.spdmError)

/-- GET_VERSION: version 1.3; the connection begins again. -/
def execGetVersion (s : State) : Out :=
  .next ((s.modSpdm (fun x => { x with phase := 1, algs := [], script := [], session := none })).spdmSay 0x04 [0x13])

/-- GET_CAPABILITIES. -/
def execGetCapabilities (s : State) : Out :=
  .next (if s.spdm.phase = 1 then (s.modSpdm (fun x => { x with phase := 2 })).spdmSay 0x61 [] else s.spdmError)

/-- The algorithms supported: 1 ECDSA P-384, 2 SHA-384, 3 ECDHE secp384r1, 4 AES-256-GCM. -/
def spdmAlgs : List Nat := [1, 2, 3, 4]

/-- NEGOTIATE_ALGORITHMS: an offer that lacks one of the supported algorithms is an error. -/
def execNegotiateAlgorithms (offer : List Nat) (s : State) : Out :=
  .next (if s.spdm.phase = 2 ∧ spdmAlgs.all offer.contains = true then
      (s.modSpdm (fun x => { x with phase := 3, algs := spdmAlgs })).spdmSay 0x63 [1, 2, 3, 4]
    else s.spdmError)

/-- GET_DIGESTS: slot 0's digest; in recovery mode an empty slot (R377). -/
def execGetDigests (s : State) : Out :=
  s.spdmFrom 3 (fun s => s.spdmSay 0x01 (if s.recovery then [] else Config.cryptoBytes 1 []))

/-- GET_CERTIFICATE: slot 0 only. -/
def execGetCertificate (slot off len : Nat) (s : State) : Out :=
  s.spdmFrom 3 (fun s =>
    if s.recovery || slot != 0 then s.spdmError else s.spdmSay 0x02 (((Config.cryptoBytes 2 []).drop off).take len))

/-- CHALLENGE: the nonce signed with the identity key. -/
def execChallenge (slot : Nat) (nonce : List Byte) (s : State) : Out :=
  s.spdmFrom 3 (fun s =>
    if s.recovery || slot != 0 then s.spdmError else s.spdmSay 0x03 (Config.cryptoBytes 3 (s.spdm.script ++ nonce)))

/-- A list of numbers as bytes, with its length. -/
def numBytes (l : List Nat) : List Byte := toBytes 8 l.length ++ l.flatMap (toBytes 16)

/-- The state of a TDI, and what its lock freezes (R375): the partition's configuration, its tables and generation, the key slot's
rewrites, the queues and counters it owns, its sessions. -/
def State.tdiConfig (s : State) (part : Nat) : List Byte :=
  let p := s.part part
  numBytes [part, p.tdi, p.groups.toNat, p.share.toNat, if p.en then 1 else 0, p.gen, s.slotGen part] ++
    numBytes (s.otAddr.flatMap (fun e => [e.1, Tab.getD e.2 part 0])) ++
    numBytes ((s.queues.filter (fun e => e.2.part == part)).map Prod.fst) ++
    numBytes ((s.ctrs.filter (fun e => e.2.owner == part)).map Prod.fst) ++
    numBytes ((s.sessions.filter (fun x => x.part == part)).flatMap (fun x => [x.num, x.peer, x.ppart, x.port]))

/-- An image's digest and security version. -/
def State.image (s : State) (k : Nat) : List Byte :=
  let x := s.images.getD k ([], 0)
  x.1 ++ toBytes 8 x.2

/-- What a measurement block is taken over (R376, R378): 1 and 2 the firmware images, 3 the configuration record, 4 the public keys'
digests, 5 the requesting TDI's state and its locked configuration. -/
def State.measured (s : State) (k : Nat) : List Byte :=
  match k with
  | 1 => s.image 0
  | 2 => s.image 1
  | 3 => s.image 2 ++ [if s.parityOn then 1 else 0, if s.macOn then 1 else 0]
  | 4 => s.roms
  | 5 => s.tdiConfig (s.spdm.session.getD 0)
  | _ => []

/-- A measurement block. -/
def State.block (s : State) (k : Nat) : List Byte := Config.cryptoBytes (16 + k) (s.measured k)

/-- GET_MEASUREMENTS: 0 asks for the number of blocks, 255 for all, 1 to 5 for one; signed where it is asked for. -/
def execGetMeasurements (idx : Nat) (sign : Bool) (nonce : List Byte) (s : State) : Out :=
  s.spdmFrom 3 (fun s =>
    if (sign && s.recovery) || !(idx == 255 || decide (idx ≤ 5)) then s.spdmError
    else
      let b := if idx = 0 then [5] else if idx = 255 then (([1, 2, 3, 4, 5] : List Nat).map s.block).flatten else s.block idx
      s.spdmSay 0x60 (b ++ (if sign then Config.cryptoBytes 4 (b ++ nonce) else [])))

/-- KEY_EXCHANGE: ECDHE; the secure session begins with FINISH. -/
def execKeyExchange (share : List Byte) (s : State) : Out :=
  s.spdmFrom 3 (fun s =>
    if s.recovery then s.spdmError
    else (s.modSpdm (fun x => { x with phase := 4, script := x.script ++ share })).spdmSay 0x64
      (Config.cryptoBytes 5 (s.spdm.script ++ share)))

/-- The lowest session number that a port has free; 0 is link management. -/
def State.freeSession (s : State) (port : Nat) : Nat :=
  ((List.range 65536).find? (fun n => n != 0 && !(s.sessions.any (fun x => x.port == port && x.num == n)))).getD 0

/-- A fabric session installed, or installed anew, for a partition pair (R364, R376). -/
def State.install (s : State) (part : Nat) (e : PeerEnd) : State :=
  let rest := s.sessions.filter (fun x => !(x.part == part && x.peer == e.pkg && x.ppart == e.part && x.port == e.port))
  let t := { s with sessions := rest }
  { t with sessions := rest ++ [⟨t.freeSession e.port, e.num, e.pkg, e.part, part, e.port, s.nextSeq, 0, 0, false⟩], nextSeq := s.nextSeq + 1 }

/-- FINISH: the requester's MAC verifies and the secure session stands; between two packages the keys become a fabric
session where both partitions are enabled and their TDIs in RUN (`peer` says so of the other). -/
def execFinish (part : Nat) (mac : List Byte) (peer : Option PeerEnd) (s : State) : Out :=
  .next (if s.spdm.phase ≠ 4 then s.spdmError
    else if Config.cryptoVerify 1 s.spdm.script mac then
      let s := (s.modSpdm (fun x => { x with phase := 5, session := some part })).spdmSay 0x65 []
      (match peer with
        | none => s
        | some e =>
            if (s.part part).en = true ∧ (s.part part).tdi = 2 ∧ e.run = true ∧ e.port < 32 then s.install part e else s)
    else (s.modSpdm (fun x => { x with phase := 3 })).spdmError)

/-- END_SESSION. -/
def execEndSession (part : Nat) (s : State) : Out :=
  .next (if s.spdm.session = some part then (s.modSpdm (fun x => { x with phase := 3, session := none })).spdmSay 0x6C []
    else s.spdmError)

/-- A secured vendor message: only in a secure session. -/
def State.secured (s : State) (k : State → State) : Out :=
  .next (if s.spdm.session.isSome then k s else s.spdmError)

/-- IDE_KM: the message is kept with the link's keys (log entry 41). -/
def execIdeKm (payload : List Byte) (s : State) : Out :=
  s.secured (fun s => (s.modSpdm (fun x => { x with ide := x.ide ++ [payload] })).spdmSay 0x7E [])

/-! ### TDIs (R375) -/

/-- Whether a partition is a TDI of the device: enabled, and not in recovery mode (R377). -/
def State.isTdi (s : State) (p : Nat) : Bool := decide (1 ≤ p) && decide (p ≤ 255) && (s.part p).en && !s.recovery

/-- What a TDISP response reports of an interface: its ID, its state, and the digest of its locked configuration (R376, log entry 41). -/
def State.tdiReport (s : State) (part : Nat) : List Byte :=
  toBytes 12 part ++ [BitVec.ofNat 8 (s.part part).tdi] ++ Config.cryptoBytes 21 (s.tdiConfig part)

/-- A TDISP response, bound to its interface. -/
def State.tdispSay (s : State) (part : Nat) : State := s.spdmSay 0x7E (s.tdiReport part)

/-- LOCK_INTERFACE: CONFIG_UNLOCKED to CONFIG_LOCKED; its frozen state is what `tdiError` guards. -/
def execLockInterface (part : Nat) (s : State) : Out :=
  s.secured (fun s => if s.isTdi part && (s.part part).tdi == 0 then
    (s.modPart part (fun x => { x with tdi := 1 })).tdispSay part else s.spdmError)

/-- START_INTERFACE: CONFIG_LOCKED to RUN. -/
def execStartInterface (part : Nat) (s : State) : Out :=
  s.secured (fun s => if s.isTdi part && (s.part part).tdi == 1 then
    (s.modPart part (fun x => { x with tdi := 2 })).tdispSay part else s.spdmError)

/-- The runs of a partition's extents in a tier: first byte and length. -/
def State.tierRuns (s : State) (part : Nat) (tier1 : Bool) : List (Nat × Nat) :=
  ((s.objIds 0 part).map (fun o => match s.readObj 0 part o with
    | some b => if b.valid && b.kind == 0 then
        (b.exts.filter (fun e => e.tier1 == tier1)).map (fun e => (e.pfn * 65536, e.nlen * 65536)) else []
    | none => [])).flatten

def State.partRuns (s : State) (part : Nat) : List (Nat × Nat) := s.tierRuns part false

/-- Whether an address lies in a run. -/
def inRun (r : Nat × Nat) (a : Nat) : Bool := decide (r.1 ≤ a) && decide (a < r.1 + r.2)

/-- What a write of zeros to a line does beside it: a degraded channel keeps what its cells hold, and the parity line and its sideband
follow. -/
def State.zeroLine (s : State) (line : Nat) : State :=
  let pa := 64 * line
  let (g, c) := s.chanOf pa
  let x := Mem.readN s.dm pa 64
  let s := if bit (s.base g).chdegr c then s.keepShadow line else s
  if s.parityOn && !bit (s.base g).chdegr (State.parityChan pa) then
    s.xorParity ⟨line, 0, x, tagField (s.lineTags line), false⟩
  else s

/-- The lines of a memory with a byte in a run. -/
def linesIn (m : Mem) (r : Nat × Nat) : List Nat := ((m.filter (fun c => inRun r c.1)).map (fun c => c.1 / 64)).eraseDups

/-- A tier-0 run written with zeros under key 0: its lines, their tags and poison, and every die's copies. -/
def State.zeroRun (s : State) (r : Nat × Nat) : State :=
  let s := (linesIn s.dm r ++ (s.tags.filter (fun g => inRun r (16 * g))).map (· / 4)).eraseDups.foldl State.zeroLine s
  { s with dm := Mem.clear s.dm r.1 r.2, tags := s.tags.filter (fun g => !inRun r (16 * g)),
           poisoned := s.poisoned.filter (fun l => !inRun r (64 * l)),
           lineKey := s.lineKey.filter (fun e => !inRun r (64 * e.1)),
           dies := s.dies.map (fun (e : Nat × Die) => (e.1, { e.2 with lines := e.2.lines.filter (fun l => !inRun r (64 * l.line)) })) }

/-- The same for a tier-1 run. -/
def State.zeroRun1 (s : State) (r : Nat × Nat) : State :=
  let off := fun (l : Nat) => decide (lineId 0 true ≤ l) && inRun r (64 * (l - lineId 0 true))
  { s with hm := Mem.clear s.hm r.1 r.2, lineKey := s.lineKey.filter (fun e => !off e.1),
           dies := s.dies.map (fun (e : Nat × Die) => (e.1, { e.2 with lines := e.2.lines.filter (fun l => !off l.line) })) }

/-- STOP_INTERFACE: firmware writes zeros under key 0 over the partition's extents and rewrites its key slot (R259) before
it unlocks. -/
def State.stopTdi (s : State) (part : Nat) : State :=
  let t := (s.tierRuns part true).foldl State.zeroRun1 ((s.partRuns part).foldl State.zeroRun s)
  ({ t with keyGen := Tab.set t.keyGen part (Tab.getD t.keyGen part 0 + 1) } : State).modPart part (fun x => { x with tdi := 0 })

def execStopInterface (part : Nat) (s : State) : Out :=
  s.secured (fun s => if s.isTdi part then
    (if (s.part part).tdi = 0 then s else s.stopTdi part).tdispSay part else s.spdmError)

/-! ### Writes by the host (R146, R159) -/

/-- HOST_WRITE: system software's write of physical bytes under a key (R230, R252), through a port, in the write order of the package
(log entry 42); its granules lose their tags, watches see it, and what the host does next comes after it (R242). -/
def State.hostWrite (s : State) (key addr : Nat) (b : List Byte) : Option State :=
  if b.isEmpty || !((List.range b.length).all (fun i => s.tier0Ok (addr + i))) then none
  else
    let t := (s.unitWrite { who := .launch 0, die := 0, part := key, write := true } addr false b).1
    some { t with hostClock := mergeClock t.hostClock (t.die 0).clock }

def execHostWrite (addr : KeyedAddr) (bytes : List Byte) (s : State) : Out :=
  event s (s.hostWrite addr.key addr.addr bytes)

end Sys2Proof.Machine
end

