-- ==== Sys2Proof/Machine/Lanes.lean ====
section
/-! DEFINITION. Cross-lane words and special functions (R115 to R123). -/

namespace Sys2Proof.Machine

/-- R116: the source lane of SHFL, as a number that may lie outside 0 to 31. -/
def shflLane (m : ShflMode) (L : Nat) (b : Word) : Int :=
  match m with
  | .idx => bits b 0 5
  | .up => (L : Int) - uns b
  | .dn => (L : Int) + uns b
  | .xor => ((L ^^^ bits b 0 5 : Nat) : Int)

/-- R116: SHFL. -/
def execShfl (w : Bool) (m : ShflMode) (d : VDst) (a b : VSrc) (s : State) : Out :=
  done (fun p => resultY w d (a.stale p || b.stale p) (fun L =>
    let j := shflLane m L (b.val p L)
    (if 0 ≤ j ∧ j < 32 ∧ p.active j.toNat = true then a.val p j.toNat else a.val p L, 0)) p) s

/-- R117: the value of a VOTE over the active lanes. -/
def voteVal (m : VoteMode) (p : Pane) (a : VSrc) : Word :=
  match m with
  | .all => boolWord (p.lanes.all (fun L => a.val p L != 0))
  | .any => boolWord (p.lanes.any (fun L => a.val p L != 0))
  | .bal => maskOf (fun L => p.active L && a.val p L != 0)
  | .eq => boolWord (match p.lanes with
      | [] => true
      | k :: r => r.all (fun L => a.val p L == a.val p k))

/-- R117: VOTE. -/
def execVote (m : VoteMode) (d : SDst) (a : VSrc) (s : State) : Out :=
  done (fun p => (d.write p (voteVal m p a)).stale (a.stale p)) s

/-- R118: the identity of an operation. -/
def laneId : LaneOp → Word
  | .add | .umax | .or | .xor | .fadd => 0
  | .min => 0x7FFFFFFF
  | .max => 0x80000000
  | .umin | .and => 0xFFFFFFFF
  | .fmin => 0x7F800000
  | .fmax => 0xFF800000

/-- R118: one step of a combination, with its flags. -/
def laneStep (ftz : Bool) (op : LaneOp) (x y : Word) : Word × Word :=
  match op with
  | .add => (x + y, 0)
  | .min => (iminVal false x y, 0)
  | .max => (imaxVal false x y, 0)
  | .umin => (iminVal true x y, 0)
  | .umax => (imaxVal true x y, 0)
  | .and => (x &&& y, 0)
  | .or => (x ||| y, 0)
  | .xor => (x ^^^ y, 0)
  | .fadd => faddVal ftz .rn x y
  | .fmin => fminmaxVal ftz false x y
  | .fmax => fminmaxVal ftz true x y

/-- R118: the combination of a list in order; an identity is never combined into one that is not empty. -/
def laneFold (ftz : Bool) (op : LaneOp) : List Word → Word × Word
  | [] => (laneId op, 0)
  | x :: r => r.foldl (fun acc y => let z := laneStep ftz op acc.1 y; (z.1, acc.2 ||| z.2)) (x, 0)

/-- R118: LRED. -/
def execLred (op : LaneOp) (d : SDst) (a : VSrc) (s : State) : Out :=
  done (fun p =>
    let r := laneFold p.ftz op (p.lanes.map (a.val p))
    ((d.write p r.1).flag r.2).stale (a.stale p)) s

/-- R118: LSCAN. -/
def execLscan (w : Bool) (op : LaneOp) (exc : Bool) (d : VDst) (a : VSrc) (s : State) : Out :=
  done (fun p => resultY w d (a.stale p) (fun L =>
    laneFold p.ftz op ((p.lanes.filter (fun k => if exc then decide (k < L) else decide (k ≤ L))).map (a.val p))) p) s

/-- R117: MATCH. -/
def execMatchLanes (w : Bool) (d : VDst) (a : VSrc) (s : State) : Out :=
  done (fun p => resultY w d (a.stale p) (fun L =>
    (maskOf (fun k => p.active k && a.val p k == a.val p L), 0)) p) s

/-- The rank of an active lane (R120). -/
def Pane.rank (p : Pane) (L : Nat) : Nat := (p.lanes.filter (fun k => decide (k < L))).length

/-- R119: the lanes by key group, groups by their lowest lane. -/
def groupLanes (key : Nat → Word) : Nat → List Nat → List Nat
  | 0, _ => []
  | _, [] => []
  | n + 1, L :: r =>
      (L :: r.filter (fun k => key k == key L)) ++ groupLanes key n (r.filter (fun k => key k != key L))

/-- R119: REORDER. -/
def execReorder (w : Bool) (d : VDst) (a b : VSrc) (s : State) : Out :=
  done (fun p => resultY w d (a.stale p || b.stale p) (fun L =>
    (a.val p ((groupLanes (b.val p) 32 p.lanes).getD (p.rank L) L), 0)) p) s

/-- R120: the row and the offset of the item of a rank, over the lanes with their lengths. -/
def rebalFind (n : Nat → Nat) : List Nat → Nat → Word × Word
  | [], _ => (0xFFFFFFFF, 0)
  | r :: rest, k => if k < n r then (wordOfNat r, wordOfNat k) else rebalFind n rest (k - n r)

/-- R120: REBAL. -/
def execRebal (w : Bool) (d : Fin 119) (a : VSrc) (s : State) : Out :=
  done (fun p =>
    let f := fun (L : Nat) => rebalFind (fun k => uns (a.val p k)) p.lanes (p.rank L)
    let q := resultY w (.reg ⟨d.val, by omega⟩) (a.stale p) (fun L => ((f L).1, 0)) p
    if w then q else q.vset (d.val + 1) p.xm (fun L => (f L).2)) s

/-- R117: ELECT. -/
def execElect (q : PReg) (s : State) : Out :=
  done (fun p => p.pset q.val (match p.lanes with
    | [] => 0
    | L :: _ => (1 : Word) <<< L)) s

/-- R121: NZS. -/
def execNzs (w : Bool) (d : VDst) (a : VSrc) (b : SDst) (s : State) : Out :=
  done (fun p =>
    let nz := p.lanes.filter (fun k => a.val p k != 0)
    b.write (resultY w d (a.stale p) (fun L =>
      (match nz[p.rank L]? with
        | some k => wordOfNat k
        | none => 0xFFFFFFFF, 0)) p) (wordOfNat nz.length)) s

/-- R122: the queue of its core that a pane's special functions enter. -/
def Pane.sfnQueue (p : Pane) : Nat := p.place.slot.getD p.lastSlot / 4

/-- R122: the issues that a queue of a core holds, by the cycles at which their last passes end. -/
def State.sfnHeld (s : State) (core q : Nat) : List Nat := ((s.core core).sfnQ.getD q []).filter (fun e => decide (s.cycle < e))

/-- R122: the passes of an issue, one for each group of eight lanes that holds an active lane. -/
def sfnPasses (xm : Word) : Nat := ((List.range 4).filter (fun g => bits xm (8 * g) 8 != 0)).length

/-- R122: the cycle at which an issue has made its last pass, one pass in a cycle behind the issues before it (log entry 94). -/
def State.sfnEnds (s : State) (core q : Nat) (xm : Word) : Nat :=
  ((s.sfnHeld core q).foldl max s.cycle) + sfnPasses xm

/-- An issue enters its queue. -/
def State.sfnEnter (s : State) (core q ends : Nat) : State :=
  s.modCore core (fun c => { c with sfnQ := setAt c.sfnQ q (s.sfnHeld core q ++ [ends]) })

def Pane.setTok (p : Pane) (k : Nat) (t : Tok) : Pane := { p with tk := setAt p.tk k t }

/-- R123: SFN. -/
def execSfn (w : Bool) (fn : SfnOp) (tk : Fin 16) (d : VDst) (a : VSrc) (s : State) : Out :=
  let p := s.pane
  if p.tk.getD tk.val .free ≠ .free then .next (takeTrap cOperand s.word s)
  else if p.xm = 0 then done (fun p => p.setTok tk.val .done) s
  else if 4 ≤ (s.sfnHeld p.core p.sfnQueue).length then .next (held s)
  else
    let r : List (Nat × Word × Word) := p.lanes.map (fun L => (L, sfnVal p.ftz fn (a.val p L)))
    let dest := match w, d with
      | false, .reg n => some n
      | _, _ => none
    let ends := s.sfnEnds p.core p.sfnQueue p.xm
    done (fun p => (p.setTok tk.val (.pending dest (r.map (fun e => (e.1, e.2.1)))
      (r.foldl (fun acc (e : Nat × Word × Word) => acc ||| e.2.2) 0) ends)).stale (a.stale p)) (s.sfnEnter p.core p.sfnQueue ends)

/-- R123: a special function completes once its last pass is made: its results, its flags, its token done. -/
def execSfnComplete (pid : Nat) (tk : Fin 16) (s : State) : Out :=
  match (s.getPane pid).bind (fun p => p.tk[tk.val]?) with
  | some (.pending d vals flags ends) =>
      .next (if s.cycle < ends then s else s.modPane pid (fun p =>
        let p := match d with
          | some n => p.vset n.val (maskOf (fun L => vals.any (fun (e : Nat × Word) => e.1 == L)))
              (fun L => ((vals.find? (fun (e : Nat × Word) => e.1 == L)).map Prod.snd).getD 0)
          | none => p
        (p.flag flags).setTok tk.val .done))
  | _ => .next s

end Sys2Proof.Machine
end

