-- ==== Sys2Proof/Machine/Logic.lean ====
section
/-! DEFINITION. The Y-pipe logic words and the uniform words (R86 to R90). -/

namespace Sys2Proof.Machine

/-- R86: AND. -/
def execAnd (w : Bool) (d : VDst) (a b : VSrc) (s : State) : Out :=
  done (yVV w d a b (· &&& ·)) s

/-- R86: OR. -/
def execOr (w : Bool) (d : VDst) (a b : VSrc) (s : State) : Out :=
  done (yVV w d a b (· ||| ·)) s

/-- R86: XOR. -/
def execXor (w : Bool) (d : VDst) (a b : VSrc) (s : State) : Out :=
  done (yVV w d a b (· ^^^ ·)) s

/-- R86: ANDN. -/
def execAndn (w : Bool) (d : VDst) (a b : VSrc) (s : State) : Out :=
  done (yVV w d a b (fun x y => x &&& ~~~y)) s

/-- R86: SHL. -/
def execShl (w : Bool) (d : VDst) (a b : VSrc) (s : State) : Out :=
  done (yVV w d a b shlVal) s

/-- R86: SHR. -/
def execShr (w : Bool) (d : VDst) (a b : VSrc) (s : State) : Out :=
  done (yVV w d a b shrVal) s

/-- R86: SAR. -/
def execSar (w : Bool) (d : VDst) (a b : VSrc) (s : State) : Out :=
  done (yVV w d a b sarVal) s

/-- R86: ROTL. -/
def execRotl (w : Bool) (d : VDst) (a b : VSrc) (s : State) : Out :=
  done (yVV w d a b rotlVal) s

/-- R87: BFX. -/
def execBfx (w : Bool) (sg : Bool) (d : VDst) (a b : VSrc) (s : State) : Out :=
  done (yVV w d a b (bfxVal sg)) s

/-- R87: BFI into the destination. -/
def execBfi (w : Bool) (d : VDst) (a b : VSrc) (s : State) : Out :=
  done (fun p =>
    resultY w d (a.stale p || b.stale p) (fun L => (bfiVal (d.val p L) (a.val p L) (b.val p L), 0)) p) s

/-- R88: POPC. -/
def execPopc (w : Bool) (d : VDst) (a : VSrc) (s : State) : Out :=
  done (yV w d a popcVal) s

/-- R88: CLZ. -/
def execClz (w : Bool) (d : VDst) (a : VSrc) (s : State) : Out :=
  done (yV w d a clzVal) s

/-- R88: BREV. -/
def execBrev (w : Bool) (d : VDst) (a : VSrc) (s : State) : Out :=
  done (yV w d a brevVal) s

/-- R89: SADD. -/
def execSadd (d : SDst) (a b : SSrc) (s : State) : Out :=
  done (sSS d a b (fun x y => wordOfNat (uns x + uns y))) s

/-- R89: SSUB. -/
def execSsub (d : SDst) (a b : SSrc) (s : State) : Out :=
  done (sSS d a b (fun x y => wordOfInt ((uns x : Int) - uns y))) s

/-- R89: SMUL. -/
def execSmul (d : SDst) (a b : SSrc) (s : State) : Out :=
  done (sSS d a b imulVal) s

/-- R89: SAND. -/
def execSand (d : SDst) (a b : SSrc) (s : State) : Out :=
  done (sSS d a b (· &&& ·)) s

/-- R89: SOR. -/
def execSor (d : SDst) (a b : SSrc) (s : State) : Out :=
  done (sSS d a b (· ||| ·)) s

/-- R89: SSHL. -/
def execSshl (m : ShMode) (d : SDst) (a b : SSrc) (s : State) : Out :=
  done (sSS d a b (sshlVal m)) s

/-- R89: SMOV. -/
def execSmov (d : SDst) (a : SSrc) (s : State) : Out :=
  done (fun p => d.write p (a.val p)) s

/-- R90: SSET writes or combines all 32 bits. -/
def execSset (pd : PReg) (cond : ICond) (m : Comb) (a b : SSrc) (s : State) : Out :=
  done (fun p =>
    p.pset pd.val (maskOf (fun L => combine m (bit (p.preg pd.val) L) (icondHolds cond (a.val p) (b.val p))))) s

/-- R89: SLEA. -/
def execSlea (sh : Fin 4) (d : SDst) (a b : SSrc) (s : State) : Out :=
  done (sSS d a b (leaVal sh.val)) s

/-- R89: SMOV of an immediate. -/
def execSmovImm (d : SDst) (imm : BitVec 16) (s : State) : Out :=
  done (fun p => d.write p (immWord imm)) s

/-- R89: SADD of an immediate. -/
def execSaddImm (d : SDst) (imm : BitVec 16) (s : State) : Out :=
  done (fun p => d.write p (wordOfNat (uns (d.val p) + uns (immWord imm)))) s

end Sys2Proof.Machine
end

