-- ==== Sys2Proof/Machine/MxMath.lean ====
section
/-! DEFINITION. The arithmetic of the matrix engines on patterns: tile-step accumulation, bit-plane values, the Hadamard
transform and quantisation (R60, R61, R69 to R73). -/

namespace Sys2Proof.Machine

/-! ### Accumulation (R69 to R71) -/

/-- acc + num * 2^e rounded once; `negz` says that every term of an exact zero is a negative zero; with `sat` an overflow
gives the largest finite value (R71). A NaN or infinite accumulator is kept. -/
def mxRound (acc : Word) (num e : Int) (negz sat : Bool) : Word :=
  match unpack32 false acc with
  | .fin s m g =>
      let (x, y) := addDy (signed s m) g num e
      let (p, fl) := roundDy F32 .rn false (s && negz && m == 0) x y
      if sat ∧ fl &&& fOF ≠ 0 then wordOfNat (F32.signPat (decide (x < 0)) + F32.maxPat) else wordOfNat p
  | _ => acc

/-- acc plus an infinity. -/
def mxAddInf (acc : Word) (neg : Bool) : Word :=
  match unpack32 false acc with
  | .nan _ _ => acc
  | .inf s => if s = neg then acc else wordOfNat F32.nanPat
  | .fin _ _ _ => wordOfNat (F32.infPat neg)

/-- The terms of a sum so far: the finite part, the signs of infinite terms, whether a term is NaN, whether every term is
a negative zero. -/
structure MxSum where
  num  : Int := 0
  exp  : Int := 0
  pinf : Bool := false
  ninf : Bool := false
  bad  : Bool := false
  negz : Bool := true
  deriving DecidableEq, Repr

/-- One product more. -/
def MxSum.term (t : MxSum) (a b : FNum) : MxSum :=
  if a.isNan || b.isNan then { t with bad := true }
  else
    match mulNum a b with
    | none => { t with bad := true }
    | some (.inf s) => if s then { t with ninf := true } else { t with pinf := true }
    | some (.fin s m e) =>
        let (x, y) := addDy t.num t.exp (signed s m) e
        { t with num := x, exp := y, negz := t.negz && s && m == 0 }
    | some (.nan _ _) => { t with bad := true }

/-- R69: one element of an FP16 or BF16 step. The sum of a step without a term counts as −0, so that an accumulator of −0
keeps its sign (log entry 91, DESIGN CHOICE). -/
def mxFp (acc : Word) (sat : Bool) (a b : List FNum) : Word :=
  if (unpack32 false acc).isNan then acc
  else
    let t := (a.zip b).foldl (fun t p => t.term p.1 p.2) ({} : MxSum)
    if t.bad || (t.pinf && t.ninf) then wordOfNat F32.nanPat
    else if t.pinf then mxAddInf acc false
    else if t.ninf then mxAddInf acc true
    else mxRound acc t.num t.exp t.negz sat

/-- R60, R61: the value of element i of a block of p planes. -/
def bpVal (planes : List Word) (mid : Bool) (i : Nat) : Int :=
  let p := planes.length
  let w := (List.range p).foldl (fun n k => if bit (planes.getD k 0) i then n + 2 ^ (7 - k) else n) 0
  sExt w 8 + (if mid && decide (p < 8) then 2 ^ (7 - p) else 0)

def bpVals (planes : List Word) (mid : Bool) : List Int := (List.range 32).map (bpVal planes mid)

/-- R70: one accumulation block; the flag says that the scale product overflowed with MXSAT = 0. -/
def mxBlock (acc : Word) (sat : Bool) (ea eb : Nat) (a b : List Int) : Word × Bool :=
  let dot := (a.zip b).foldl (fun n p => n + p.1 * p.2) 0
  let e : Int := (ea : Int) + eb - 254
  if ea = 0xFF ∨ eb = 0xFF then
    (if (unpack32 false acc).isNan then acc else wordOfNat F32.nanPat, false)
  else if (roundDy F32 .rn false false dot e).2 &&& fOF ≠ 0 then
    if sat then (mxRound acc (if dot < 0 then -(2 ^ 24 - 1) else 2 ^ 24 - 1) 104 false sat, false)
    else (mxAddInf acc (decide (dot < 0)), true)
  else (mxRound acc dot e false sat, false)

/-- R70: one element of a bit-plane step: the values of 64 elements, the scales of their scale blocks of LA and LB. -/
def mxBp (acc : Word) (sat : Bool) (la lb : Nat) (a b : List Int) (ea eb : List Nat) : Word × Bool :=
  let l := min la lb
  (List.range (64 / l)).foldl (fun (r : Word × Bool) k =>
    let o := k * l
    let x := mxBlock r.1 sat (ea.getD (o / la) 0xFF) (eb.getD (o / lb) 0xFF) ((a.drop o).take l) ((b.drop o).take l)
    (x.1, r.2 || x.2)) (acc, false)

/-! ### The Hadamard transform (R72) and quantisation (R73) -/

/-- The exact sum of row i of H with a block. -/
def hadSum (xs : List FNum) (i : Nat) : Option (Int × Int) :=
  (List.range xs.length).foldl (fun acc j =>
    match acc, xs.getD j (.fin false 0 0) with
    | some (n, e), .fin s m g =>
        let neg := popCount (wordOfNat i &&& wordOfNat j) % 2 == 1
        some (addDy n e (signed (s != neg) m) g)
    | _, _ => none) (some (0, 0))

/-- n * 2^e divided by 4 * sqrt 2, rounded to F32: the root to 60 further bits, its remainder as a sticky bit (it is never
exact). -/
def hadRoot (n : Int) (e : Int) : Nat :=
  if n = 0 then 0
  else
    let m := n.natAbs
    let r := isqrt (2 * m * m * 2 ^ 120) 130 0
    (roundFin F32 .rn false (decide (n < 0)) (2 * r + 1) (e - 64)).1

/-- R72: the transform of a block of 16 or 32. -/
def hadBlock (xs : List FNum) : List FNum :=
  (List.range xs.length).map (fun i =>
    match hadSum xs i with
    | none => .nan false false
    | some (n, e) => unpack F32 false (if xs.length = 16 then (roundDy F32 .rn false false n (e - 2)).1 else hadRoot n e))

/-- A list cut into blocks of n. -/
def blocksOf {α : Type} (n : Nat) (xs : List α) : List (List α) :=
  (List.range (xs.length / n)).map (fun i => (xs.drop (i * n)).take n)

/-- The larger of two magnitudes. -/
def maxMag (a b : Nat × Int) : Nat × Int :=
  let g := min a.2 b.2
  if a.1 * 2 ^ (a.2 - g).toNat < b.1 * 2 ^ (b.2 - g).toNat then b else a

/-- R73: the least k with m * 2^(e - k) ≤ 127, raised to -127. -/
def quantExp (m : Nat) (e : Int) : Int :=
  let lg := Nat.log2 m
  let j : Int := if m * 64 ≤ 127 * 2 ^ lg then (lg : Int) - 6 else (lg : Int) - 5
  max (e + j) (-127)

/-- R73: a scale block: the scale byte and the elements. -/
def quantBlock (ys : List FNum) : Nat × List Int :=
  if ys.any (fun y => match y with
      | .fin _ _ _ => false
      | _ => true) then (0xFF, ys.map (fun _ => 0))
  else
    let mags := ys.map (fun y => match y with
      | .fin _ m e => (m, e)
      | _ => (0, 0))
    let (m, e) := mags.foldl maxMag (0, 0)
    if m = 0 then (127, ys.map (fun _ => 0))
    else
      let k := quantExp m e
      ((k + 127).toNat, ys.map (fun y => match y with
        | .fin s m e => satS (signed s (roundMag .rn s m (e - k)).1) 8
        | _ => 0))

/-- R60: the eight planes of 32 elements. -/
def planesOf (xs : List Int) : List Word :=
  (List.range 8).map (fun k => maskOf (fun i => bit (wordOfInt (xs.getD i 0)) (7 - k)))

end Sys2Proof.Machine
end

