-- ==== Sys2Proof/Machine/Matrix.lean ====
section
/-! DEFINITION. The matrix engines: the words that queue units, the units as the engine runs them, batches, WAITMB, errors
and resets (R182 to R207). -/

namespace Sys2Proof.Machine

/-! ### Records in the scratchpad (R185 to R187) -/

/-- n bytes of the team's scratchpad; none outside the allocation. -/
def State.spRead (s : State) (p : Pane) (a n : Nat) : Option (List Byte) :=
  if a + n ≤ s.scratch p then some (Mem.readN s.ds (s.spds p + a) n) else none

/-- What a record holds, or the KIND that its reading gives. -/
inductive MRead (α : Type) where
  | ok (x : α)
  | bad (kind : Nat)

/-- A record of n bytes aligned on n, as a number. -/
def State.spRec (s : State) (p : Pane) (a n : Nat) : MRead Nat :=
  if a % n ≠ 0 then .bad 4
  else
    match s.spRead p a n with
    | none => .bad 4
    | some b => .ok (ofBytes b)

/-- R185: a layout record. -/
def Layout.parse (x : Nat) : MRead Layout :=
  let dims := (List.range 4).map (fun j => (sExt (nbitsOf x (44 + 32 * j) 20) 20, nbitsOf x (32 + 32 * j) 12))
  if nbitsOf x 160 96 ≠ 0 ∨ nbitsOf x 19 13 ≠ 0 ∨ dims.any (fun d => d.2 == 0) = true then .bad 3
  else .ok ⟨nbitsOf x 0 19, dims⟩

/-- R186: the number of units. -/
def Layout.units (l : Layout) : Nat := l.dims.foldl (fun n d => n * d.2) 1

/-- R186: the address of unit t. -/
def Layout.addr (l : Layout) (t : Nat) : Int :=
  (l.dims.foldl (fun (r : Int × Nat) d => (r.1 + (r.2 % d.2 : Nat) * d.1, r.2 / d.2)) ((l.base : Int), t)).1

def State.layout (s : State) (p : Pane) (a : Nat) : MRead Layout :=
  match s.spRec p a 32 with
  | .bad k => .bad k
  | .ok x => Layout.parse x

/-- The fields of a format word (R187). -/
def MFmt.fmt (f : MFmt) : Nat := bits f.word 0 3
def MFmt.apl (f : MFmt) : Nat := bits f.word 3 3 + 1
def MFmt.bpl (f : MFmt) : Nat := bits f.word 6 3 + 1
def MFmt.la (f : MFmt) : Nat := if bit f.word 11 then 32 else 16
def MFmt.lb (f : MFmt) : Nat := if bit f.word 12 then 32 else 16

/-- The two fields the collector compares (R191). -/
def MFmt.key (f : MFmt) : Nat × Nat := (f.fmt, bits f.word 3 3)

/-- R187: a format block's 16 bytes. -/
def MFmt.raw (x : Nat) : MFmt := ⟨wordOfNat x, nbitsOf x 32 19, nbitsOf x 64 19⟩

def MFmt.parse (x : Nat) : MRead MFmt :=
  let f := MFmt.raw x
  if bits f.word 13 19 ≠ 0 ∨ 2 < f.fmt ∨ nbitsOf x 96 32 ≠ 0 then .bad 3
  else if f.fmt < 2 then (if bits f.word 3 10 ≠ 0 then .bad 3 else .ok f)
  else if f.apl = 1 ∨ f.bpl = 1 ∨ nbitsOf x 51 13 ≠ 0 ∨ nbitsOf x 83 13 ≠ 0 then .bad 3
  else .ok f

/-- R194: MXQ uses ALB and ASCL alone, of a block whose reserved fields are 0 (R187, R207). -/
def MFmt.parseQ (x : Nat) : MRead MFmt :=
  let f := MFmt.raw x
  if f.fmt ≠ 2 ∨ bits f.word 13 19 ≠ 0 ∨ nbitsOf x 96 32 ≠ 0 ∨ nbitsOf x 51 13 ≠ 0 ∨ nbitsOf x 83 13 ≠ 0 then .bad 3
  else .ok f

/-! ### Checks of a unit (R189, R207) -/

/-- Whether every unit of some numbers is aligned and inside the allocation. -/
def Layout.inside (l : Layout) (scratch size : Nat) (ts : List Nat) : Bool :=
  ts.all (fun t => let a := l.addr t
    decide (0 ≤ a) && decide (a % (size : Int) = 0) && decide (a + (size : Int) ≤ (scratch : Int)))

/-- The size of a unit of an operand. -/
def MFmt.unitSize (f : MFmt) : Nat := if f.fmt = 2 then 32 else 2

/-- How many units of B (or A) a depth K takes (R186). -/
def MFmt.unitCount (f : MFmt) (k : Nat) : Nat := if f.fmt = 2 then k else 32 * k

/-- The depth of a step. -/
def MFmt.depth (f : MFmt) : Nat := if f.fmt = 2 then 64 else 16

/-- The rows of a mask. -/
def topRow (xm : Word) : Nat := if xm = 0 then 0 else Nat.log2 xm.toNat + 1

/-- The scales of a bit-plane unit lie inside the allocation. -/
def MFmt.scalesOk (f : MFmt) (scratch rows k : Nat) : Bool :=
  f.fmt != 2 || (decide (f.ascl + rows * (k / f.la) ≤ scratch) && decide (f.bscl + 32 * (k / f.lb) ≤ scratch))

/-- The records of an MMA, MMAS or MMAT: layout of B, of A, format block and depth, or the KIND of the error unit; checked
format block first, then layouts, then sizes, then addresses (log entry 32). -/
def State.mmaChecks (s : State) (p : Pane) (kind : MKind) (f : MRead MFmt) (lb la : MRead Layout) (d idx : Nat) :
    MRead (MFmt × Layout × Layout × Nat) :=
  let n := s.scratch p
  match f, lb, la with
  | .bad k, _, _ => .bad k
  | _, .bad k, _ => .bad k
  | _, _, .bad k => .bad k
  | .ok f, .ok b, .ok a =>
      match kind with
      | .mmat =>
          let k := b.units / 32
          if b.units % 32 ≠ 0 ∨ k = 0 ∨ 1024 < k ∨ k % f.depth ≠ 0 ∨ a.units ≠ 32 * k then .bad 3
          else if b.inside n f.unitSize (List.range (f.unitCount k)) && a.inside n f.unitSize (List.range (f.unitCount k)) &&
              f.scalesOk n 32 k then .ok (f, b, a, k)
          else .bad 4
      | .mmas =>
          if f.fmt = 2 ∨ b.units % 32 ≠ 0 then .bad 3
          else if idx % 32 ≠ 0 ∨ n < idx + 32 then .bad 4
          else .ok (f, b, a, b.units / 32)
      | _ =>
          let k := f.depth
          if b.units ≠ f.unitCount k ∨ (f.fmt = 2 ∧ p.nregs < d + 2 * f.apl) then .bad 3
          else if b.inside n f.unitSize (List.range b.units) && f.scalesOk n (topRow p.xm) k then .ok (f, b, a, k)
          else .bad 4

/-! ### Issue (R183, R189, R201) -/

/-- Whether the pane's earlier SP and DS stores have been performed. -/
def State.spSettled (s : State) (pid : Nat) : Bool :=
  (s.paneReqs pid).all (fun r => !(r.space == .sp || r.space == .ds) || !(r.isWrite || r.kind == .atomic) ||
    r.lanes.all (fun l => l.stage == .landed || (match l.stage with
      | .failed _ => true
      | _ => false)))

/-- A matrix word, which is a memory word (R238): nothing with XM = 0, of MMAT too (R189, R207; log entry 108); no more than 16 units (R183);
not before the stores its records follow (R189) nor what a fence or an acquired access orders before it (R241). -/
def mxWord (s : State) (k : State → State) : Out :=
  let p := s.pane
  if p.xm = 0 then .next s
  else if s.memMayIssue = false ∨ 16 ≤ p.mx.units.length ∨ s.spSettled p.pid = false then .next (held s)
  else .next (k s)

/-- The unit joins the queue and the open set. -/
def queueUnit (u : MUnit) (s : State) : State :=
  onPane (fun p => { p with mx := { p.mx with units := p.mx.units ++ [u], openN := p.mx.openN + 1 } }) s

/-- The runs of vector registers a unit captures, in all 32 lanes; a register past the pane's count is captured as empty, which reads 0:
only an error unit names one (R191; DESIGN CHOICE, log entry 103). -/
def Pane.vRun (p : Pane) (d n : Nat) : List (List Word) := (List.range n).map (fun i => p.v.getD (d + i) [])

/-- The number a read gives, 0 where it fails. -/
def MRead.getD {α : Type} (r : MRead α) (x : α) : α :=
  match r with
  | .ok y => y
  | .bad _ => x

/-- R191: the A operand of an MMA or MMAS, and what its word leaves in the collector; the registers that the format word
itself counts, be the block valid or not. -/
def Pane.collect (p : Pane) (key : Option (Nat × Nat)) (own : List (List Word)) (ru : Bool) : List (List Word) × Option Collector :=
  let a := match p.mx.coll with
    | some c => if c.key.isSome ∧ c.key = key then c.aop else own
    | none => own
  (a, if ru then some ⟨key, a⟩ else none)

/-- MMA and MMAS. -/
def mmaIssue (kind : MKind) (d : Fin 113) (a : Fin 63) (acc ru : Bool) (idx : Nat) (s : State) : State :=
  let p := s.pane
  let raw := s.spRec p (uns (p.sreg (a.val + 1))) 16
  let key := match raw with
    | .ok x => some (MFmt.raw x).key
    | .bad _ => none
  let f := match raw with
    | .ok x => MFmt.parse x
    | .bad k => .bad k
  let n := match raw with
    | .ok x => if (MFmt.raw x).fmt = 2 then 2 * (MFmt.raw x).apl else 8
    | .bad _ => 8
  let (aop, coll) := p.collect key (p.vRun d.val n) ru
  let u := match s.mmaChecks p kind f (s.layout p (uns (p.sreg a.val))) (.ok {}) d.val idx with
    | .bad k => ({ kind := kind, xm := p.xm, acc := acc, bad := k } : MUnit)
    | .ok (g, b, _, k) => { kind := kind, xm := p.xm, sat := p.mxsat, acc := acc, lay := b, fmt := g, aop := aop, idx := idx, k := k }
  queueUnit u (onPane (fun p => { p with mx := { p.mx with coll := coll } }) s)

/-- R190: MMA. -/
def execMma (d : Fin 113) (a : Fin 63) (acc ru : Bool) (s : State) : Out :=
  mxWord s (mmaIssue .mma d a acc ru 0)

/-- R192: MMAS. -/
def execMmas (d : Fin 113) (a : Fin 63) (acc ru : Bool) (i : Fin 32) (s : State) : Out :=
  mxWord s (fun s => mmaIssue .mmas d a acc ru (uns (s.pane.sreg i.val)) s)

/-- R193: MMAT. -/
def execMmat (d : Fin 113) (a : Fin 63) (acc : Bool) (s : State) : Out :=
  mxWord s (fun s =>
    let p := s.pane
    let f := match s.spRec p (uns (p.sreg (a.val + 1))) 16 with
      | .ok x => MFmt.parse x
      | .bad k => .bad k
    let va := uns (p.vreg d.val (p.lanes.headD 0))
    queueUnit (match s.mmaChecks p .mmat f (s.layout p (uns (p.sreg a.val))) (s.layout p va) d.val 0 with
      | .bad k => { kind := .mmat, xm := p.xm, acc := acc, bad := k }
      | .ok (g, b, la, k) =>
          { kind := .mmat, xm := p.xm, sat := p.mxsat, acc := acc, lay := b, layA := la, fmt := g, k := k }) s)

/-- R194: MXQ. -/
def execMxq (d : Fin 63) (a : Fin 105) (had : HadMode) (s : State) : Out :=
  mxWord s (fun s =>
    let p := s.pane
    let n := s.scratch p
    let f := match s.spRec p (uns (p.sreg (d.val + 1))) 16 with
      | .ok x => MFmt.parseQ x
      | .bad k => .bad k
    queueUnit (match f, s.layout p (uns (p.sreg d.val)) with
      | .bad k, _ => { kind := .mxq, xm := p.xm, bad := k }
      | _, .bad k => { kind := .mxq, xm := p.xm, bad := k }
      | .ok f, .ok l =>
          if l.units ≠ 32 then { kind := .mxq, xm := p.xm, bad := 3 }
          else if l.inside n 32 p.lanes && decide (f.ascl + topRow p.xm * (32 / f.la) ≤ n) then
            { kind := .mxq, xm := p.xm, lay := l, fmt := f, had := had, aop := p.vRun a.val 16 }
          else { kind := .mxq, xm := p.xm, bad := 4 }) s)

/-- R195: MXRD. -/
def execMxrd (w : Bool) (d : Fin 113) (acc : Bool) (g : Fin 4) (s : State) : Out :=
  mxWord s (fun s => queueUnit { kind := .mxrd, xm := s.pane.xm, acc := acc, d := d.val, g := g.val, w := w } s)

/-- R196: MXST. -/
def execMxst (a : Fin 63) (acc : Bool) (s : State) : Out :=
  mxWord s (fun s =>
    let p := s.pane
    queueUnit (match s.layout p (uns (p.sreg a.val)) with
      | .bad k => { kind := .mxst, xm := p.xm, acc := acc, bad := k }
      | .ok l =>
          if l.units ≠ 1024 then { kind := .mxst, xm := p.xm, acc := acc, bad := 3 }
          else if l.inside (s.scratch p) 4 ((List.range 1024).filter (fun t => p.active (t / 32))) then
            { kind := .mxst, xm := p.xm, acc := acc, lay := l }
          else { kind := .mxst, xm := p.xm, acc := acc, bad := 4 }) s)

/-- R197: MXCLR. -/
def execMxclr (acc : Bool) (s : State) : Out :=
  mxWord s (fun s => queueUnit { kind := .mxclr, xm := s.pane.xm, acc := acc } s)

/-! ### Batches (R198, R199, R200) -/

/-- The error of a later unit beside those gathered. -/
def MErr.add (e : MErr) (kind banks accs : Nat) : MErr :=
  { e with kind := if e.kind = 0 then kind else e.kind, banks := e.banks ||| banks, accs := e.accs ||| accs }

/-- What a batch ends as. -/
def MErr.batch (e : MErr) : Batch :=
  if e.lost then { status := .reset, kind := 2, accs := 3 }
  else if e.kind ≠ 0 then { status := .mxerr, kind := e.kind, banks := e.banks, accs := e.accs }
  else {}

/-- Batches complete in closing order, each when none of its units is left. -/
def MxPane.settle (m : MxPane) : Nat → MxPane
  | 0 => m
  | n + 1 =>
      match m.order with
      | [] => m
      | b :: r =>
          if m.units.any (fun u => u.batch == some b) then m
          else MxPane.settle
            { m with order := r, batches := setAt m.batches b (m.errs.getD b {}).batch, errs := setAt m.errs b {} } n

def MxPane.done (m : MxPane) : MxPane := m.settle m.order.length

/-- R198: the open set is closed; units that a reset marks are discarded (R206). -/
def MxPane.close (m : MxPane) : MxPane :=
  let n := m.next.toNat
  let e := if m.marked then { m.openErr with lost := true } else m.openErr
  let us := if m.marked then m.units.filter (fun u => u.batch.isSome)
    else m.units.map (fun u => if u.batch.isNone then { u with batch := some n } else u)
  MxPane.done { m with units := us, batches := setAt m.batches n { pending := true }, errs := setAt m.errs n e,
                       next := m.next + 1, openN := 0, openErr := {}, marked := false, order := m.order ++ [n] }

/-- R198: MXFENCE. -/
def execMxfence (s : State) : Out :=
  let m := s.pane.mx
  if (m.batches.getD m.next.toNat {}).pending then .next (held s)
  else done (fun p => { p with mx := m.close }) s

/-- R200: the detail word. -/
def Batch.detail (b : Batch) (n : Nat) : Word := wordOfNat (b.banks * 2 ^ 10 + b.accs * 2 ^ 8 + b.kind * 2 ^ 5 + n)

/-- R199: WAITMB; trap entry sets the batch's status to OK. -/
def execWaitmb (mask : BitVec 8) (s : State) : Out :=
  let m := s.pane.mx
  let named := (List.range 8).filter (fun b => mask.getLsbD b)
  if s.pane.wait = .begun ∧ named.all (fun b => !(m.batches.getD b {}).pending) = true then
    match named.find? (fun b => (m.batches.getD b {}).status != .ok) with
    | some b => .next (takeTrap cMatrix ((m.batches.getD b {}).detail b) s)
    | none => done (fun p => { p with wait := .none }) s
  else .next (ended (onPane (fun p => { p with wait := .begun }) s))

/-! ### The engine's choice (R183) -/

/-- A pane's place in the round-robin: the slot it holds, before the panes that held it last, those in the order of their
numbers (log entry 92, DESIGN CHOICE). -/
def Pane.mxPlace (p : Pane) : Nat :=
  (match p.place.slot with
    | some k => 2 * k
    | none => 2 * p.lastSlot + 1) * 2 ^ 40 + p.pid

/-- Whether a pane's head unit may run: not in a departure, nor discarded at the next MXFENCE (R203, R206). -/
def Pane.mxReady (p : Pane) : Bool :=
  !p.moving && !p.restoring && (match p.mx.units with
    | [] => false
    | u :: _ => !(p.mx.marked && u.batch.isNone))

/-- The pane whose unit an engine that is not hung runs, on a frozen die as well. -/
def State.mxUp (s : State) (core e : Nat) : Option Pane :=
  let eng := (s.core core).engs.getD e {}
  if eng.hung then none
  else
    let ps := (s.corePanes core).filter (fun p => p.mx.tileSet == some e && p.mxReady)
    let lt := fun (a b : Pane) => decide (a.mxPlace < b.mxPlace)
    (firstBy lt (ps.filter (fun p => decide (eng.rr < p.mxPlace)))).orElse (fun _ => firstBy lt ps)

/-- The pane whose unit the engine runs next; none on a frozen die (R391). -/
def State.mxNext (s : State) (core e : Nat) : Option Pane := if (s.die (dieOf core)).frozen then none else s.mxUp core e

/-- The pane and its unit, where it is of a kind. -/
def State.mxPick (s : State) (core e : Nat) (is : MKind → Bool) : Option (Pane × MUnit) :=
  (s.mxNext core e).bind (fun p =>
    match p.mx.units with
    | u :: _ => if is u.kind then some (p, u) else none
    | [] => none)

/-- The engine has run a unit, or a step of it, of a pane: its place, the error it met, and the unit gone if it is last. -/
def State.mxRan (s : State) (core e : Nat) (p : Pane) (u : MUnit) (last : Bool) (err : Option (Nat × Nat × Nat)) : State :=
  let s := s.modCore core (fun c => { c with engs := setAt c.engs e { c.engs.getD e {} with rr := p.mxPlace } })
  s.modPane p.pid (fun p =>
    let m := p.mx
    let note := fun (x : MErr) => match err with
      | some (k, b, a) => x.add k b a
      | none => x
    let m := match u.batch with
      | some b => { m with errs := setAt m.errs b (note (m.errs.getD b {})) }
      | none => { m with openErr := note m.openErr }
    { p with mx := MxPane.done { m with units := if last then m.units.tail else { u with step := u.step + 1 } :: m.units.tail } })

/-- An error unit runs: nothing but its batch's error (R189). -/
def State.mxBad (s : State) (core e : Nat) (p : Pane) (u : MUnit) (kind : Nat) : State :=
  s.mxRan core e p u true (some (kind, 0, 0))

/-- The tile of a unit. -/
def MxPane.tile (m : MxPane) (acc : Bool) : List (List Word) := if acc then m.ta1 else m.ta0

def MxPane.setTile (m : MxPane) (acc : Bool) (t : List (List Word)) : MxPane :=
  if acc then { m with ta1 := t } else { m with ta0 := t }

/-! ### The steps (R188, R190 to R193, R204) -/

/-- The number at a layout address. -/
def State.spNum (s : State) (p : Pane) (a : Int) (n : Nat) : Nat := ofBytes (Mem.readN s.ds (s.spds p + a.toNat) n)

/-- The depth over which a unit's B layout numbers its rows. -/
def MUnit.rowsB (u : MUnit) : Nat := match u.kind with
  | .mma => u.fmt.depth
  | _ => u.k

/-- The rows of B a step of FMT 0 or 1 takes; none for an entry of 0xFFFF. -/
def State.stepRows (s : State) (p : Pane) (u : MUnit) : List (Option Nat) :=
  match u.kind with
  | .mmas => (List.range 16).map (fun i =>
      let x := s.spNum p ((u.idx + 2 * i : Nat) : Int) 2
      if x = 0xFFFF then none else some x)
  | _ => (List.range 16).map (fun i => some (16 * u.step + i))

/-- The addresses of a column of B in a step. -/
def MUnit.colB (u : MUnit) (rows : List (Option Nat)) (n : Nat) : List Int :=
  if u.fmt.fmt = 2 then [0, 1].map (fun j => u.lay.addr (n * (u.rowsB / 32) + 2 * u.step + j))
  else rows.filterMap (fun r => r.map (fun r => u.lay.addr (n * u.rowsB + r)))

/-- The addresses of a row of A in a step of an MMAT. -/
def MUnit.rowA (u : MUnit) (m : Nat) : List Int :=
  if u.fmt.fmt = 2 then [0, 1].map (fun j => u.layA.addr (m * (u.k / 32) + 2 * u.step + j))
  else (List.range 16).map (fun i => u.layA.addr (m * u.k + 16 * u.step + i))

/-- The addresses of the step's scales of a row or column. -/
def scaleAddrs (base r k l step : Nat) : List Nat := (List.range (64 / l)).map (fun j => base + r * (k / l) + 64 * step / l + j)

/-- The element format of FMT 0 and 1. -/
def MFmt.elem (f : MFmt) : Fmt := if f.fmt = 0 then F16 else BF16

/-- The planes of a block in the scratchpad. -/
def State.spPlanes (s : State) (p : Pane) (a : Int) (n : Nat) : List Word :=
  (List.range n).map (fun (q : Nat) => wordOfNat (s.spNum p (a + 4 * q) 4))

/-- The A elements of a row, FMT 0 or 1. -/
def State.aFp (s : State) (p : Pane) (u : MUnit) (m : Nat) : List FNum :=
  match u.kind with
  | .mmat => (u.rowA m).map (fun a => unpack u.fmt.elem false (s.spNum p a 2))
  | _ => (List.range 16).map (fun k => unpack u.fmt.elem false (bits ((u.aop.getD (k / 2) []).getD m 0) (16 * (k % 2)) 16))

/-- The A values of a row, bit-plane. -/
def State.aBp (s : State) (p : Pane) (u : MUnit) (m : Nat) : List Int :=
  let mid := bit u.fmt.word 9
  match u.kind with
  | .mmat => ((u.rowA m).map (fun a => bpVals (s.spPlanes p a u.fmt.apl) mid)).flatten
  | _ => ([0, 1].map (fun j => bpVals ((List.range u.fmt.apl).map (fun q => (u.aop.getD (j * u.fmt.apl + q) []).getD m 0)) mid)).flatten

/-- An A list without the terms of entries 0xFFFF. -/
def dropNone (rows : List (Option Nat)) (a : List FNum) : List FNum :=
  ((rows.zip a).filter (fun r => r.1.isSome)).map Prod.snd

/-- The rows that a unit's step updates. -/
def MUnit.rows (u : MUnit) : List Nat := match u.kind with
  | .mmat => List.range 32
  | _ => lanesOf u.xm

/-- The tile after a step, and whether a scale product overflowed. -/
def State.stepTile (s : State) (p : Pane) (u : MUnit) (rows : List (Option Nat)) : List (List Word) × Bool :=
  let t := p.mx.tile u.acc
  let f := u.fmt
  if f.fmt = 2 then
    let scale := fun (b r l : Nat) => (scaleAddrs b r (match u.kind with
      | .mmat => u.k
      | _ => 64) l u.step).map (fun (a : Nat) => s.spNum p a 1)
    let cols := (List.range 32).map (fun n =>
      (((u.colB rows n).map (fun a => bpVals (s.spPlanes p a f.bpl) (bit f.word 10))).flatten, scale f.bscl n f.lb))
    let r := (List.range 32).map (fun m =>
      let old := t.getD m []
      if u.rows.contains m then
        let a := s.aBp p u m
        let ea := scale f.ascl m f.la
        (List.range 32).map (fun n => let c := cols.getD n ([], [])
          mxBp (old.getD n 0) u.sat f.la f.lb a c.1 ea c.2)
      else old.map (fun x => (x, false)))
    (r.map (fun l => l.map Prod.fst), r.any (fun l => l.any Prod.snd))
  else
    let cols := (List.range 32).map (fun n => (u.colB rows n).map (fun a => unpack f.elem false (s.spNum p a 2)))
    ((List.range 32).map (fun m =>
      let old := t.getD m []
      if u.rows.contains m then
        let a := dropNone rows (s.aFp p u m)
        (List.range 32).map (fun n => mxFp (old.getD n 0) u.sat a (cols.getD n []))
      else old), false)

/-- The words a step reads from the scratchpad (R188). -/
def MUnit.words (u : MUnit) (rows : List (Option Nat)) : List Nat :=
  let f := u.fmt
  let blk := fun (n : Nat) (a : Int) => if f.fmt = 2 then (List.range n).map (fun q => a.toNat / 4 + q) else [a.toNat / 4]
  let bs := ((List.range 32).map (fun n => ((u.colB rows n).map (blk f.bpl)).flatten)).flatten
  let as := match u.kind with
    | .mmat => ((List.range 32).map (fun m => ((u.rowA m).map (blk f.apl)).flatten)).flatten
    | _ => []
  let ix := match u.kind with
    | .mmas => (List.range 8).map (fun i => u.idx / 4 + i)
    | _ => []
  let k := match u.kind with
    | .mmat => u.k
    | _ => 64
  let sc := if f.fmt = 2 then
      (u.rows.map (fun m => (scaleAddrs f.ascl m k f.la u.step).map (· / 4))).flatten ++
        ((List.range 32).map (fun n => (scaleAddrs f.bscl n k f.lb u.step).map (· / 4))).flatten
    else []
  (bs ++ as ++ ix ++ sc).eraseDups

/-- What a step adds to BCONF: its passes beyond the least number. -/
def bankCost (ws : List Nat) : Nat :=
  let most := (List.range 32).foldl (fun n b => max n (ws.filter (fun w => w % 32 == b)).length) 0
  (most + 7) / 8 - (ws.length + 255) / 256

/-- The rows of poisoned banks. -/
def poisonRows (t : List (List Word)) (rows banks : List Nat) : List (List Word) :=
  (List.range 32).map (fun m =>
    if rows.contains m && banks.contains (m / 8) then List.replicate 32 poisonWord else t.getD m [])

/-- A mask of numbers below 4. -/
def maskNat (l : List Nat) : Nat := ((List.range 4).filter (fun b => l.contains b)).foldl (fun n b => n + 2 ^ b) 0

/-- A step that can run: the tile, BCONF and MXOVF, and the banks that met an operand error (R204). MXOVF is raised for the scale
products of every row the step updates, of a poisoned bank too (R70, R204; DESIGN CHOICE, log entry 103). -/
def State.mxStep (s : State) (core e : Nat) (p : Pane) (u : MUnit) (rows : List (Option Nat)) (banks : List Nat) : State :=
  let (t, ovf) := s.stepTile p u rows
  let part := (u.rows.map (fun m => m / 8)).eraseDups
  let hit := part.filter (fun b => banks.contains b)
  let t := if hit.isEmpty then t else poisonRows t u.rows hit
  let last := match u.kind with
    | .mmat => decide (u.k / u.fmt.depth ≤ u.step + 1)
    | _ => true
  let s := s.modPane p.pid (fun p =>
    { p.flag (flagIf ovf fMXOVF) with
      mx := p.mx.setTile u.acc t, bconf := wordOfNat (min (uns p.bconf + bankCost (u.words rows)) 0xFFFFFFFF) })
  if hit.isEmpty then s.mxRan core e p u last none
  else
    let a := if u.acc then 2 else 1
    (s.mxRan core e p u last (some (1, maskNat hit, a))).record 0x04 p.part (dieOf core)
      ([wordOfNat core, wordOfNat e] ++ ident p.grid p.team p.pord ++ [wordOfNat (maskNat hit * 2 ^ 10 + a * 2 ^ 8 + 2 ^ 5 + u.batch.getD p.mx.next.toNat)])

/-- MATRIX_TILE_STEP: an MMAS whose list is out of range, or names rows out of place, is an error unit. -/
def State.tileStep (s : State) (core e : Nat) (banks : List Nat) : Option State :=
  match s.mxPick core e (fun k => match k with
    | .mma | .mmas | .mmat => true
    | _ => false) with
  | none => none
  | some (p, u) =>
      if u.bad ≠ 0 then some (s.mxBad core e p u u.bad)
      else
        let rows := s.stepRows p u
        if u.kind = .mmas ∧ rows.any (fun r => r.any (fun x => decide (u.k ≤ x))) = true then some (s.mxBad core e p u 5)
        else if u.kind = .mmas ∧ !(u.lay.inside (s.scratch p) 2
            (((List.range 32).map (fun n => rows.filterMap (fun r => r.map (fun r => n * u.k + r)))).flatten)) then
          some (s.mxBad core e p u 4)
        else some (s.mxStep core e p u rows banks)

def execMatrixTileStep (core eng : Nat) (badBanks : List Nat) (s : State) : Out :=
  event s (s.tileStep core eng badBanks)

/-! ### The single operations (R194 to R197) -/

/-- A single operation: an error unit changes nothing. -/
def State.mxOne (s : State) (core e : Nat) (kind : MKind) (f : Pane → MUnit → State → State) : Option State :=
  (s.mxPick core e (fun k => k == kind)).map (fun x =>
    if x.2.bad ≠ 0 then s.mxBad core e x.1 x.2 x.2.bad else (f x.1 x.2 s).mxRan core e x.1 x.2 true none)

/-- The quantised row of a lane: scale bytes and elements. -/
def quantRow (u : MUnit) (L : Nat) : List Nat × List Int :=
  let x := (List.range 32).map (fun k => unpack F16 false (bits ((u.aop.getD (k / 2) []).getD L 0) (16 * (k % 2)) 16))
  let y := match u.had with
    | .plain => x
    | .had16 => ((blocksOf 16 x).map hadBlock).flatten
    | .had32 => hadBlock x
  let q := (blocksOf u.fmt.la y).map quantBlock
  (q.map Prod.fst, (q.map Prod.snd).flatten)

/-- MXQ's effect in a lane. -/
def State.quantLane (s : State) (p : Pane) (u : MUnit) (L : Nat) : State :=
  let (sc, xs) := quantRow u L
  let base := s.spds p
  let m := Mem.writeN s.ds (base + u.fmt.ascl + L * (32 / u.fmt.la)) (sc.map (fun x => BitVec.ofNat 8 x))
  { s with ds := Mem.writeN m (base + (u.lay.addr L).toNat) ((planesOf xs).map (fun w => toBytes 4 w.toNat)).flatten }

/-- MXQ_UNIT. -/
def execMxqUnit (core eng : Nat) (s : State) : Out :=
  event s (s.mxOne core eng .mxq (fun p u s => (lanesOf u.xm).foldl (fun s L => s.quantLane p u L) s))

/-- MXRD_UNIT. -/
def execMxrdUnit (core eng : Nat) (s : State) : Out :=
  event s (s.mxOne core eng .mxrd (fun p u s =>
    if u.w then s
    else s.modPane p.pid (fun q => (List.range 8).foldl (fun q j =>
      q.vset (u.d + j) u.xm (fun m => ((q.mx.tile u.acc).getD m []).getD (8 * u.g + j) 0)) q)))

/-- MXST_UNIT: of two units on the same bytes the later one stands. -/
def execMxstUnit (core eng : Nat) (s : State) : Out :=
  event s (s.mxOne core eng .mxst (fun p u s =>
    let base := s.spds p
    let t := p.mx.tile u.acc
    { s with ds := ((List.range 1024).filter (fun t => bit u.xm (t / 32))).foldl (fun m k =>
        Mem.writeN m (base + (u.lay.addr k).toNat) (toBytes 4 ((t.getD (k / 32) []).getD (k % 32) 0).toNat)) s.ds }))

/-- MXCLR_UNIT. -/
def execMxclrUnit (core eng : Nat) (s : State) : Out :=
  event s (s.mxOne core eng .mxclr (fun p u s => s.modPane p.pid (fun q =>
    { q with mx := q.mx.setTile u.acc ((List.range 32).map (fun m =>
        if bit u.xm m then List.replicate 32 0 else (q.mx.tile u.acc).getD m [])) })))

/-! ### Hangs and resets (R205, R206) -/

/-- MATRIX_WATCHDOG: a step or operation that is running exceeds its bound of 4 us, which a frozen die does not stop (R391). -/
def State.mxHang (s : State) (core e : Nat) : Option State :=
  (s.mxUp core e).map (fun p =>
    ((s.modCore core (fun c => { c with engs := setAt c.engs e { c.engs.getD e {} with hung := true } })).lifeAdd 5
      (2 * core + e)).record 0x05 p.part (dieOf core) ([wordOfNat core, wordOfNat e] ++ ident p.grid p.team p.pord))

def execMatrixWatchdog (core eng : Nat) (s : State) : Out := event s (s.mxHang core eng)

/-- A pane's matrix state after a reset of its engine. -/
def MxPane.reset (m : MxPane) : MxPane :=
  let poison := List.replicate 32 (List.replicate 32 poisonWord)
  MxPane.done { m with ta0 := poison, ta1 := poison, units := [], coll := none,
                       marked := m.marked || decide (0 < m.openN),
                       errs := (List.range 8).map (fun b =>
                         if m.order.contains b then { m.errs.getD b {} with lost := true } else m.errs.getD b {}) }

/-- MXRST: a pane whose restore still runs is outside the core (R142), and stays as it is. -/
def State.mxReset (s : State) (core e : Nat) : State :=
  let s := s.modCore core (fun c => { c with engs := setAt c.engs e { c.engs.getD e {} with hung := false } })
  ((s.corePanes core).filter (fun p => p.mx.tileSet == some e && !p.restoring)).foldl (fun s p =>
    s.modPane p.pid (fun p => { p with mx := p.mx.reset })) s

def execMxrst (core eng : Nat) (s : State) : Out := event s (if eng < 2 then some (s.mxReset core eng) else none)

end Sys2Proof.Machine
end

