-- ==== Sys2Proof/Machine/Power.lean ====
section
/-! DEFINITION. Pane commands (R130, R389), power, temperature and supply (R265, R377, R378, R391), and the lifetime record
(R392, R394). -/

namespace Sys2Proof.Machine

/-! ### PANECMD (R130, R389) -/

/-- The pane a command targets: on its core, parked by TRAP.HOST; it may be on its way out (R140). -/
def State.cmdTarget (s : State) (core grid team pord : Nat) : Option Pane :=
  (s.corePanes core).find? (fun p => p.grid == grid && p.team == team && p.pord == pord &&
    (match p.place with
      | .parked (.host _ _) => true
      | _ => false))

/-- What the RTT of a resumption leads to. -/
inductive Resume where
  | wait
  | failed
  | ready
  deriving DecidableEq, Repr

/-- The entry that the n-th of some pops must first read back from the save area (R22). -/
def refillDue (n : Nat) (s : State) : State × Resume :=
  let p := s.pane
  if p.stack.length < min p.deep (16 + n) then
    match s.readVA p.stackVia (p.stksave + 16 * (p.deep - p.stack.length - 1)) 16 with
    | (s, .wait) => (s, .wait)
    | (s, .fail _) => (s.forget p.stackVia.who, .failed)
    | (s, .ok b) => (onPane (fun p => p.refilled (Entry.ofBytes b)) (s.forget p.stackVia.who), .ready)
  else (s, .ready)

/-- The RTT that a pane parked by a trap without a handler first performs (R129, R130): its pop, XM and the pc. -/
def resumeRtt (s : State) : State × Resume :=
  match refillDue 1 s with
  | (s, .ready) =>
      (match s.pane.stack with
        | [] => (s, .ready)
        | e :: _ =>
            let go := fun (s : State) (k : Pane → Pane) => onPane (fun p =>
              { k p with xm := e.mask, pc := rttTarget e, ibuf := none }) s
            match s.leaves 1 (rttTarget e) with
            | (s, none) => (s, .wait)
            | (s, some false) => (go s Pane.pop, .ready)
            | (s, some true) =>
                match refillDue 2 s with
                | (s, .ready) => (go s (fun p => p.pop.pop), .ready)
                | r => r)
  | r => r

/-- A resumption: the pane becomes ready (R135), or stays parked with a further record where its refill failed; an entry
with SLOT 3 traps again (R21). -/
def State.resumed (s : State) (p : Pane) : State × Resume :=
  match p.place with
  | .parked (.host true _) =>
      let c := s.checkOut p.pid
      match c.pane.stack.head?.filter (fun e => e.slot == 3) with
      | some e => (s.asPane p.pid (takeTrap cTarget (wordOfNat (pcOf e.pkt e.slot))), .failed)
      | none =>
      (match resumeRtt c with
        | (t, .failed) => (({ c with answered := t.answered }.hostRecord 0x0D04 c.pane.stack.head? false).checkOut s.pane.pid, .failed)
        | (t, .wait) => (((c.waited t).getD c).checkOut s.pane.pid, .wait)
        | (t, .ready) => ((t.checkOut s.pane.pid).enqueue p.pid, .ready))
  | _ => (s.enqueue p.pid, .ready)

def State.cmdHeld (s : State) (core : Nat) (b : Bool) : State := s.modCore core (fun c => { c with cmdBusy := b })

/-- Whether a core's command in progress is another than one: BUSY = 1, and other targets in PANECMD. -/
def State.cmdOther (s : State) (core grid team pord : Nat) : Bool :=
  let c := s.core core
  c.cmdBusy && !(c.cmdGrid.toNat == grid && c.cmdTeam.toNat == team && c.cmdPord == pord)

/-- A resume command; BUSY while its refill is held at a page, and the command then goes on when the page is there (R389). -/
def State.paneResume (s : State) (core grid team pord : Nat) : State :=
  if s.cmdOther core grid team pord then s
  else
    match s.cmdTarget core grid team pord with
    | none => s.cmdHeld core false
    | some p =>
        match s.resumed p with
        | (t, .wait) => t.modCore core (fun c =>
            { c with cmdBusy := true, cmdGrid := wordOfNat grid, cmdTeam := wordOfNat team, cmdPord := pord })
        | (t, _) => t.cmdHeld core false

/-- PANECMD_RESUME. -/
def execPanecmdResume (core : Nat) (grid team pord : Nat) (s : State) : Out := .next (s.paneResume core grid team pord)

/-- PANECMD_EXIT: the pane ends as by EXIT (R114); ignored while BUSY = 1. -/
def State.paneExit (s : State) (core grid team pord : Nat) : State :=
  if (s.core core).cmdBusy then s
  else
  match s.cmdTarget core grid team pord with
  | none => s
  | some p => s.endPane p.pid

def execPanecmdExit (core : Nat) (grid team pord : Nat) (s : State) : Out := .next (s.paneExit core grid team pord)

/-! ### Temperature (R391) -/

/-- The unit of an island: a compute die (0 to 63), a base die (64 to 79), an I/O island (none). -/
def islandUnit (i : Nat) : Option Nat :=
  if i < 1024 then some (i / 16) else if i < 1088 then some (64 + (i - 1024) / 4) else none

/-- THERM of a unit: FROZEN, TMAX, TCRIT, TWARN. -/
def State.therm (s : State) (u : Nat) : Bool × Nat × Nat × Nat :=
  if u < 64 then ((s.die u).frozen, (s.die u).tmax, (s.die u).tcrit, (s.die u).twarn)
  else ((s.base (u - 64)).frozen, (s.base (u - 64)).tmax, (s.base (u - 64)).tcrit, (s.base (u - 64)).twarn)

def State.setTherm (s : State) (u : Nat) (x : Bool × Nat × Nat × Nat) : State :=
  if u < 64 then s.modDie u (fun d => { d with frozen := x.1, tmax := x.2.1, tcrit := x.2.2.1, twarn := x.2.2.2 })
  else s.modBase (u - 64) (fun d => { d with frozen := x.1, tmax := x.2.1, tcrit := x.2.2.1, twarn := x.2.2.2 })

/-- The record of a thermal event: island, temperature, whether the unit is frozen (log entry 12). -/
def State.thermRecord (s : State) (u island temp : Nat) (frozen : Bool) : State :=
  s.record 0x0A 0 u [wordOfNat island, wordOfNat temp, boolWord frozen]

/-- The islands of a unit. -/
def unitIslands (u : Nat) : List Nat :=
  if u < 64 then (List.range 16).map (16 * u + ·) else (List.range 4).map (1024 + 4 * (u - 64) + ·)

/-- A report of an island's temperature: TMAX becomes the hottest of those last reported for its unit's islands, and of the TMAX that a
thaw found (R391, log entry 43). -/
def State.reported (s : State) (u island temp : Nat) (frozen : Bool) : State :=
  let s := { s with temps := Tab.set s.temps island temp }
  let x := s.therm u
  s.setTherm u (frozen, (unitIslands u ++ [1104 + u]).foldl (fun m i => max m (Tab.getD s.temps i 0)) 0, x.2.2)

/-- THERMAL_WARNING: an island has reached TWARN. -/
def State.warn (s : State) (island temp : Nat) : Option State :=
  (islandUnit island).bind (fun u =>
    let x := s.therm u
    if x.2.2.2 ≤ temp then some ((s.reported u island temp x.1).thermRecord u island temp x.1) else none)

def execThermalWarning (island : Nat) (temp : Nat) (s : State) : Out := event s (s.warn island temp)

/-- THERMAL_FREEZE: an island has reached TCRIT; its die is frozen. -/
def State.freeze (s : State) (island temp : Nat) : Option State :=
  (islandUnit island).bind (fun u =>
    let x := s.therm u
    if x.2.2.1 ≤ temp then some ((s.reported u island temp true).thermRecord u island temp true) else none)

def execThermalFreeze (island : Nat) (temp : Nat) (s : State) : Out := event s (s.freeze island temp)

/-- A freeze is lifted only while TMAX < TWARN. -/
def State.thaw (s : State) (u : Nat) : State :=
  let x := s.therm u
  if x.2.1 < x.2.2.2 then s.setTherm u (false, x.2) else s

/-- THERM_THAW, with the temperature that the die's sensors give as TMAX. -/
def execThermThaw (die tmax : Nat) (s : State) : Out :=
  event s (if die < 80 then
    (let x := s.therm die
     let temps := Tab.set ((unitIslands die).foldl Tab.erase s.temps) (1104 + die) tmax
     some ((({ s with temps := temps } : State).setTherm die (x.1, tmax, x.2.2)).thaw die)) else none)

/-- DROOP: the clock is stretched, which changes no result; its depth bin is counted (R392). -/
def execDroop (island depth : Nat) (s : State) : Out :=
  event s (if island < 1104 ∧ depth < 8 then some (s.lifeAdd 4 (8 * island + depth)) else none)

/-! ### The lifetime record (R392, R394) -/

/-- The counts are written to flash. -/
def State.flush (s : State) : State := { s with life := { s.life with flash := s.life.ram } }

/-- LIFETIME_FLUSH, every 3,600 s: one more powered hour. -/
def execLifetimeFlush (s : State) : Out := .next (s.lifeAdd 7 0).flush

def execOrderlyShutdown (s : State) : Out := .next s.flush

/-- LIFECTL_GO: ignored while an export is in progress. -/
def State.lifeGo (s : State) : State := { s with life := { s.life with busy := true } }

def execLifectlGo (s : State) : Out := .next s.lifeGo

/-- The counts of the record in flash, each behind its kind and unit. -/
def State.lifeCounts (s : State) : List Byte := (s.life.flash.map (fun e => toBytes 4 e.1 ++ toBytes 4 e.2)).flatten

/-- The record in flash, signed with the identity key (log entries 31 and 41). -/
def State.lifeBytes (s : State) : List Byte := s.lifeCounts ++ Config.cryptoBytes 6 s.lifeCounts

/-- LIFETIME_EXPORT_DONE: the signed record stands at LIFEADDR, or ERR is set. -/
def State.lifeDone (s : State) (ok : Bool) : Option State :=
  if s.life.busy then
    some (if ok then { s with hm := Mem.writeN s.hm s.life.addr s.lifeBytes, life := { s.life with busy := false } }
      else { s with life := { s.life with busy := false, err := true } })
  else none

def execLifetimeExportDone (ok : Bool) (s : State) : Out := event s (s.lifeDone ok)

/-! ### Supply (R265, R377, R378, R392) -/

/-- What stays outside the package or in its flash: host memory, the flash, what has been sent, the counters of free
values and of keys. -/
def State.kept (s : State) : State :=
  { State.reset with hm := s.hm, life := { ram := s.life.flash, flash := s.life.flash }, msix := s.msix, records := s.records,
                     freeCount := s.freeCount, nextSeq := s.nextSeq, pkgNo := s.pkgNo }

/-- POWER_ON: the device secret is rebuilt, the images and the configuration record are verified and device memory is written with
zeros under key 0; a failure leaves recovery mode, and a record that does not verify is not used (R378). -/
def State.powerOn (s : State) (o : BootOutcome) : Option State :=
  let good := o.rsaOk && o.slhOk
  if s.powered then none
  else some (({ s.kept with
    puf := o.pufOk, recovery := !(o.pufOk && good), images := o.images, roms := o.roms, pkgNo := o.pkg,
    parityOn := if good then o.parity else State.reset.parityOn, macOn := if good then o.mac else State.reset.macOn } :
    State).lifeAdd 8 0)

def execPowerOn (o : BootOutcome) (s : State) : Out := event s (s.powerOn o)

/-- POWER_LOSS: all activity ends; the counts since the last write to flash are lost. -/
def execPowerLoss (s : State) : Out := .next { s.kept with powered := false, puf := false }

end Sys2Proof.Machine
end

