-- ==== Sys2Proof/Machine/Rays.lean ====
section
/-! DEFINITION. Ray traversal: RAYCAST and its contexts, messages, queues and the spill ring, traversal, final records,
horizons and callbacks, releases and resets (R295 to R315). -/

namespace Sys2Proof.Machine

/-! ### RAYCAST (R299, R300) -/

/-- A code entry in two uniform registers. -/
def Pane.entryAt (p : Pane) (b : Nat) : Nat := uns (p.sreg b) + bits (p.sreg (b + 1)) 0 24 * 2 ^ 32

/-- The lowest free context of a core. -/
def Core.freeCtx (c : Core) : Option Nat := (List.range 32).find? (fun k => (Tab.find c.ctxs k).isNone)

/-- R300: RAYCAST, to step 5. -/
def execRaycast (d : CReg) (a : Fin 112) (b : Fin 61) (ac : Fin 16) (cull : Cull) (s : State) : Out :=
  memWord true s (fun s =>
    let p := s.pane
    match s.chkRec (rR ||| rA) 256 d.val with
    | some (cause, detail) => takeTrap cause detail s
    | none =>
        if p.entryAt b.val % 16 ≠ 0 then takeTrap cTarget (p.sreg b.val) s
        else if p.entryAt (b.val + 2) % 16 ≠ 0 then takeTrap cTarget (p.sreg (b.val + 2)) s
        else
          match (s.core p.core).freeCtx with
          | none => held s
          | some k =>
              if p.acFull ac then held s
              else
                let c := { s.mkCmd (.raycast d a b ac cull) (some ac) with caps := [p.creg d.val] }
                let x : RayCtx :=
                  { grid := p.grid, part := p.part, cmd := c.id, cap := p.creg d.val, hit := p.entryAt b.val,
                    miss := p.entryAt (b.val + 2), cull := cull,
                    rays := p.lanes.map (fun L => (L, (List.range 9).map (fun i => p.vreg (a.val + i) L))) }
                (s.sendCmd c 0).modCore p.core (fun c => { c with ctxs := Tab.set c.ctxs k x }))

/-! ### Rays and messages (R297, R298) -/

/-- The eight words of a ray. -/
def RayRec.words (r : RayRec) : List Word := [r.ox, r.oy, r.oz, r.tmin, r.dx, r.dy, r.dz, r.tmax]

def RayRec.cast (core ctx lane : Nat) (w : List Word) : RayRec :=
  { ox := w.getD 0 0, oy := w.getD 1 0, oz := w.getD 2 0, tmin := w.getD 3 0, dx := w.getD 4 0, dy := w.getD 5 0,
    dz := w.getD 6 0, tmax := w.getD 7 0, rayid := w.getD 8 0, core := core, ctx := ctx, lane := lane }

/-- R297: a record's 64 bytes; a pending entry at or above SDEP is written as 0 (DESIGN CHOICE, log entry 101). -/
def RayRec.bytes (r : RayRec) : List Byte :=
  let pend := (r.pend.reverse.zipIdx).foldl (fun n (e : Nat × Nat) => n + e.1 % 2 ^ 16 * 2 ^ (16 * e.2)) 0
  ([r.ox, r.oy, r.oz, r.tmin, r.dx, r.dy, r.dz, r.tmax].map (fun (w : Word) => toBytes 4 w.toNat)).flatten ++
    toBytes 16 pend ++ toBytes 4 r.rayid.toNat ++
    toBytes 12 ((if r.back then 2 ^ 9 else 0) + (if r.ovf then 2 ^ 10 else 0) + (if r.hit then 2 ^ 11 else 0) +
      r.pend.length * 2 ^ 12 + r.ctx * 2 ^ 16 + r.core * 2 ^ 21 + r.prim.toNat * 2 ^ 32 + r.u * 2 ^ 64 + r.v * 2 ^ 80)

def Cull.code : Cull → Nat
  | .none => 0 | .back => 1 | .front => 2

/-- R298: a message's 96 bytes. -/
def RayMsg.bytes (m : RayMsg) : List Byte :=
  toBytes 32 (m.cap.base + m.cap.len * 2 ^ 56 + m.cap.obj * 2 ^ 96 + m.cap.key * 2 ^ 112 + Cull.code m.cull * 2 ^ 120 +
    m.root * 2 ^ 128 + m.treelet * 2 ^ 168 + m.handle.toNat * 2 ^ 184) ++ m.ray.bytes

/-! ### The TRV's reads (R295, R304, R313) -/

/-- Why a read makes a ray finish with FAULT: malformed content, poison, or a read that is refused, not resident, migrating
or in another stack. -/
inductive RayErr where
  | malformed | poisoned | refused
  deriving DecidableEq, Repr

def RayErr.code : RayErr → Nat
  | .malformed => 1 | .poisoned => 2 | .refused => 3

def State.modTrv (s : State) (g : Nat) (f : Trv → Trv) : State := s.modBase g (fun b => { b with trv := f b.trv })

/-- A TRV's accesses (R267). -/
def trvVia (g part : Nat) : Via := { who := .ray g 0, die := 4 * g, part := part, busB := true }

/-- The entries of a TRV's translation cache (R304). -/
def trvObjCap : Nat := 4096

/-- An object entry through the TRV's own translations, which keep the entries that came last. -/
def State.trvObj (s : State) (g part obj : Nat) : State × Option Obj :=
  let gen := (s.part part).genCur
  match (s.base g).trv.objs.find? (fun o => o.part == part && o.obj == obj && o.gen == gen) with
  | some o => (s, some o)
  | none =>
      match s.readObj (4 * g) part obj with
      | none => (s, none)
      | some o => (s.modTrv g (fun t =>
          { t with objs := keepLast trvObjCap ((t.objs.filter (fun p => !(p.part == part && p.obj == obj))) ++ [o]) }), some o)

/-- Bytes of a structure: in a tier-0 extent of one stack, where it is given, else wherever they lie. -/
def State.trvRead (s : State) (g : Nat) (stack : Option Nat) (part : Nat) (c : Cap) (off n : Nat) : State × Except RayErr (List Byte) :=
  if c.len < off + n then (s, .error .malformed)
  else
    match s.trvObj g part c.obj with
    | (s, none) => (s, .error .refused)
    | (s, some o) =>
        (pageCuts (c.base + off - o.vbase) n).foldl (fun (acc : State × Except RayErr (List Byte)) cut =>
          match acc.2 with
          | .error _ => acc
          | .ok b =>
              match acc.1.transObj o part 0 (c.base + off + cut.1) with
              | .ok pa t1 =>
                  if stack.any (fun k => t1 || pa / 2 ^ 36 != k) then (acc.1, .error .refused)
                  else
                    match acc.1.unitRead (trvVia g part) pa cut.2 t1 with
                    | (s, none) => (s, .error .poisoned)
                    | (s, some x) => (s, .ok (b ++ x))
              | _ => (acc.1, .error .refused)) (s, .ok [])

/-- The lines a node buffer holds. -/
def nodeLines : Nat := 8192

/-- The line of the node buffer with a tag. -/
def NodeLine.is (l : NodeLine) (part obj addr tver line : Nat) : Bool :=
  l.key == part && l.obj == obj && l.addr == addr && l.tver == tver && l.line == line

/-- A line of a treelet through the node buffer, which keeps what it read and drops its oldest line when full (log entry
37); a line that passes LEN is read as far as LEN goes. A line that meets an uncorrectable error is discarded and read again. -/
def State.trvLine (s : State) (g part : Nat) (c : Cap) (tb tver line : Nat) : State × Except RayErr (List Byte) :=
  match (s.base g).trv.nodes.find? (fun l => l.is part c.obj (c.base + tb) tver line && !l.bad) with
  | some l => (s, .ok l.data)
  | none =>
      match s.trvRead g (some g) part c (tb + 64 * line) (min 64 (c.len - (tb + 64 * line))) with
      | (s, .error e) => (s, .error e)
      | (s, .ok b) => (s.modTrv g (fun t =>
          let kept := t.nodes.filter (fun l => !l.is part c.obj (c.base + tb) tver line)
          { t with nodes := (if nodeLines ≤ kept.length then kept.tail else kept) ++ [⟨part, c.obj, c.base + tb, tver, line, b, false⟩] }), .ok b)

/-- Bytes of a treelet through the node buffer, from an offset from TBASE. -/
def State.trvNode (s : State) (g part : Nat) (c : Cap) (tb tver off n : Nat) : State × Except RayErr (List Byte) :=
  if c.len < tb + off + n then (s, .error .malformed)
  else
    (lineCuts off n).foldl (fun (acc : State × Except RayErr (List Byte)) cut =>
      match acc.2 with
      | .error _ => acc
      | .ok b =>
          match acc.1.trvLine g part c tb tver ((off + cut.1) / 64) with
          | (s, .error e) => (s, .error e)
          | (s, .ok x) => (s, .ok (b ++ (x.drop ((off + cut.1) % 64)).take cut.2))) (s, .ok [])

/-- A treelet of a table (R295). -/
structure Treelet where
  tbase  : Nat
  trioff : Nat
  nnode  : Nat
  ntri   : Nat
  stack  : Nat
  tver   : Nat
  deriving DecidableEq, Repr

/-- The header of a table: the root treelet and NTREELET. -/
def tableHeader (x root len : Nat) : Option (Nat × Nat) :=
  let n := nbitsOf x 32 32
  if nbitsOf x 16 16 = 0x5254 ∧ 1 ≤ n ∧ n ≤ 65536 ∧ nbitsOf x 64 448 = 0 ∧ root % 64 = 0 ∧ root + 64 + 16 * n ≤ len then
    some (nbitsOf x 0 16, n)
  else none

def Treelet.parse (x len : Nat) : Option Treelet :=
  let t : Treelet := ⟨nbitsOf x 0 40, nbitsOf x 40 24, nbitsOf x 66 13, nbitsOf x 79 17, nbitsOf x 108 4, nbitsOf x 112 16⟩
  if nbitsOf x 64 2 = 0 ∧ nbitsOf x 96 12 = 0 ∧ t.ntri ≤ 65536 ∧ 1 ≤ t.nnode ∧ t.nnode ≤ 4096 ∧ t.tbase % 128 = 0 ∧
      t.tbase + 128 * t.nnode ≤ len ∧ (t.ntri = 0 ∨ t.tbase + 16 * t.trioff + 48 * t.ntri ≤ len) then some t else none

/-- The header of a version's table; the table lies within LEN (R295). -/
def State.tableHead (s : State) (g part : Nat) (c : Cap) (root : Nat) : State × Except RayErr (Nat × Nat) :=
  match s.trvRead g none part c root 64 with
  | (s, .error e) => (s, .error e)
  | (s, .ok b) => (s, match tableHeader (ofBytes b) root c.len with
      | some h => .ok h
      | none => .error .malformed)

/-- The entry of a treelet. -/
def State.treelet (s : State) (g part : Nat) (c : Cap) (root n k : Nat) : State × Except RayErr Treelet :=
  if n ≤ k then (s, .error .malformed)
  else
    match s.trvRead g none part c (root + 64 + 16 * k) 16 with
    | (s, .error e) => (s, .error e)
    | (s, .ok b) => (s, match Treelet.parse (ofBytes b) c.len with
        | some t => .ok t
        | none => .error .malformed)

/-! ### Traversal (R296, R302, R303) -/

/-- A node as read: an internal node's four references and boxes, or a leaf's triangle indexes. -/
inductive RNode where
  | inner (cs : List (Word × List Word))
  | leaf (ts : List Word)
  deriving DecidableEq, Repr

/-- The words of bytes. -/
def wordsOf (b : List Byte) (n : Nat) : List Word := (List.range n).map (fun k => wordOfNat (ofBytes ((b.drop (4 * k)).take 4)))

/-- The node 128 bytes hold, by the rules of R296. -/
def RNode.parse (t n : Nat) (e : Treelet) (b : List Byte) : Option RNode :=
  let w := fun k => (wordsOf b 32).getD k 0
  if bits (w 28) 0 28 ≠ 0 ∨ w 29 ≠ 0 ∨ w 30 ≠ 0 ∨ w 31 ≠ 0 then none
  else if bits (w 28) 28 4 = 1 then
    let ok := fun (r : Word) => r == 0xFFFFFFFF ||
      (if bits r 16 16 = t then decide (bits r 0 16 < e.nnode) && bits r 0 16 != 0
       else decide (bits r 16 16 < n) && bits r 0 16 == 0)
    if (List.range 4).all (fun c => ok (w (24 + c))) then
      some (.inner ((List.range 4).map (fun c => (w (24 + c), (List.range 6).map (fun i => w (6 * c + i))))))
    else none
  else if bits (w 28) 28 4 = 2 then
    if (List.range 24).all (fun k => w (k + 4) == 0) && (List.range 4).all (fun k => w k == 0xFFFFFFFF || decide (uns (w k) < e.ntri)) then
      some (.leaf ((List.range 4).map w))
    else none
  else none

/-- The slots to push: those hit, the farthest first, ties by higher slot first. -/
def insertFar (x : Nat × Nat × Word) : List (Nat × Nat × Word) → List (Nat × Nat × Word)
  | [] => [x]
  | y :: r => if y.1 < x.1 ∨ (y.1 = x.1 ∧ y.2.1 < x.2.1) then x :: y :: r else y :: insertFar x r

def hitSlots (r : RayRec) (cs : List (Word × List Word)) : List Word :=
  (((cs.zipIdx).filter (fun (c : (Word × List Word) × Nat) => c.1.1 != 0xFFFFFFFF && boxHit r.words c.1.2)).foldl
    (fun l (c : (Word × List Word) × Nat) => insertFar (boxNear r.words c.1.2, c.2, c.1.1) l) []).map (fun x => x.2.2)

/-- A slot pushed on the TRV's stack or to the pending treelets. -/
def pushSlot (t : Nat) (acc : List Nat × RayRec) (ref : Word) : List Nat × RayRec :=
  if bits ref 16 16 = t then (bits ref 0 16 :: acc.1, acc.2)
  else if 8 ≤ acc.2.pend.length then (acc.1, { acc.2 with ovf := true })
  else (acc.1, { acc.2 with pend := bits ref 16 16 :: acc.2.pend })

/-- A value of t or TMAX as a number to compare. -/
def tKey (x : Word) : Nat := if x = 0x80000000 then 0 else x.toNat

/-- A candidate accepted or not. -/
def RayRec.accept (r : RayRec) (cull : Cull) (h : TriHit) (prim : Word) : RayRec :=
  let tr := wordOfNat (roundQ F32 false h.t h.den)
  let culled := match cull with
    | .none => false
    | .back => h.back
    | .front => !h.back
  if culled then r
  else if tKey tr < tKey r.tmax ∨ (tKey tr = tKey r.tmax ∧ (r.hit = false ∨ uns prim < uns r.prim)) then
    { r with tmax := tr, prim := prim, u := roundQ F16 false h.u h.den, v := roundQ F16 false h.v h.den, hit := true, back := h.back }
  else r

/-- A triangle tested. -/
def State.triangle (s : State) (g part : Nat) (c : Cap) (e : Treelet) (cull : Cull) (r : RayRec) (i : Nat) :
    State × Except RayErr RayRec :=
  match s.trvNode g part c e.tbase e.tver (16 * e.trioff + 48 * i) 48 with
  | (s, .error x) => (s, .error x)
  | (s, .ok b) =>
      let w := wordsOf b 12
      if w.getD 10 0 ≠ 0 ∨ w.getD 11 0 ≠ 0 then (s, .error .malformed)
      else (s, .ok (match triTest r.words (w.take 9) with
        | some h => r.accept cull h (w.getD 9 0)
        | none => r))

/-- What a ray is visiting a treelet with. -/
structure Visit where
  g    : Nat
  part : Nat
  cap  : Cap
  cull : Cull
  t    : Nat
  n    : Nat
  e    : Treelet

/-- R302: the visit, with the nodes that may still be popped; the ray, and why it faulted. -/
def State.visit (v : Visit) : Nat → List Nat → State → RayRec → State × RayRec × Option RayErr
  | _, [], s, r => (s, r, none)
  | 0, _ :: _, s, r => (s, r, some .malformed)
  | fuel + 1, k :: stk, s, r =>
      match s.trvNode v.g v.part v.cap v.e.tbase v.e.tver (128 * k) 128 with
      | (s, .error x) => (s, r, some x)
      | (s, .ok b) =>
          match RNode.parse v.t v.n v.e b with
          | none => (s, r, some .malformed)
          | some (.inner cs) =>
              let x := (hitSlots r cs).foldl (pushSlot v.t) (stk, r)
              State.visit v fuel x.1 s x.2
          | some (.leaf ts) =>
              let x := (ts.filter (· != 0xFFFFFFFF)).foldl (fun (acc : State × RayRec × Option RayErr) i =>
                match acc.2.2 with
                | some _ => acc
                | none =>
                    match acc.1.triangle v.g v.part v.cap v.e v.cull acc.2.1 (uns i) with
                    | (s, .ok r) => (s, r, none)
                    | (s, .error e) => (s, acc.2.1, some e)) (s, r, none)
              match x with
              | (s, r, some e) => (s, r, some e)
              | (s, r, none) => State.visit v fuel stk s r

/-! ### Sending and finishing (R305, R309) -/

/-- A final record formed at base die g, stamped with the time (R309). -/
def State.rayFin (s : State) (g : Nat) (r : RayRec) (handle : Word) (inv fault : Bool) : RayFin := ⟨r, s.time, g, inv, fault, handle⟩

/-- A ray leaves base die g: its message is under way, or its final record stands in the completion buffer. -/
def State.rayLeave (s : State) (g : Nat) (o : RayOut) : State :=
  match o with
  | .send k m => s.modTrv k (fun t => { t with inbox := t.inbox ++ [(g, m)] })
  | .fin f => s.modTrv g (fun t =>
      { t with outq := t.outq ++ [f], finished := satInc t.finished, faults := if f.fault then satInc t.faults else t.faults })

/-- A ray finishes at a base die. -/
def State.rayFinish (s : State) (g : Nat) (r : RayRec) (handle : Word) (inv fault : Bool) : State :=
  s.rayLeave g (.fin (s.rayFin g r handle inv fault))

/-- The message of a ray to its treelet; or why it cannot be sent. -/
def State.rayTo (s : State) (g : Nat) (m : RayMsg) (n : Nat) : State × Except RayErr RayOut :=
  match s.treelet g m.part m.cap m.root n m.treelet with
  | (s, .error e) => (s, .error e)
  | (s, .ok e) => (s, .ok (.send e.stack m))

/-- The record of faulting rays (R313). -/
def State.rayFaultRecord (s : State) (g : Nat) (m : RayMsg) (code : Nat) : State :=
  s.record 0x08 m.part (64 + g) [wordOfNat m.cap.obj, wordOfNat m.treelet, wordOfNat code]

def State.modCtx (s : State) (core k : Nat) (f : RayCtx → RayCtx) : State :=
  s.modCore core (fun c => { c with ctxs := Tab.mod c.ctxs k f })

/-- acK falls when every ray of the cast is placed or finished (R300). -/
def State.castDone (s : State) (core k : Nat) : State :=
  match Tab.find (s.core core).ctxs k with
  | none => s
  | some x =>
      if x.sent && x.flying.isEmpty then
        (match Tab.find s.cmds x.cmd with
          | some c => s.cmdEnd c none [] x.bad
          | none => s)
      else s

/-! ### Dispatch (R300) -/

/-- One ray of a cast, and the first valid ray that faults at the root treelet's entry; `head` is the table's header or why it is not
there. A root treelet numbered NTREELET or above is a fault of the ray, under its pinned handle and without the error flag: the header
itself is not malformed (DESIGN CHOICE, log entry 101). -/
def castRay (core k g : Nat) (x : RayCtx) (handle : Word) (root : Nat) (head : Except RayErr (Nat × Nat))
    (acc : State × Option (RayMsg × RayErr)) (ray : Nat × List Word) : State × Option (RayMsg × RayErr) :=
  let r := RayRec.cast core k ray.1 ray.2
  let fin := fun (s : State) (inv fault : Bool) => s.rayFinish g r (match head with
    | .error .malformed => noHandle
    | _ => handle) inv fault
  if rayInvalid r.words then (fin acc.1 true false, acc.2)
  else
    match head with
    | .error _ => (fin acc.1 false true, acc.2)
    | .ok (t, n) =>
        let m : RayMsg := { cap := x.cap, part := x.part, cull := x.cull, root := root, treelet := t, handle := handle, ray := r }
        match acc.1.rayTo g m n with
        | (s, .error e) => (fin s false true, acc.2.orElse (fun _ => some (m, e)))
        | (s, .ok o) => ((s.rayLeave g o).modCtx core k (fun c => { c with flying := c.flying ++ [ray.1] }), acc.2)

/-- The rays of a cast, and one record of those that fault at the root treelet's entry, as for a batch (R313; DEDUCED, log entry
101). -/
def State.castRays (s : State) (core k g : Nat) (x : RayCtx) (handle : Word) (root : Nat) (head : Except RayErr (Nat × Nat)) : State :=
  match x.rays.foldl (castRay core k g x handle root head) (s, none) with
  | (s, some (m, e)) => s.rayFaultRecord g m e.code
  | (s, none) => s

/-- The pin failed or there is no version. -/
def State.castRefused (s : State) (core k : Nat) (c : Cmd) : State :=
  (s.modCore core (fun x => { x with ctxs := Tab.erase x.ctxs k })).cmdEnd c none [] true

/-- RAYCAST_DISPATCH. -/
def State.raycast (s : State) (core k : Nat) : Option State :=
  match Tab.find (s.core core).ctxs k with
  | none => none
  | some x =>
      match Tab.find s.cmds x.cmd with
      | none => none
      | some c =>
          if x.sent || !s.cmdReady c then none
          else if s.cmdRefused c then some (s.castRefused core k c)
          else
            match s.pubUnit c.via x.cap .pin with
            | .wait t => t
            | .fin t ws err =>
                if err || ws.getD 0 0 == noHandle then some (t.castRefused core k c)
                else
                  let g := match t.pkgAt c.via x.cap 0 true with
                    | (_, .ok (pa, _)) => pa / 2 ^ 36
                    | _ => 0
                  let addr := uns (ws.getD 1 0) + uns (ws.getD 2 0) * 2 ^ 32
                  let root := addr - x.cap.base
                  let (t, head) := if addr < x.cap.base then (t, .error .malformed) else t.tableHead g x.part x.cap root
                  let bad := match head with
                    | .error .malformed => true
                    | _ => false
                  let t := t.modCtx core k (fun y => { y with
                    handle := ws.getD 0 0, sent := true, left := y.rays.length, bad := bad })
                  some ((t.castRays core k g x (ws.getD 0 0) root head).castDone core k)

def execRaycastDispatch (core ctx : Nat) (s : State) : Out := event s (s.raycast core ctx)

/-! ### Queues and the spill ring (R305, R306, R308) -/

/-- The key of a queue. -/
def RayMsg.sameKey (a b : RayMsg) : Bool :=
  a.cap.key == b.cap.key && a.cap.obj == b.cap.obj && a.cap.base == b.cap.base && a.handle == b.handle && a.treelet == b.treelet

/-- Rules 2 and 3 of R305: the queue that admits a message. -/
def Trv.admitRay (t : Trv) (m : RayMsg) : Option Nat :=
  match t.queues.find? (fun (q : Nat × List RayMsg) => q.2.any (fun x => x.sameKey m)) with
  | some q => if q.2.length < t.qdepth then some q.1 else none
  | none => (List.range 256).find? (fun k => (Tab.find t.queues k).isNone)

def Trv.join (t : Trv) (k : Nat) (m : RayMsg) : Trv := { t with queues := Tab.set t.queues k (Tab.getD t.queues k [] ++ [m]) }

/-- R306: the refill unit. -/
def Trv.refill (t : Trv) : Nat → Trv
  | 0 => t
  | n + 1 =>
      match t.spill with
      | [] => t
      | m :: r =>
          match t.admitRay m with
          | none => t
          | some k => ({ t.join k m with spill := r } : Trv).refill n

/-- RINGFULL: the ring holds RSIZE messages; without a ring, a message waits as if it were full (R308). -/
def Trv.ringFull (t : Trv) : Bool := if t.rsize = 0 then t.full else decide (t.rsize ≤ t.spill.length)

/-- A message enters the spill ring; its bytes lie in the stack under key 0 (R308). -/
def State.spillRay (s : State) (g : Nat) (m : RayMsg) : State :=
  let t := (s.base g).trv
  let pa := g * 2 ^ 36 + t.rbase * 65536 + 96 * (t.rtail % t.rsize)
  let s := s.modTrv g (fun t => { t with spill := t.spill ++ [m], rtail := t.rtail + 1, spilled := satInc t.spilled })
  (s.unitWrite { trvVia g 0 with write := true } pa false m.bytes).1

/-- A ray of a cast is placed. -/
def State.rayPlaced (s : State) (m : RayMsg) : State :=
  (s.modCtx m.ray.core m.ray.ctx (fun c => { c with flying := c.flying.filter (· != m.ray.lane) })).castDone m.ray.core m.ray.ctx

/-- RAY_MESSAGE_ARRIVAL: the message at a place of those under way, the oldest from its sender; with the ring full it waits, which is
reported once until a message is taken. -/
def State.rayArrive (s : State) (g k : Nat) : Option State :=
  let t := (s.base g).trv
  match t.inbox[k]? with
  | none => none
  | some (src, m) =>
      if (t.inbox.take k).any (fun e => e.1 == src) then none
      else
        let took := fun (s : State) => s.modTrv g (fun t => { t with inbox := t.inbox.eraseIdx k, full := false })
        match (if t.spill.isEmpty then t.admitRay m else none) with
        | some q => some (((took s).modTrv g (fun t => (t.join q m).refill t.spill.length)).rayPlaced m)
        | none =>
            if t.rsize ≤ t.spill.length then
              (if t.full then none
               else some ((s.modTrv g (fun t => { t with full := true })).record 0x0C 0 (64 + g)
                 [wordOfNat g, wordOfNat t.spill.length, wordOfNat t.queues.length]))
            else some ((((took s).spillRay g m).modTrv g (fun t => t.refill t.spill.length)).rayPlaced m)

def execRayMessageArrival (base k : Nat) (s : State) : Out := event s (s.rayArrive base k)

/-! ### Batches (R307) -/

/-- The queue of the next batch: the most rays, then the lowest treelet, then the lowest number. -/
def Trv.pick (t : Trv) : Option (Nat × List RayMsg) :=
  t.queues.foldl (fun (b : Option (Nat × List RayMsg)) (q : Nat × List RayMsg) =>
    match b with
    | none => some q
    | some x =>
        let tl := fun (l : List RayMsg) => ((l.head?).map RayMsg.treelet).getD 0
        if x.2.length < q.2.length ∨ (x.2.length = q.2.length ∧ tl q.2 < tl x.2) then some q else b) none

/-- TRV_BATCH_START: not with a batch running, a full completion buffer (R310), or a frozen die (R391). -/
def State.batchStart (s : State) (g : Nat) : Option State :=
  let t := (s.base g).trv
  if t.run.isSome || decide (256 ≤ t.outq.length) || (s.base g).frozen then none
  else
    t.pick.map (fun q => s.modTrv g (fun t =>
      let rest := q.2.drop 32
      let t := { t with run := some (q.2.take 32), left := 0, bad := none, batches := satInc t.batches,
                        queues := if rest.isEmpty then Tab.erase t.queues q.1 else Tab.set t.queues q.1 rest }
      t.refill t.spill.length))

def execTrvBatchStart (base : Nat) (s : State) : Out := event s (s.batchStart base)

/-- A ray whose visit is over: it goes on to its next treelet, or finishes; and why it faulted. -/
def State.rayNext (s : State) (g : Nat) (m : RayMsg) (n : Nat) (r : RayRec) : State × RayOut × Option RayErr :=
  match r.pend with
  | [] => (s, .fin (s.rayFin g r m.handle false false), none)
  | t :: rest =>
      match s.rayTo g { m with treelet := t, ray := { r with pend := rest } } n with
      | (s, .ok o) => (s, o, none)
      | (s, .error e) => (s, .fin (s.rayFin g { r with pend := rest } m.handle false true), some e)

/-- One ray of a batch. -/
def State.rayRun (s : State) (g : Nat) (m : RayMsg) : State × RayOut × Option RayErr :=
  let bad := fun (s : State) (r : RayRec) (e : RayErr) => (s, RayOut.fin (s.rayFin g r m.handle false true), some e)
  match s.tableHead g m.part m.cap m.root with
  | (s, .error e) => bad s m.ray e
  | (s, .ok h) =>
      match s.treelet g m.part m.cap m.root h.2 m.treelet with
      | (s, .error e) => bad s m.ray e
      | (s, .ok e) =>
          if e.stack ≠ g then bad s m.ray .refused
          else
            match State.visit ⟨g, m.part, m.cap, m.cull, m.treelet, h.2, e⟩ e.nnode [0] s m.ray with
            | (s, r, err) =>
                let s := if r.ovf && !m.ray.ovf then s.modTrv g (fun t => { t with ovfrays := satInc t.ovfrays }) else s
                match err with
                | some x => bad s r x
                | none => s.rayNext g m h.2 r

/-- R304: lines of the node buffer, by their places, that have met an uncorrectable error. -/
def State.nodeError (s : State) (g : Nat) (ks : List Nat) : State :=
  if ks.isEmpty then s
  else s.modTrv g (fun t => { t with nodes := t.nodes.zipIdx.map (fun e => { e.1 with bad := e.1.bad || ks.contains e.2 }) })

/-- The batch is over when its last ray has left; one record for its faults. -/
def State.batchOver (s : State) (g n : Nat) : State :=
  let t := (s.base g).trv
  if t.left < n then s
  else
    let s := s.modTrv g (fun t => { t with run := none, left := 0, bad := none })
    match t.bad with
    | some (m, code) => s.rayFaultRecord g m code
    | none => s

/-- TRV_BATCH_END: the next ray of the batch is traversed to its end in its treelet and leaves (R307); a hung TRV waits (R314). -/
def State.batchEnd (s : State) (g : Nat) (bad : List Nat) : State :=
  let t := (s.base g).trv
  let ms := t.run.getD []
  match ms[t.left]? with
  | none => s
  | some m =>
      let (s, o, e) := (s.nodeError g bad).rayRun g m
      (((s.modTrv g (fun t => { t with left := t.left + 1, bad := t.bad.orElse (fun _ => e.map (fun e => (m, e.code))) })).rayLeave g o)).batchOver
        g ms.length

/-- Whether a ray of the batch is still to be traversed. -/
def Trv.open (t : Trv) : Bool := !t.hung && decide (t.left < (t.run.getD []).length)

def execTrvBatchEnd (base : BatchRay) (s : State) : Out :=
  event s (if (s.base base.base).trv.open then some (s.batchEnd base.base base.bad) else none)

/-! ### Final records, horizons, callbacks (R309 to R311) -/

/-- The callback order (R310). -/
def RayFin.before (a b : RayFin) : Bool :=
  let k := fun (x : RayFin) => [x.ts, x.stack, uns x.ray.rayid, x.ray.ctx, x.ray.lane]
  decide (List.Lex (· < ·) (k a) (k b))

/-- The first record of the reorder stage in callback order. -/
def Core.nextFin (c : Core) : Option RayFin :=
  c.reorder.foldl (fun (b : Option RayFin) f => match b with
    | none => some f
    | some x => if f.before x then some f else b) none

/-- R309: the payload of a callback thread. -/
def RayFin.payload (f : RayFin) : List Word :=
  let r := f.ray
  [r.rayid, r.tmax, r.prim, if r.hit then wordOfNat (r.v * 2 ^ 16 + r.u) else 0,
   wordOfNat ((if r.back then 16 else 0) + (if f.inv then 8 else 0) + (if f.fault then 4 else 0) + (if r.ovf then 2 else 0) +
     (if r.hit then 1 else 0)), wordOfNat f.ts, f.handle, wordOfNat f.stack]

/-- Whether every base die's latest horizon exceeds a time. -/
def Core.below (c : Core) (ts : Nat) : Bool := (List.range 16).all (fun g => decide (ts < Tab.getD c.horizons g 0))

/-- Records below every horizon are inserted in callback order, while formation takes them; they are callback arrivals of the cycle
(R148, R310). -/
def State.insertFins (s : State) (core : Nat) : Nat → State
  | 0 => s
  | n + 1 =>
      let c := s.core core
      match c.nextFin with
      | none => s
      | some f =>
          let x := Tab.find c.ctxs f.ray.ctx
          let grid := (x.map RayCtx.grid).getD 0
          let entry := if f.ray.hit then (x.map RayCtx.hit).getD 0 else (x.map RayCtx.miss).getD 0
          if !c.below f.ts || (entry != 0 && c.pathHeld s.cycle true (entry, grid) [(f.payload, some f.ray.ctx)]) then s
          else
            let s := s.modCore core (fun c => { c with reorder := c.reorder.erase f })
            let s := s.modCtx core f.ray.ctx (fun y => { y with left := y.left - 1, held := if entry = 0 then y.held else y.held + 1 })
            let s := if entry = 0 then s else s.insertThreads core true (entry, grid) [(f.payload, some f.ray.ctx)]
            s.insertFins core n

/-- RAY_FINAL_RECORD: a base die's oldest record for a core arrives at its reorder stage of 512; while the core's formation path holds
a pane, records wait at the base dies (R310). -/
def State.finalRecord (s : State) (core g : Nat) : Option State :=
  match (s.base g).trv.outq.find? (fun f => f.ray.core == core) with
  | none => none
  | some f =>
      if 512 ≤ (s.core core).reorder.length ∨ (s.core core).forming.isEmpty = false then none
      else
        let s := s.modTrv g (fun t => { t with outq := t.outq.erase f })
        let s := s.modCore core (fun c => { c with reorder := c.reorder ++ [f] })
        some (s.insertFins core (s.core core).reorder.length)

def execRayFinalRecord (core base : Nat) (s : State) : Out := event s (s.finalRecord core base)

/-- HORIZON_SEND: to every core, the earliest time of a record still waiting for it, or now. -/
def State.horizonSend (s : State) (g : Nat) : State :=
  let q := (s.base g).trv.outq
  { s with cores := s.cores.map (fun (e : Nat × Core) =>
      let h := (q.filter (fun f => f.ray.core == e.1)).foldl (fun m f => min m f.ts) s.time
      (e.1, { e.2 with horIn := Tab.set e.2.horIn g h })) }

def execHorizonSend (base : Nat) (s : State) : Out := .next (s.horizonSend base)

/-- HORIZON: a horizon arrives and releases records. -/
def State.horizonArrive (s : State) (g core : Nat) : Option State :=
  (Tab.find (s.core core).horIn g).map (fun h =>
    let s := s.modCore core (fun c => { c with
      horIn := Tab.erase c.horIn g, horizons := Tab.set c.horizons g (max h (Tab.getD c.horizons g 0)) })
    s.insertFins core (s.core core).reorder.length)

def execHorizon (base core : Nat) (s : State) : Out := event s (s.horizonArrive base core)

/-- Whether the accesses of callback panes are over as R311 asks. -/
def State.callbacksQuiet (s : State) (pids : List Nat) : Bool :=
  pids.all (fun pid => s.quiet pid s.nextRid && s.quietSys pid s.nextRid)

/-- RAY_CONTEXT_RELEASE: every ray is finished, every thread's pane has exited; the pin is released. -/
def State.ctxRelease (s : State) (core k : Nat) : Option State :=
  match Tab.find (s.core core).ctxs k with
  | none => none
  | some x =>
      if !x.sent || x.left != 0 || x.held != 0 || x.panes != 0 || !x.flying.isEmpty || (Tab.find s.cmds x.cmd).isSome ||
          !s.callbacksQuiet x.pids || !s.homeDone (s.die (dieOf core)).clock then none
      else
        match s.pubUnit { who := .ray core k, die := dieOf core, part := x.part } x.cap (.rel x.handle) with
        | .wait t => t
        | .fin t _ _ => some (t.modCore core (fun c => { c with ctxs := Tab.erase c.ctxs k }))

def execRayContextRelease (core ctx : Nat) (s : State) : Out := event s (s.ctxRelease core ctx)

/-! ### Hangs and resets (R308, R314) -/

/-- TRV_HANG: a batch has run for 1 ms; not while frozen (R391). -/
def State.trvHang (s : State) (g : Nat) : Option State :=
  let t := (s.base g).trv
  if t.run.isNone || t.hung || (s.base g).frozen then none
  else some ((s.modTrv g (fun t => { t with hung := true })).record 0x06 0 (64 + g) [wordOfNat g, wordOfNat t.queues.length])

def execTrvHang (base : Nat) (s : State) : Out := event s (s.trvHang base)

/-- HORIZON_TIMEOUT: a core that a base die's horizon has not reached for 1 ms reports it; not while frozen (R391). -/
def execHorizonTimeout (core base : Nat) (s : State) : Out :=
  event s (if (s.die (dieOf core)).frozen then none
    else some (s.record 0x06 (s.core core).part (dieOf core) [wordOfNat core, wordOfNat base]))

/-- TRV_RESET: every ray of the batch, the queues and the ring finishes with FAULT; a batch with a faulting ray sends its record (R313). -/
def State.trvReset (s : State) (g : Nat) : State :=
  let t := (s.base g).trv
  let ms := (t.run.getD []).drop t.left ++ (Tab.vals t.queues).flatten ++ t.spill
  let s := match t.bad with
    | some (m, code) => s.rayFaultRecord g m code
    | none => s
  (ms.foldl (fun s m => s.rayFinish g m.ray m.handle false true) s).modTrv g (fun t =>
    { t with run := none, left := 0, bad := none, queues := [], spill := [], full := false, hung := false })

def execTrvReset (base : Nat) (s : State) : Out := .next (s.trvReset base)

/-- TRVRING_WRITE: only while the ring is empty. -/
def State.ringWrite (s : State) (g x : Nat) : State :=
  if (s.base g).trv.spill.isEmpty then
    s.modTrv g (fun t => { t with rbase := nbitsOf x 24 20, rsize := nbitsOf x 0 24, full := false })
  else s

def execTrvringWrite (base : Nat) (value : BitVec 64) (s : State) : Out := .next (s.ringWrite base value.toNat)

end Sys2Proof.Machine
end

