-- ==== Sys2Proof/Machine/Registers.lean ====
section
/-! DEFINITION. The control registers in BAR 0 of physical function 0: their places (R393), what each reads as and what a
write of each does (R4, R5, R394 and the rules of their tables). -/

namespace Sys2Proof.Machine

/-! ### The registers and their words (R393) -/

/-- A 32-bit word of a control register; `k` counts the words of a wide register from the lowest. -/
inductive Ctl where
  | memcfg | lifectl
  | lifeaddr (k : Nat)
  | partcfg (p k : Nat)
  | evring (p k : Nat)
  | genctl (p k : Nat)
  | clbsave (p k : Nat)
  | spncfg (p : Nat)
  | ctr (n k : Nat)
  | wq (q k : Nat)
  | clstat (cl : Nat)
  | clretry (cl : Nat)
  | engstat (die b : Nat)
  | dcerr (die : Nat)
  | therm (u : Nat)
  | islctl (i : Nat)
  | otbase (die p k : Nat)
  | corectx (core : Nat)
  | panecmd (core k : Nat)
  | corectl (core : Nat)
  | spncur (core : Nat)
  | chdegr (g : Nat)
  | trvcfg (g : Nat)
  | trvring (g k : Nat)
  | trvstat (g k : Nat)
  | evstat (g k : Nat)
  | lnkeng (g : Nat)
  | lnkstat (port k : Nat)
  | chan (g c k : Nat)
  | rdx (g c k : Nat)
  deriving DecidableEq, Repr

/-- An array of n registers, `step` bytes apart: the index and the word within one. -/
def arrayAt (off base step n : Nat) : Option (Nat × Nat) :=
  if base ≤ off ∧ off < base + step * n then some ((off - base) / step, (off - base) % step / 4) else none

/-- The package control block. -/
def packageReg (o : Nat) : Option Ctl :=
  if o = 0 then some .memcfg
  else if o = 0x10 then some .lifectl
  else if o = 0x18 ∨ o = 0x1C then some (.lifeaddr ((o - 0x18) / 4))
  else
    ([((arrayAt o 0x100 8 16).bind (fun x => if x.2 = 0 then some (.islctl (1088 + x.1)) else none)),
      ((arrayAt o 0x8000 8 256).bind (fun x => if x.1 = 0 then none else some (.partcfg x.1 x.2))),
      ((arrayAt o 0x9000 32 256).map (fun x => .evring x.1 x.2)),
      ((arrayAt o 0xB000 8 256).bind (fun x => if x.1 = 0 then none else some (.genctl x.1 x.2))),
      ((arrayAt o 0xB800 8 256).bind (fun x => if x.1 = 0 then none else some (.clbsave x.1 x.2))),
      ((arrayAt o 0xC000 8 256).bind (fun x => if x.1 = 0 ∨ x.2 ≠ 0 then none else some (.spncfg x.1))),
      ((arrayAt o 0x100000 16 65535).map (fun x => .ctr x.1 x.2)),
      ((arrayAt o 0x200000 32 32768).bind (fun x => if x.2 < 5 then some (.wq x.1 x.2) else none))] :
        List (Option Ctl)).findSome? id

/-- The control block of a core. -/
def coreReg (core o : Nat) : Option Ctl :=
  if o = 0 then some (.corectx core)
  else if 0x10 ≤ o ∧ o < 0x1C then some (.panecmd core ((o - 0x10) / 4))
  else if o = 0x20 then some (.corectl core)
  else if o = 0x28 then some (.spncur core)
  else none

/-- The control block of a compute die. -/
def dieReg (d o : Nat) : Option Ctl :=
  if o = 0x60 then some (.dcerr d)
  else if o = 0x68 then some (.therm d)
  else if 0x8000 ≤ o ∧ o < 0x8000 + 0x400 * 24 then coreReg (24 * d + (o - 0x8000) / 0x400) (o % 0x400)
  else
    ([((arrayAt o 0 8 4).bind (fun x => if x.2 = 0 then some (.clstat (4 * d + x.1)) else none)),
      ((arrayAt o 0x20 8 4).bind (fun x => if x.2 = 0 then some (.clretry (4 * d + x.1)) else none)),
      ((arrayAt o 0x40 8 4).bind (fun x => if x.2 = 0 then some (.engstat d x.1) else none)),
      ((arrayAt o 0x100 8 16).bind (fun x => if x.2 = 0 then some (.islctl (16 * d + x.1)) else none)),
      ((arrayAt o 0x800 8 256).bind (fun x => if x.1 = 0 then none else some (.otbase d x.1 x.2)))] :
        List (Option Ctl)).findSome? id

/-- The control block of a base die. -/
def baseReg (g o : Nat) : Option Ctl :=
  if o = 0 then some (.chdegr g)
  else if o = 8 then some (.trvcfg g)
  else if o = 0x10 ∨ o = 0x14 then some (.trvring g ((o - 0x10) / 4))
  else if o = 0x50 then some (.therm (64 + g))
  else if o = 0x58 then some (.lnkeng g)
  else
    ([((arrayAt o 0x20 28 1).map (fun x => .trvstat g x.2)),
      ((arrayAt o 0x40 12 1).map (fun x => .evstat g x.2)),
      ((arrayAt o 0x60 8 4).bind (fun x => if x.2 = 0 then some (.islctl (1024 + 4 * g + x.1)) else none)),
      ((arrayAt o 0x80 16 2).map (fun x => .lnkstat (2 * g + x.1) x.2)),
      ((arrayAt o 0x1000 64 32).map (fun x => .chan g x.1 x.2)),
      ((arrayAt o 0x3000 32 32).map (fun x => .rdx g x.1 x.2))] : List (Option Ctl)).findSome? id

/-- The register word at an offset of BAR 0; none where no table names it (it reads as 0 and ignores writes). -/
def regAt (off : Nat) : Option Ctl :=
  if off % 4 ≠ 0 then none
  else if off < 0x1000000 then packageReg off
  else if off < 0x5000000 then dieReg ((off - 0x1000000) / 0x100000) (off % 0x100000)
  else if off < 0x6000000 then baseReg ((off - 0x5000000) / 0x100000) (off % 0x100000)
  else none

/-! ### Reads (R4) -/

def b2n (b : Bool) (k : Nat) : Nat := if b then 2 ^ k else 0

/-- Word k of a wide value. -/
def wordK (x k : Nat) : Nat := x / 2 ^ (32 * k) % 2 ^ 32

/-- Word k of a list of 32-bit counters. -/
def regWord (l : List Nat) (k : Nat) : Nat := l.getD k 0

def ChanCtr.words (c : ChanCtr) : List Nat :=
  [c.reads, c.writes, c.act, c.supact, c.aged, c.delta, c.fullstripe, c.macfail, c.rebuild, c.poison]

def ChanCtr.rdxWords (c : ChanCtr) : List Nat := [c.atomics, c.reductions, c.coalesced, c.refused, c.skops]

/-- ISLCTL of an island: MXOP and FMHZ. -/
def State.island (s : State) (i : Nat) : Nat × Nat := Tab.getD s.isl i (1, 1800)

/-- Whether an island holds cores (R391). -/
def coreIsland (i : Nat) : Bool := decide (i < 1024) && decide (i % 16 < 12)

/-- PARTCFG as a number (R349). -/
def Part.cfg (p : Part) : Nat := p.groups.toNat * 2 ^ 48 + p.share.toNat * 2 ^ 40 + b2n p.en 31

/-- EVRING as a number (R386). -/
def Ring.reg (r : Ring) : Nat :=
  r.lost * 2 ^ 224 + r.head * 2 ^ 192 + r.tail * 2 ^ 160 + r.logsz * 2 ^ 64 + r.base + b2n r.en 0

/-- WQCFG as a number (R354). -/
def Queue.cfg (q : Queue) : Nat := b2n q.en 31 + q.prio * 2 ^ 28 + q.part * 2 ^ 20 + q.logsz * 2 ^ 16 + b2n q.err 15

/-- BARPEND of a cluster (R216). -/
def State.barPend (s : State) (cl : Nat) : Nat :=
  ((List.range 16).filter (fun b => (Tab.vals (s.cluster cl).sets).any (fun bs => decide (0 < (bs.getD b {}).count)))).foldl
    (fun n b => n + 2 ^ b) 0

/-- TRVSTAT's words (R308). -/
def Trv.stat (t : Trv) : List Nat :=
  [b2n (decide (256 ≤ t.queues.length)) 31 + b2n t.ringFull 30 + b2n t.hung 29, t.queues.length % 256 + t.spill.length * 2 ^ 8,
   t.finished, t.faults, t.ovfrays, t.spilled, t.batches]

/-- What a register's word reads as. -/
def State.regRead (s : State) (r : Ctl) : Nat :=
  match r with
  | .memcfg => b2n s.rdup 2 + b2n s.macOn 1 + b2n s.parityOn 0
  | .lifectl => b2n s.life.busy 31 + b2n s.life.err 30
  | .lifeaddr k => wordK s.life.addr k
  | .partcfg p k => wordK (s.part p).cfg k
  | .evring p k => wordK (Tab.getD s.rings p {}).reg k
  | .genctl p k => if k = 0 then (s.part p).gen else b2n (s.part p).genDone 1
  | .clbsave p k => wordK ((s.part p).clbAddr + b2n (s.part p).clbV 0) k
  | .spncfg p => (s.part p).spn
  | .ctr n k => if k < 2 then wordK (Tab.getD s.ctrs n {}).value.toNat k else if k = 2 then (Tab.getD s.ctrs n {}).owner else 0
  | .wq q k =>
      let x := Tab.getD s.queues q {}
      regWord [wordK x.base 0, wordK x.base 1, x.tail.toNat, x.head.toNat, x.cfg] k
  | .clstat cl => b2n (s.cluster cl).failed 31 + s.barPend cl
  | .clretry cl => (s.cluster cl).retry
  | .engstat d b =>
      let x := s.blk d b
      b2n x.hung 31 + x.cmds.length * 2 ^ 16 + x.faultChunks * 2 ^ 8 + (x.cmds.filter (fun c => c.running)).length
  | .dcerr d => (s.die d).dcerr
  | .therm u =>
      let x := s.therm u
      b2n x.1 31 + x.2.1 % 256 * 2 ^ 16 + x.2.2.1 * 2 ^ 8 + x.2.2.2
  | .islctl i => (if coreIsland i then (s.island i).1 * 2 ^ 16 else 0) + (s.island i).2
  | .otbase d p k => wordK (Tab.getD (Tab.getD s.otAddr d []) p 0) k
  | .corectx c => b2n (s.core c).busy 31 + b2n (s.core c).err 30 + (s.core c).part
  | .panecmd c k =>
      if k = 0 then b2n (s.core c).cmdBusy 31 + (s.core c).cmdPord else if k = 1 then (s.core c).cmdTeam.toNat
      else (s.core c).cmdGrid.toNat
  | .corectl c => b2n ((s.core c).engs.getD 1 {}).hung 3 + b2n ((s.core c).engs.getD 0 {}).hung 2
  | .spncur c => (s.core c).timer
  | .chdegr g => (s.base g).chdegr.toNat
  | .trvcfg g => (s.base g).trv.qdepth
  | .trvring g k => wordK ((s.base g).trv.rbase * 2 ^ 24 + (s.base g).trv.rsize) k
  | .trvstat g k => regWord (s.base g).trv.stat k
  | .evstat g k => regWord [b2n (s.base g).eveHung 31 + min 64 (s.eveQueue g).length, (s.base g).evicts, (s.base g).deadtok] k
  | .lnkeng _ => 0
  | .lnkstat p k =>
      regWord [b2n (s.port p).failed 31 + b2n (s.port p).up 30, (s.port p).dropped, (s.port p).retry, (s.port p).authfail] k
  | .chan g c k => regWord (s.chan g c).words k
  | .rdx g c k => regWord (s.chan g c).rdxWords k

/-- A 32-bit read of BAR 0 of physical function 0. -/
def State.bar0 (s : State) (off : Nat) : Word :=
  match regAt off with
  | some r => wordOfNat (s.regRead r)
  | none => 0

/-- A 32-bit read of the MMIO space of a TDI (R375, R393): its queues and counters at the same offsets; all ones in ERROR; without IDE
in RUN it is an Unsupported Request. -/
def State.tdiRead (s : State) (p off : Nat) (ide : Bool) : Option Word :=
  if s.ideRefused p ide then none
  else if (s.part p).tdi = 3 then some 0xFFFFFFFF
  else
    match regAt off with
    | some (.wq q _) => some (if (Tab.getD s.queues q {}).part = p then s.bar0 off else 0)
    | some (.ctr n _) => some (if (Tab.getD s.ctrs n {}).owner = p then s.bar0 off else 0)
    | _ => some 0

/-! ### Writes (R4, R5) -/

/-- A number with its word k replaced. -/
def putWord (x k : Nat) (w : Word) : Nat := x - wordK x k * 2 ^ (32 * k) + w.toNat * 2 ^ (32 * k)

/-- PARTCFG written whole; enabling the partition makes every block of its barrier save area unwritten (R216). -/
def Part.setCfg (p : Part) (x : Nat) : Part :=
  let en := nbitsOf x 31 1 == 1
  { p with groups := BitVec.ofNat 16 (nbitsOf x 48 16), share := BitVec.ofNat 8 (nbitsOf x 40 8), en := en,
           clbSaved := if en && !p.en then [] else p.clbSaved }

/-- EVRING written by words: EN, BASE and LOGSZ, HEAD, which opens the ring's warning again, and LOST, which any 1 bit
clears. -/
def Ring.put (r : Ring) (k : Nat) (w : Word) : Ring :=
  match k with
  | 0 => { r with en := bit w 0, base := r.base / 2 ^ 32 * 2 ^ 32 + bits w 6 26 * 64 }
  | 1 => { r with base := r.base % 2 ^ 32 + bits w 0 24 * 2 ^ 32 }
  | 2 => { r with logsz := bits w 0 5 }
  | 6 => { r with head := w.toNat, warned := if r.head = w.toNat then r.warned else false }
  | 7 => { r with lost := if w = 0 then r.lost else 0 }
  | _ => r

/-- The registers of a queue: PART, LOGSZ and WQBASE only while EN = 0. -/
def Queue.put (q : Queue) (k : Nat) (w : Word) : Queue :=
  match k with
  | 0 => if q.en then q else { q with base := q.base / 2 ^ 32 * 2 ^ 32 + bits w 8 24 * 256 }
  | 1 => if q.en then q else { q with base := q.base % 2 ^ 32 + bits w 0 24 * 2 ^ 32 }
  | 4 => { q with part := if q.en then q.part else bits w 20 8, logsz := if q.en then q.logsz else bits w 16 4, en := bit w 31,
                  prio := bits w 28 3, err := q.err && !bit w 15 }
  | _ => q

/-- ISLCTL of a core island: MXOP 3 is stored as 1, FMHZ is clamped. -/
def islClamp (w : Word) : Nat × Nat := (if bits w 16 2 = 3 then 1 else bits w 16 2, max 1800 (min 2100 (bits w 0 12)))

/-- A W1C counter: any 1 bit clears it. -/
def w1cAll (x : Nat) (w : Word) : Nat := if w = 0 then x else 0

def ChanCtr.clear (c : ChanCtr) (k : Nat) : ChanCtr :=
  match k with
  | 0 => { c with reads := 0 }
  | 1 => { c with writes := 0 }
  | 2 => { c with act := 0 }
  | 3 => { c with supact := 0 }
  | 4 => { c with aged := 0 }
  | 5 => { c with delta := 0 }
  | 6 => { c with fullstripe := 0 }
  | 7 => { c with macfail := 0 }
  | 8 => { c with rebuild := 0 }
  | 9 => { c with poison := 0 }
  | _ => c

def ChanCtr.clearRdx (c : ChanCtr) (k : Nat) : ChanCtr :=
  match k with
  | 0 => { c with atomics := 0 }
  | 1 => { c with reductions := 0 }
  | 2 => { c with coalesced := 0 }
  | 3 => { c with refused := 0 }
  | 4 => { c with skops := 0 }
  | _ => c

/-- TRVSTAT: RESET, and its counters. -/
def State.trvPut (s : State) (g k : Nat) (w : Word) : State :=
  match k with
  | 0 => if bit w 28 then s.trvReset g else s
  | 2 => s.modTrv g (fun t => { t with finished := w1cAll t.finished w })
  | 3 => s.modTrv g (fun t => { t with faults := w1cAll t.faults w })
  | 4 => s.modTrv g (fun t => { t with ovfrays := w1cAll t.ovfrays w })
  | 5 => s.modTrv g (fun t => { t with spilled := w1cAll t.spilled w })
  | 6 => s.modTrv g (fun t => { t with batches := w1cAll t.batches w })
  | _ => s

def State.evPut (s : State) (g k : Nat) (w : Word) : State :=
  match k with
  | 0 => if bit w 30 then s.eveReset g else s
  | 1 => s.modBase g (fun b => { b with evicts := w1cAll b.evicts w })
  | 2 => s.modBase g (fun b => { b with deadtok := w1cAll b.deadtok w })
  | _ => s

def Port.put (p : Port) (k : Nat) (w : Word) : Port :=
  match k with
  | 1 => { p with dropped := w1cAll p.dropped w }
  | 2 => { p with retry := w1cAll p.retry w }
  | 3 => { p with authfail := w1cAll p.authfail w }
  | _ => p

/-- PANECMD: TEAMID and GRIDID, then the word with the command, which acts; nothing while BUSY = 1 (R389). -/
def State.cmdPut (s : State) (core k : Nat) (w : Word) : State :=
  if (s.core core).cmdBusy then s
  else if k = 1 then s.modCore core (fun c => { c with cmdTeam := w })
  else if k = 2 then s.modCore core (fun c => { c with cmdGrid := w })
  else
    let s := s.modCore core (fun c => { c with cmdPord := bits w 0 5 })
    let c := s.core core
    if bits w 8 2 = 1 then s.paneResume core c.cmdGrid.toNat c.cmdTeam.toNat c.cmdPord
    else if bits w 8 2 = 2 then s.paneExit core c.cmdGrid.toNat c.cmdTeam.toNat c.cmdPord
    else s

/-- CORECTX: ERR, OUT, PART (R360). -/
def State.ctxPut (s : State) (core : Nat) (w : Word) : State :=
  let s := s.modCore core (fun c => { c with err := c.err && !bit w 30 })
  if bit w 29 then (s.switchOut core).getD s else s.corePart core (bits w 0 8)

/-- THERM: the thresholds, then THAW (R391). -/
def State.thermPut (s : State) (u : Nat) (w : Word) : State :=
  let x := s.therm u
  let s := s.setTherm u (x.1, x.2.1, min 115 (bits w 8 8), bits w 0 8)
  if bit w 30 then s.thaw u else s

/-- A write of one register's word. -/
def State.regPut (s : State) (r : Ctl) (w : Word) : State :=
  match r with
  | .memcfg => { s with rdup := bit w 2 }
  | .lifectl =>
      let s := { s with life := { s.life with err := s.life.err && !bit w 30 } }
      if bit w 0 then s.lifeGo else s
  | .lifeaddr k => { s with life := { s.life with addr := putWord s.life.addr k w / 64 * 64 % 2 ^ 56 } }
  | .partcfg p k => s.modPart p (fun x => x.setCfg (putWord x.cfg k w))
  | .evring p k => { s with rings := Tab.set s.rings p ((Tab.getD s.rings p {}).put k w) }
  | .genctl p k => if k = 1 ∧ bit w 0 = true then s.genRaise p else s
  | .clbsave p k => s.modPart p (fun x =>
      let y := putWord (x.clbAddr + b2n x.clbV 0) k w
      { x with clbAddr := y / 256 * 256 % 2 ^ 56, clbV := y % 2 == 1 })
  | .spncfg p => s.modPart p (fun x => { x with spn := max 64 (bits w 0 16) })
  | .ctr n k =>
      let c := Tab.getD s.ctrs n {}
      if k < 2 then s.ctrWrite n (BitVec.ofNat 64 (putWord c.value.toNat k w))
      else { s with ctrs := Tab.set s.ctrs n (if k = 2 then { c with owner := bits w 0 8 } else c) }
  | .wq q k =>
      if k = 2 then s.wqtail q w else { s with queues := Tab.set s.queues q ((Tab.getD s.queues q {}).put k w) }
  | .clstat cl => if bit w 30 then s.clstatReset (cl / 4) (cl % 4) else s
  | .clretry cl => s.modCluster cl (fun c => { c with retry := w1cAll c.retry w })
  | .engstat d b => if bit w 30 then s.blockReset d b else s
  | .dcerr d => s.modDie d (fun x => { x with dcerr := w1cAll x.dcerr w })
  | .therm u => s.thermPut u w
  | .islctl i => if coreIsland i then { s with isl := Tab.set s.isl i (islClamp w) } else s
  | .otbase d p k =>
      let x := putWord (Tab.getD (Tab.getD s.otAddr d []) p 0) k w
      { s with otAddr := Tab.set s.otAddr d (Tab.set (Tab.getD s.otAddr d []) p (x / 32 * 32 % 2 ^ 56 + x % 2)) }
  | .corectx c => s.ctxPut c w
  | .panecmd c k => s.cmdPut c k w
  | .corectl c =>
      let s := if bit w 0 then s.mxReset c 0 else s
      if bit w 1 then s.mxReset c 1 else s
  | .spncur _ => s
  | .chdegr g => s.setDegraded g w
  | .trvcfg g => s.modTrv g (fun t => { t with qdepth := max 4 (min 256 (bits w 0 9)) })
  | .trvring g k => s.ringWrite g (putWord ((s.base g).trv.rbase * 2 ^ 24 + (s.base g).trv.rsize) k w)
  | .trvstat g k => s.trvPut g k w
  | .evstat g k => s.evPut g k w
  | .lnkeng g => if bit w 0 then s.lnkReset g else s
  | .lnkstat p k => s.modPort p (fun x => x.put k w)
  | .chan g c k => if w = 0 then s else s.modChan g c (fun x => x.clear k)
  | .rdx g c k => if w = 0 then s else s.modChan g c (fun x => x.clearRdx k)

/-- The locked TDI whose frozen state a write would change (R375); GEN's own operation guards itself. -/
def State.frozenBy (s : State) (r : Ctl) (w : Word) : Option Nat :=
  let lock := fun (p : Nat) => if s.tdiLocked p then some p else none
  match r with
  | .partcfg p k => if ((s.part p).setCfg (putWord (s.part p).cfg k w)).cfg = (s.part p).cfg then none else lock p
  | .otbase _ p _ => if (s.regPut r w).regRead r = s.regRead r then none else lock p
  | .wq q 4 =>
      let old := (Tab.getD s.queues q {}).part
      let new := ((Tab.getD s.queues q {}).put 4 w).part
      if old = new then none else (lock old).orElse (fun _ => lock new)
  | .ctr n 2 =>
      let old := (Tab.getD s.ctrs n {}).owner
      if old = bits w 0 8 then none else (lock old).orElse (fun _ => lock (bits w 0 8))
  | _ => none

/-- Whether a TLP does not reach a register: a TDI's space holds its queues and counters alone (R375, R393). -/
def State.ctlBarred (s : State) (r : Ctl) (ide : Bool) (tdi : Option Nat) : Bool :=
  match r with
  | .wq q _ => s.tlpBarred (Tab.getD s.queues q {}).part ide tdi
  | .ctr n _ => s.tlpBarred (Tab.getD s.ctrs n {}).owner ide tdi
  | _ => tdi.isSome

/-- A write of consecutive words; those that reach no register are not performed, nor is a write that would change frozen state, whose
TDI goes to ERROR. -/
def State.regWrite (s : State) (off : Nat) (ws : List Word) (ide : Bool) (tdi : Option Nat) : State :=
  let rs := (ws.zipIdx.filterMap (fun e => (regAt (off + 4 * e.2)).map (fun r => (r, e.1)))).filter (fun e => !s.ctlBarred e.1 ide tdi)
  match rs.findSome? (fun e => s.frozenBy e.1 e.2) with
  | some p => s.tdiError p 0
  | none => rs.foldl (fun s e => s.regPut e.1 e.2) s

/-- REGISTER_WRITE: an aligned access of 32 or 64 bits; one that is not aligned has no register (R393). -/
def execRegisterWrite (off : Nat) (wide : Bool) (value : Tlp 64) (s : State) : Out :=
  .next (if wide then (if off % 8 = 0 then s.regWrite off [value.value.setWidth 32, (value.value >>> 32).setWidth 32] value.ide value.tdi
      else s)
    else s.regWrite off [value.value.setWidth 32] value.ide value.tdi)

end Sys2Proof.Machine
end

