-- ==== Sys2Proof/Machine/Dispatch.lean ====
section
/-! DEFINITION. The dispatcher: one arm per constructor of Instr, each a direct call of that instruction's meaning. -/

namespace Sys2Proof.Machine

def exec (i : Instr) (s : State) : Host.Outcome State Fault Refusal :=
  match i with
  | .iadd w m d a b => Sys2Proof.Machine.execIadd w m d a b s
  | .iaddc w d a b => Sys2Proof.Machine.execIaddc w d a b s
  | .isub w m d a b => Sys2Proof.Machine.execIsub w m d a b s
  | .imul w d a b => Sys2Proof.Machine.execImul w d a b s
  | .imulh w u d a b => Sys2Proof.Machine.execImulh w u d a b s
  | .imad w c d a b => Sys2Proof.Machine.execImad w c d a b s
  | .idiv w m d a b => Sys2Proof.Machine.execIdiv w m d a b s
  | .imin w u d a b => Sys2Proof.Machine.execImin w u d a b s
  | .imax w u d a b => Sys2Proof.Machine.execImax w u d a b s
  | .iabs w d a => Sys2Proof.Machine.execIabs w d a s
  | .lea w sh d a b => Sys2Proof.Machine.execLea w sh d a b s
  | .iset p cond m a b => Sys2Proof.Machine.execIset p cond m a b s
  | .sel w p d a b => Sys2Proof.Machine.execSel w p d a b s
  | .mov w d a => Sys2Proof.Machine.execMov w d a s
  | .movs w d a => Sys2Proof.Machine.execMovs w d a s
  | .movImm w d imm => Sys2Proof.Machine.execMovImm w d imm s
  | .fadd w rm d a b => Sys2Proof.Machine.execFadd w rm d a b s
  | .fsub w rm d a b => Sys2Proof.Machine.execFsub w rm d a b s
  | .fmul w rm d a b => Sys2Proof.Machine.execFmul w rm d a b s
  | .ffma w c d a b => Sys2Proof.Machine.execFfma w c d a b s
  | .fmin w d a b => Sys2Proof.Machine.execFmin w d a b s
  | .fmax w d a b => Sys2Proof.Machine.execFmax w d a b s
  | .fset p cond m a b => Sys2Proof.Machine.execFset p cond m a b s
  | .fclass w d a => Sys2Proof.Machine.execFclass w d a s
  | .frnd w rm d a => Sys2Proof.Machine.execFrnd w rm d a s
  | .hadd2 w f d a b => Sys2Proof.Machine.execHadd2 w f d a b s
  | .hmul2 w f d a b => Sys2Proof.Machine.execHmul2 w f d a b s
  | .hfma2 w f d a b => Sys2Proof.Machine.execHfma2 w f d a b s
  | .hmin2 w f d a b => Sys2Proof.Machine.execHmin2 w f d a b s
  | .hmax2 w f d a b => Sys2Proof.Machine.execHmax2 w f d a b s
  | .cvt w df sf rm d a => Sys2Proof.Machine.execCvt w df sf rm d a s
  | .ffmaRm w rm d a b => Sys2Proof.Machine.execFfmaRm w rm d a b s
  | .iaddImm w d imm => Sys2Proof.Machine.execIaddImm w d imm s
  | .and w d a b => Sys2Proof.Machine.execAnd w d a b s
  | .or w d a b => Sys2Proof.Machine.execOr w d a b s
  | .xor w d a b => Sys2Proof.Machine.execXor w d a b s
  | .andn w d a b => Sys2Proof.Machine.execAndn w d a b s
  | .shl w d a b => Sys2Proof.Machine.execShl w d a b s
  | .shr w d a b => Sys2Proof.Machine.execShr w d a b s
  | .sar w d a b => Sys2Proof.Machine.execSar w d a b s
  | .rotl w d a b => Sys2Proof.Machine.execRotl w d a b s
  | .bfx w sg d a b => Sys2Proof.Machine.execBfx w sg d a b s
  | .bfi w d a b => Sys2Proof.Machine.execBfi w d a b s
  | .popc w d a => Sys2Proof.Machine.execPopc w d a s
  | .clz w d a => Sys2Proof.Machine.execClz w d a s
  | .brev w d a => Sys2Proof.Machine.execBrev w d a s
  | .sadd d a b => Sys2Proof.Machine.execSadd d a b s
  | .ssub d a b => Sys2Proof.Machine.execSsub d a b s
  | .smul d a b => Sys2Proof.Machine.execSmul d a b s
  | .sshl m d a b => Sys2Proof.Machine.execSshl m d a b s
  | .sand d a b => Sys2Proof.Machine.execSand d a b s
  | .sor d a b => Sys2Proof.Machine.execSor d a b s
  | .smov d a => Sys2Proof.Machine.execSmov d a s
  | .sset p cond m a b => Sys2Proof.Machine.execSset p cond m a b s
  | .slea sh d a b => Sys2Proof.Machine.execSlea sh d a b s
  | .smovImm d imm => Sys2Proof.Machine.execSmovImm d imm s
  | .saddImm d imm => Sys2Proof.Machine.execSaddImm d imm s
  | .bra sel off => Sys2Proof.Machine.execBra sel off s
  | .brx a => Sys2Proof.Machine.execBrx a s
  | .call sel off => Sys2Proof.Machine.execCall sel off s
  | .ret => Sys2Proof.Machine.execRet s
  | .split sel off => Sys2Proof.Machine.execSplit sel off s
  | .join => Sys2Proof.Machine.execJoin s
  | .brk sel off => Sys2Proof.Machine.execBrk sel off s
  | .loop d len i0 i1 i2 i3 => Sys2Proof.Machine.execLoop d len i0 i1 i2 i3 s
  | .xmrd d => Sys2Proof.Machine.execXmrd d s
  | .xmwr a => Sys2Proof.Machine.execXmwr a s
  | .xmand p => Sys2Proof.Machine.execXmand p s
  | .pand d a b => Sys2Proof.Machine.execPand d a b s
  | .por d a b => Sys2Proof.Machine.execPor d a b s
  | .pxor d a b => Sys2Proof.Machine.execPxor d a b s
  | .pnot d a => Sys2Proof.Machine.execPnot d a s
  | .pmov d a => Sys2Proof.Machine.execPmov d a s
  | .nop => Sys2Proof.Machine.execNop s
  | .exit => Sys2Proof.Machine.execExit s
  | .yield => Sys2Proof.Machine.execYield s
  | .trap code => Sys2Proof.Machine.execTrap code s
  | .trapHost code => Sys2Proof.Machine.execTrapHost code s
  | .rtt => Sys2Proof.Machine.execRtt s
  | .bkpt => Sys2Proof.Machine.execBkpt s
  | .fence ord scope => Sys2Proof.Machine.execFence ord scope s
  | .csrr d csr => Sys2Proof.Machine.execCsrr d csr s
  | .csrw a csr => Sys2Proof.Machine.execCsrw a csr s
  | .barArrive d n ord => Sys2Proof.Machine.execBarArrive d n ord s
  | .barWait d n ord => Sys2Proof.Machine.execBarWait d n ord s
  | .barSync d n ord => Sys2Proof.Machine.execBarSync d n ord s
  | .waittk mask => Sys2Proof.Machine.execWaittk mask s
  | .waitac ac t => Sys2Proof.Machine.execWaitac ac t s
  | .shfl w m d a b => Sys2Proof.Machine.execShfl w m d a b s
  | .vote m d a => Sys2Proof.Machine.execVote m d a s
  | .lred op d a => Sys2Proof.Machine.execLred op d a s
  | .lscan w op exc d a => Sys2Proof.Machine.execLscan w op exc d a s
  | .matchLanes w d a => Sys2Proof.Machine.execMatchLanes w d a s
  | .reorder w d a b => Sys2Proof.Machine.execReorder w d a b s
  | .rebal w d a => Sys2Proof.Machine.execRebal w d a s
  | .elect p => Sys2Proof.Machine.execElect p s
  | .nzs w d a b => Sys2Proof.Machine.execNzs w d a b s
  | .sfn w fn tk d a => Sys2Proof.Machine.execSfn w fn tk d a s
  | .waitmb mask => Sys2Proof.Machine.execWaitmb mask s
  | .ldsp d a base ac m => Sys2Proof.Machine.execLdsp d a base ac m s
  | .stsp d a base ac m => Sys2Proof.Machine.execStsp d a base ac m s
  | .atsp d a base ac m => Sys2Proof.Machine.execAtsp d a base ac m s
  | .ldds d a base ac m => Sys2Proof.Machine.execLdds d a base ac m s
  | .stds d a base ac m => Sys2Proof.Machine.execStds d a base ac m s
  | .atds d a base ac m => Sys2Proof.Machine.execAtds d a base ac m s
  | .lddm d a base ac m => Sys2Proof.Machine.execLddm d a base ac m s
  | .stdm d a base ac m => Sys2Proof.Machine.execStdm d a base ac m s
  | .atdm d a base ac m => Sys2Proof.Machine.execAtdm d a base ac m s
  | .reddm d a base m => Sys2Proof.Machine.execReddm d a base m s
  | .pfdm a base m => Sys2Proof.Machine.execPfdm a base m s
  | .tex d a base ac m => Sys2Proof.Machine.execTex d a base ac m s
  | .hgrid d a base ac m => Sys2Proof.Machine.execHgrid d a base ac m s
  | .stpm d a base m => Sys2Proof.Machine.execStpm d a base m s
  | .redpm d a base m => Sys2Proof.Machine.execRedpm d a base m s
  | .ldhm d a base ac m => Sys2Proof.Machine.execLdhm d a base ac m s
  | .sthm d a base ac m => Sys2Proof.Machine.execSthm d a base ac m s
  | .cld d a base ac m => Sys2Proof.Machine.execCld d a base ac m s
  | .cst d a base ac m => Sys2Proof.Machine.execCst d a base ac m s
  | .cbnd d a b => Sys2Proof.Machine.execCbnd d a b s
  | .crgt d a b => Sys2Proof.Machine.execCrgt d a b s
  | .cmov d a => Sys2Proof.Machine.execCmov d a s
  | .cget d a => Sys2Proof.Machine.execCget d a s
  | .waitmem d a base timeout => Sys2Proof.Machine.execWaitmem d a base timeout s
  | .spawn d a n => Sys2Proof.Machine.execSpawn d a n s
  | .mma d a acc ru => Sys2Proof.Machine.execMma d a acc ru s
  | .mmas d a acc ru ix => Sys2Proof.Machine.execMmas d a acc ru ix s
  | .mmat d a acc => Sys2Proof.Machine.execMmat d a acc s
  | .mxq d a had => Sys2Proof.Machine.execMxq d a had s
  | .mxrd w d acc g => Sys2Proof.Machine.execMxrd w d acc g s
  | .mxst a acc => Sys2Proof.Machine.execMxst a acc s
  | .mxclr acc => Sys2Proof.Machine.execMxclr acc s
  | .mxfence => Sys2Proof.Machine.execMxfence s
  | .clbarArrive d n ord => Sys2Proof.Machine.execClbarArrive d n ord s
  | .clbarWait d n ord => Sys2Proof.Machine.execClbarWait d n ord s
  | .clbarSync d n ord => Sys2Proof.Machine.execClbarSync d n ord s
  | .cpy d a b ac esz st => Sys2Proof.Machine.execCpy d a b ac esz st s
  | .gath d a b ac esz st => Sys2Proof.Machine.execGath d a b ac esz st s
  | .scat d a b ac esz st red => Sys2Proof.Machine.execScat d a b ac esz st red s
  | .route d a b ac esz st => Sys2Proof.Machine.execRoute d a b ac esz st s
  | .chain d a b ac ofmt ifmt st => Sys2Proof.Machine.execChain d a b ac ofmt ifmt st s
  | .vpin d a ac => Sys2Proof.Machine.execVpin d a ac s
  | .vrel a b ac => Sys2Proof.Machine.execVrel a b ac s
  | .vpub d a b ac => Sys2Proof.Machine.execVpub d a b ac s
  | .skupd d a b => Sys2Proof.Machine.execSkupd d a b s
  | .skqry d a b ac => Sys2Proof.Machine.execSkqry d a b ac s
  | .skadd d a ac => Sys2Proof.Machine.execSkadd d a ac s
  | .skclr d ac => Sys2Proof.Machine.execSkclr d ac s
  | .raycast d a b ac cull => Sys2Proof.Machine.execRaycast d a b ac cull s
  | .atmass d a b => Sys2Proof.Machine.execAtmass d a b s
  | .evict d a ac => Sys2Proof.Machine.execEvict d a ac s
  | .posrd d a b ac => Sys2Proof.Machine.execPosrd d a b ac s
  | .launch p a ac => Sys2Proof.Machine.execLaunch p a ac s
  | .evsig a b => Sys2Proof.Machine.execEvsig a b s
  | .coll op d a ac => Sys2Proof.Machine.execColl op d a ac s
  | .packetFetch pid => Sys2Proof.Machine.execPacketFetch pid s
  | .loopBufferRefetch pid => Sys2Proof.Machine.execLoopBufferRefetch pid s
  | .stackSaveAccessDone pid => Sys2Proof.Machine.execStackSaveAccessDone pid s
  | .sfnComplete pid tk => Sys2Proof.Machine.execSfnComplete pid tk s
  | .slotGrant core => Sys2Proof.Machine.execSlotGrant core s
  | .displacement core => Sys2Proof.Machine.execDisplacement core s
  | .residencyQuantumTick core => Sys2Proof.Machine.execResidencyQuantumTick core s
  | .paneSaveComplete pid => Sys2Proof.Machine.execPaneSaveComplete pid s
  | .paneRestore pid => Sys2Proof.Machine.execPaneRestore pid s
  | .teamRestore team core => Sys2Proof.Machine.execTeamRestore team core s
  | .writeApply die k => Sys2Proof.Machine.execWriteApply die k s
  | .waitmemTimeout pid => Sys2Proof.Machine.execWaitmemTimeout pid s
  | .waitmemFinalRead pid => Sys2Proof.Machine.execWaitmemFinalRead pid s
  | .spawnBinTimer core bin => Sys2Proof.Machine.execSpawnBinTimer core bin s
  | .paneFormation core => Sys2Proof.Machine.execPaneFormation core s
  | .memoryReply rid => Sys2Proof.Machine.execMemoryReply rid s
  | .cldReply rid => Sys2Proof.Machine.execCldReply rid s
  | .storeAcceptance rid => Sys2Proof.Machine.execStoreAcceptance rid s
  | .storePerform rid => Sys2Proof.Machine.execStorePerform rid s
  | .matrixTileStep core eng badBanks => Sys2Proof.Machine.execMatrixTileStep core eng badBanks s
  | .mxqUnit core eng => Sys2Proof.Machine.execMxqUnit core eng s
  | .mxrdUnit core eng => Sys2Proof.Machine.execMxrdUnit core eng s
  | .mxstUnit core eng => Sys2Proof.Machine.execMxstUnit core eng s
  | .mxclrUnit core eng => Sys2Proof.Machine.execMxclrUnit core eng s
  | .matrixWatchdog core eng => Sys2Proof.Machine.execMatrixWatchdog core eng s
  | .mxrst core eng => Sys2Proof.Machine.execMxrst core eng s
  | .dsRequest rid => Sys2Proof.Machine.execDsRequest rid s
  | .meshFlitFailure die cluster => Sys2Proof.Machine.execMeshFlitFailure die cluster s
  | .clstatReset die cluster => Sys2Proof.Machine.execClstatReset die cluster s
  | .memoryPortAccess rid => Sys2Proof.Machine.execMemoryPortAccess rid s
  | .engineCommandStart die blk => Sys2Proof.Machine.execEngineCommandStart die blk s
  | .engineChunk die blk cmd => Sys2Proof.Machine.execEngineChunk die blk cmd s
  | .pageResponse tag code => Sys2Proof.Machine.execPageResponse tag code s
  | .pageRequestTimeout tag => Sys2Proof.Machine.execPageRequestTimeout tag s
  | .engineCommandComplete die blk cmd => Sys2Proof.Machine.execEngineCommandComplete die blk cmd s
  | .engineBlockHang die blk => Sys2Proof.Machine.execEngineBlockHang die blk s
  | .engstatReset die blk => Sys2Proof.Machine.execEngstatReset die blk s
  | .dieLinkFailure die link => Sys2Proof.Machine.execDieLinkFailure die link s
  | .genRaise part => Sys2Proof.Machine.execGenRaise part s
  | .genAdoption part => Sys2Proof.Machine.execGenAdoption part s
  | .channelAccess rid lane mismatch act supact aged => Sys2Proof.Machine.execChannelAccess rid lane mismatch act supact aged s
  | .parityDelta stack line => Sys2Proof.Machine.execParityDelta stack line s
  | .dupInvalidation die obj ext => Sys2Proof.Machine.execDupInvalidation die obj ext s
  | .dupInvalidationAck obj ext => Sys2Proof.Machine.execDupInvalidationAck obj ext s
  | .publicationCommand cmd => Sys2Proof.Machine.execPublicationCommand cmd s
  | .rdxRequest stack chan => Sys2Proof.Machine.execRdxRequest stack chan s
  | .sketchCommand cmd => Sys2Proof.Machine.execSketchCommand cmd s
  | .raycastDispatch core ctx => Sys2Proof.Machine.execRaycastDispatch core ctx s
  | .rayMessageArrival base k => Sys2Proof.Machine.execRayMessageArrival base k s
  | .trvBatchStart base => Sys2Proof.Machine.execTrvBatchStart base s
  | .trvBatchEnd base => Sys2Proof.Machine.execTrvBatchEnd base s
  | .rayFinalRecord core base => Sys2Proof.Machine.execRayFinalRecord core base s
  | .horizonSend base => Sys2Proof.Machine.execHorizonSend base s
  | .horizon base core => Sys2Proof.Machine.execHorizon base core s
  | .rayContextRelease core ctx => Sys2Proof.Machine.execRayContextRelease core ctx s
  | .trvHang base => Sys2Proof.Machine.execTrvHang base s
  | .horizonTimeout core base => Sys2Proof.Machine.execHorizonTimeout core base s
  | .trvReset base => Sys2Proof.Machine.execTrvReset base s
  | .trvringWrite base value => Sys2Proof.Machine.execTrvringWrite base value s
  | .filterRequest rid => Sys2Proof.Machine.execFilterRequest rid s
  | .evictPerform cmd => Sys2Proof.Machine.execEvictPerform cmd s
  | .conditionalPublication cmd => Sys2Proof.Machine.execConditionalPublication cmd s
  | .posrdPerform rid => Sys2Proof.Machine.execPosrdPerform rid s
  | .eveHang base => Sys2Proof.Machine.execEveHang base s
  | .eveReset base => Sys2Proof.Machine.execEveReset base s
  | .wqtailWrite queue tail => Sys2Proof.Machine.execWqtailWrite queue tail s
  | .gridStart queue => Sys2Proof.Machine.execGridStart queue s
  | .launchAccept core k => Sys2Proof.Machine.execLaunchAccept core k s
  | .teamPlacement grid => Sys2Proof.Machine.execTeamPlacement grid s
  | .gridRetirement grid => Sys2Proof.Machine.execGridRetirement grid s
  | .eventCounterWrite n value => Sys2Proof.Machine.execEventCounterWrite n value s
  | .bandwidthTick => Sys2Proof.Machine.execBandwidthTick s
  | .contextSwitchOut core => Sys2Proof.Machine.execContextSwitchOut core s
  | .contextSwitchComplete core => Sys2Proof.Machine.execContextSwitchComplete core s
  | .corectxPartWrite core part => Sys2Proof.Machine.execCorectxPartWrite core part s
  | .flitReceive port f => Sys2Proof.Machine.execFlitReceive port f s
  | .linkRetryRequest port lack => Sys2Proof.Machine.execLinkRetryRequest port lack s
  | .idleFlit port => Sys2Proof.Machine.execIdleFlit port s
  | .sealedMessage port f => Sys2Proof.Machine.execSealedMessage port f s
  | .windowUpdate port vl amount => Sys2Proof.Machine.execWindowUpdate port vl amount s
  | .pmRequest r => Sys2Proof.Machine.execPmRequest r s
  | .pmAck rid => Sys2Proof.Machine.execPmAck rid s
  | .pmFailureReport rid lanes cause => Sys2Proof.Machine.execPmFailureReport rid lanes cause s
  | .collStart cmd => Sys2Proof.Machine.execCollStart cmd s
  | .collContribution m => Sys2Proof.Machine.execCollContribution m s
  | .collComplete cmd => Sys2Proof.Machine.execCollComplete cmd s
  | .collTimeout cmd => Sys2Proof.Machine.execCollTimeout cmd s
  | .lnkengReset base => Sys2Proof.Machine.execLnkengReset base s
  | .hostCompletion rid st => Sys2Proof.Machine.execHostCompletion rid st s
  | .hostCompletionTimeout rid => Sys2Proof.Machine.execHostCompletionTimeout rid s
  | .getVersion => Sys2Proof.Machine.execGetVersion s
  | .getCapabilities => Sys2Proof.Machine.execGetCapabilities s
  | .negotiateAlgorithms offer => Sys2Proof.Machine.execNegotiateAlgorithms offer s
  | .getDigests => Sys2Proof.Machine.execGetDigests s
  | .getCertificate slot off len => Sys2Proof.Machine.execGetCertificate slot off len s
  | .challenge slot nonce => Sys2Proof.Machine.execChallenge slot nonce s
  | .getMeasurements idx sign nonce => Sys2Proof.Machine.execGetMeasurements idx sign nonce s
  | .keyExchange share => Sys2Proof.Machine.execKeyExchange share s
  | .finish part mac peer => Sys2Proof.Machine.execFinish part mac peer s
  | .endSession part => Sys2Proof.Machine.execEndSession part s
  | .ideKm payload => Sys2Proof.Machine.execIdeKm payload s
  | .lockInterface part => Sys2Proof.Machine.execLockInterface part s
  | .stopInterface part => Sys2Proof.Machine.execStopInterface part s
  | .powerOn o => Sys2Proof.Machine.execPowerOn o s
  | .panecmdResume core grid team pord => Sys2Proof.Machine.execPanecmdResume core grid team pord s
  | .panecmdExit core grid team pord => Sys2Proof.Machine.execPanecmdExit core grid team pord s
  | .thermalWarning island temp => Sys2Proof.Machine.execThermalWarning island temp s
  | .thermalFreeze island temp => Sys2Proof.Machine.execThermalFreeze island temp s
  | .thermThaw die tmax => Sys2Proof.Machine.execThermThaw die tmax s
  | .droop island depth => Sys2Proof.Machine.execDroop island depth s
  | .lifetimeFlush => Sys2Proof.Machine.execLifetimeFlush s
  | .orderlyShutdown => Sys2Proof.Machine.execOrderlyShutdown s
  | .lifectlGo => Sys2Proof.Machine.execLifectlGo s
  | .lifetimeExportDone ok => Sys2Proof.Machine.execLifetimeExportDone ok s
  | .registerWrite off wide value => Sys2Proof.Machine.execRegisterWrite off wide value s
  | .linkTraining port => Sys2Proof.Machine.execLinkTraining port s
  | .startInterface part => Sys2Proof.Machine.execStartInterface part s
  | .hostWrite addr bytes => Sys2Proof.Machine.execHostWrite addr bytes s
  | .powerLoss => Sys2Proof.Machine.execPowerLoss s

end Sys2Proof.Machine
end

