-- ==== Sys2Proof/Machine/Issue.lean ====
section
/-! DEFINITION. A turn: the registers a word names, the checks before its meaning, the chained group (R29 to R36), the order of
turns (R133, R136) and what happens when no pane issues. -/

namespace Sys2Proof.Machine

/-! ### The registers a word names (R11, R35, R36) -/

/-- A register, or a run of registers, that a word's fields name: its class, its first register, its length. -/
inductive Named where
  | v (n k : Nat)
  | s (n k : Nat)
  | c (n : Nat)
  deriving DecidableEq, Repr

def vs (a : VSrc) (n : Nat) : List Named :=
  match a with
  | .reg r => [.v r.val n]
  | _ => []

def vd (d : VDst) (n : Nat) : List Named :=
  match d with
  | .reg r => [.v r.val n]
  | .discard => []

def ss (a : SSrc) : List Named :=
  match a with
  | .reg r => [.s r.val 1]
  | _ => []

def sd (d : SDst) : List Named :=
  match d with
  | .reg r => [.s r.val 1]
  | .discard => []

def so (d : SOpt) : List Named :=
  match d with
  | .reg r => [.s r.val 1]
  | .zero => []

def sOpt {n : Nat} (d : Option (Fin n)) (len : Nat) : List Named :=
  match d with
  | some r => [.s r.val len]
  | none => []

/-- The registers of an address operand (R163). -/
def addrRun (m : Option MMod) : Nat := if (modOf m).p then 2 else 1

/-- The registers of a LOOP's increment field. -/
def incRuns (i : LoopInc) : List Named :=
  match i with
  | .none => []
  | .addNext r => [.s r.val 2]
  | .inc r => [.s r.val 1]
  | .dec r => [.s r.val 1]
  | .bad _ => []

def thrRuns (t : Thr) : List Named :=
  match t with
  | .reg r => [.s r.val 1]
  | _ => []

/-- Three vector fields. -/
def vvv (d : VDst) (a b : VSrc) : List Named := vd d 1 ++ vs a 1 ++ vs b 1

def vv (d : VDst) (a : VSrc) : List Named := vd d 1 ++ vs a 1

def sss (d : SDst) (a b : SSrc) : List Named := sd d ++ ss a ++ ss b

/-- The fields of a load, and of a store or a reduction. -/
def ldRuns (d : Nat) (a : VSrc) (m : Option MMod) : List Named := .v d (modOf m).size.regs :: vs a (addrRun m)

def stRuns (d a : VSrc) (m : Option MMod) : List Named := vs d (modOf m).size.regs ++ vs a (addrRun m)

def atRuns (d : VDst) (a : VSrc) (m : Option MMod) : List Named := vd d (atomRegs (modOf m)) ++ vs a (addrRun m)

/-- The fields of a die engine word. -/
def engRuns (d : Option (Fin 63)) (a : Fin 57) (b : SOpt) : List Named := sOpt d 2 ++ [.s a.val 8] ++ so b

/-- The registers that a word's fields name. -/
def wordRegs (i : Instr) : List Named :=
  match i with
  | .iadd _ _ d a b => vvv d a b
  | .iaddc _ d a b => vvv d a b
  | .isub _ _ d a b => vvv d a b
  | .imul _ d a b => vvv d a b
  | .imulh _ _ d a b => vvv d a b
  | .imad _ _ d a b => vvv d a b
  | .idiv _ _ d a b => vvv d a b
  | .imin _ _ d a b => vvv d a b
  | .imax _ _ d a b => vvv d a b
  | .iabs _ d a => vv d a
  | .lea _ _ d a b => vvv d a b
  | .iset _ _ _ a b => vs a 1 ++ vs b 1
  | .sel _ _ d a b => vvv d a b
  | .mov _ d a => vv d a
  | .movs _ d a => vd d 1 ++ ss a
  | .movImm _ d _ => vd d 1
  | .fadd _ _ d a b => vvv d a b
  | .fsub _ _ d a b => vvv d a b
  | .fmul _ _ d a b => vvv d a b
  | .ffma _ _ d a b => vvv d a b
  | .fmin _ d a b => vvv d a b
  | .fmax _ d a b => vvv d a b
  | .fset _ _ _ a b => vs a 1 ++ vs b 1
  | .fclass _ d a => vv d a
  | .frnd _ _ d a => vv d a
  | .hadd2 _ _ d a b => vvv d a b
  | .hmul2 _ _ d a b => vvv d a b
  | .hfma2 _ _ d a b => vvv d a b
  | .hmin2 _ _ d a b => vvv d a b
  | .hmax2 _ _ d a b => vvv d a b
  | .cvt _ _ _ _ d a => vv d a
  | .ffmaRm _ _ d a b => vvv d a b
  | .iaddImm _ d _ => vd d 1
  | .and _ d a b => vvv d a b
  | .or _ d a b => vvv d a b
  | .xor _ d a b => vvv d a b
  | .andn _ d a b => vvv d a b
  | .shl _ d a b => vvv d a b
  | .shr _ d a b => vvv d a b
  | .sar _ d a b => vvv d a b
  | .rotl _ d a b => vvv d a b
  | .bfx _ _ d a b => vvv d a b
  | .bfi _ d a b => vvv d a b
  | .popc _ d a => vv d a
  | .clz _ d a => vv d a
  | .brev _ d a => vv d a
  | .sadd d a b => sss d a b
  | .ssub d a b => sss d a b
  | .smul d a b => sss d a b
  | .sshl _ d a b => sss d a b
  | .sand d a b => sss d a b
  | .sor d a b => sss d a b
  | .smov d a => sd d ++ ss a
  | .sset _ _ _ a b => ss a ++ ss b
  | .slea _ d a b => sss d a b
  | .smovImm d _ => sd d
  | .saddImm d _ => sd d
  | .bra _ _ => []
  | .brx a => [.s a.val 2]
  | .call _ _ => []
  | .ret => []
  | .split _ _ => []
  | .join => []
  | .brk _ _ => []
  | .loop d _ i0 i1 i2 i3 => so d ++ incRuns i0 ++ incRuns i1 ++ incRuns i2 ++ incRuns i3
  | .xmrd d => sd d
  | .xmwr a => ss a
  | .xmand _ => []
  | .pand _ _ _ => []
  | .por _ _ _ => []
  | .pxor _ _ _ => []
  | .pnot _ _ => []
  | .pmov _ _ => []
  | .nop => []
  | .exit => []
  | .yield => []
  | .trap _ => []
  | .trapHost _ => []
  | .rtt => []
  | .bkpt => []
  | .fence _ _ => []
  | .csrr d _ => sd d
  | .csrw a _ => ss a
  | .barArrive d _ _ => so d
  | .barWait d _ _ => so d
  | .barSync d _ _ => so d
  | .waittk _ => []
  | .waitac _ t => thrRuns t
  | .shfl _ _ d a b => vvv d a b
  | .vote _ d a => sd d ++ vs a 1
  | .lred _ d a => sd d ++ vs a 1
  | .lscan _ _ _ d a => vv d a
  | .matchLanes _ d a => vv d a
  | .reorder _ d a b => vvv d a b
  | .rebal _ d a => .v d.val 2 :: vs a 1
  | .elect _ => []
  | .nzs _ d a b => vv d a ++ sd b
  | .sfn _ _ _ d a => vv d a
  | .waitmb _ => []
  | .ldsp d a base _ m => .s base.val 1 :: ldRuns d.val a m
  | .stsp d a base _ m => .s base.val 1 :: stRuns d a m
  | .atsp d a base _ m => .s base.val 1 :: atRuns d a m
  | .ldds d a base _ m => .s base.val 1 :: ldRuns d.val a m
  | .stds d a base _ m => .s base.val 1 :: stRuns d a m
  | .atds d a base _ m => .s base.val 1 :: atRuns d a m
  | .lddm d a base _ m => .c base.val :: ldRuns d.val a m
  | .stdm d a base _ m => .c base.val :: stRuns d a m
  | .atdm d a base _ m => .c base.val :: atRuns d a m
  | .reddm d a base m => .c base.val :: stRuns d a m
  | .pfdm a base m => .c base.val :: vs a (addrRun m)
  | .tex d a base _ m => .c base.val :: .v a.val 2 :: [.v d.val ((m.getD {}).nres.val + 1)]
  | .hgrid d a base _ m => .c base.val :: .v a.val 3 :: [.v d.val (m.getD {}).regs]
  | .stpm d a base m => .c base.val :: stRuns d a m
  | .redpm d a base m => .c base.val :: stRuns d a m
  | .ldhm d a base _ m => .c base.val :: ldRuns d.val a m
  | .sthm d a base _ m => .c base.val :: stRuns d a m
  | .cld d a base _ _ => [.c d.val, .c base.val] ++ ss a
  | .cst d a base _ _ => [.c d.val, .c base.val] ++ ss a
  | .cbnd d a b => [.c d.val, .c a.val, .s b.val 2]
  | .crgt d a b => [.c d.val, .c a.val] ++ ss b
  | .cmov d a => [.c d.val, .c a.val]
  | .cget d a => [.s d.val 4, .c a.val]
  | .waitmem d a base _ => .c base.val :: (so d ++ ss a)
  | .spawn d a n => .s a.val 2 :: vs d (max 1 n.val)
  | .mma d a _ _ => [.v d.val 8, .s a.val 2]
  | .mmas d a _ _ i => [.v d.val 8, .s a.val 2, .s i.val 1]
  | .mmat d a _ => [.v d.val 8, .s a.val 2]
  | .mxq d a _ => [.s d.val 2, .v a.val 16]
  | .mxrd _ d _ _ => [.v d.val 8]
  | .mxst a _ => [.s a.val 2]
  | .mxclr _ => []
  | .mxfence => []
  | .clbarArrive d _ _ => so d
  | .clbarWait d _ _ => so d
  | .clbarSync d _ _ => so d
  | .cpy d a b _ _ _ => engRuns d a b
  | .gath d a b _ _ _ => engRuns d a b
  | .scat d a b _ _ _ _ => engRuns d a b
  | .route d a b _ _ _ => engRuns d a b
  | .chain d a b _ _ _ _ => engRuns d a b
  | .vpin d a _ => .c a.val :: sOpt d 3
  | .vrel a b _ => .c a.val :: so b
  | .vpub d a b _ => .c a.val :: .s b.val 2 :: sOpt d 2
  | .skupd d a b => .c d.val :: (vs a 1 ++ vs b 1)
  | .skqry d a b _ => .c b.val :: .v d.val 1 :: vs a 1
  | .skadd d a _ => [.c d.val, .c a.val]
  | .skclr d _ => [.c d.val]
  | .raycast d a b _ _ => [.c d.val, .v a.val 9, .s b.val 4]
  | .atmass d a b => .c d.val :: (vs a 1 ++ vs b 1)
  | .evict d a _ => .s a.val 8 :: sOpt d 2
  | .posrd d a b _ => [.v d.val 1, .c a.val, .v b.val 2]
  | .launch _ a _ => [.s a.val 2]
  | .evsig a b => so a ++ so b
  | .coll _ d a _ => .s a.val 8 :: sOpt d 2
  | .packetFetch _ => []
  | .loopBufferRefetch _ => []
  | .stackSaveAccessDone _ => []
  | .sfnComplete _ _ => []
  | .slotGrant _ => []
  | .displacement _ => []
  | .residencyQuantumTick _ => []
  | .paneSaveComplete _ => []
  | .paneRestore _ => []
  | .teamRestore _ _ => []
  | .writeApply _ _ => []
  | .waitmemTimeout _ => []
  | .waitmemFinalRead _ => []
  | .spawnBinTimer _ _ => []
  | .paneFormation _ => []
  | .memoryReply _ => []
  | .cldReply _ => []
  | .storeAcceptance _ => []
  | .storePerform _ => []
  | .matrixTileStep _ _ _ => []
  | .mxqUnit _ _ => []
  | .mxrdUnit _ _ => []
  | .mxstUnit _ _ => []
  | .mxclrUnit _ _ => []
  | .matrixWatchdog _ _ => []
  | .mxrst _ _ => []
  | .dsRequest _ => []
  | .meshFlitFailure _ _ => []
  | .clstatReset _ _ => []
  | .memoryPortAccess _ => []
  | .engineCommandStart _ _ => []
  | .engineChunk _ _ _ => []
  | .pageResponse _ _ => []
  | .pageRequestTimeout _ => []
  | .engineCommandComplete _ _ _ => []
  | .engineBlockHang _ _ => []
  | .engstatReset _ _ => []
  | .dieLinkFailure _ _ => []
  | .genRaise _ => []
  | .genAdoption _ => []
  | .channelAccess _ _ _ _ _ _ => []
  | .parityDelta _ _ => []
  | .dupInvalidation _ _ _ => []
  | .dupInvalidationAck _ _ => []
  | .publicationCommand _ => []
  | .rdxRequest _ _ => []
  | .sketchCommand _ => []
  | .raycastDispatch _ _ => []
  | .rayMessageArrival _ _ => []
  | .trvBatchStart _ => []
  | .trvBatchEnd _ => []
  | .rayFinalRecord _ _ => []
  | .horizonSend _ => []
  | .horizon _ _ => []
  | .rayContextRelease _ _ => []
  | .trvHang _ => []
  | .horizonTimeout _ _ => []
  | .trvReset _ => []
  | .trvringWrite _ _ => []
  | .filterRequest _ => []
  | .evictPerform _ => []
  | .conditionalPublication _ => []
  | .posrdPerform _ => []
  | .eveHang _ => []
  | .eveReset _ => []
  | .wqtailWrite _ _ => []
  | .gridStart _ => []
  | .launchAccept _ _ => []
  | .teamPlacement _ => []
  | .gridRetirement _ => []
  | .eventCounterWrite _ _ => []
  | .bandwidthTick => []
  | .contextSwitchOut _ => []
  | .contextSwitchComplete _ => []
  | .corectxPartWrite _ _ => []
  | .flitReceive _ _ => []
  | .linkRetryRequest _ _ => []
  | .idleFlit _ => []
  | .sealedMessage _ _ => []
  | .windowUpdate _ _ _ => []
  | .pmRequest _ => []
  | .pmAck _ => []
  | .pmFailureReport _ _ _ => []
  | .collStart _ => []
  | .collContribution _ => []
  | .collComplete _ => []
  | .collTimeout _ => []
  | .lnkengReset _ => []
  | .hostCompletion _ _ => []
  | .hostCompletionTimeout _ => []
  | .getVersion => []
  | .getCapabilities => []
  | .negotiateAlgorithms _ => []
  | .getDigests => []
  | .getCertificate _ _ _ => []
  | .challenge _ _ => []
  | .getMeasurements _ _ _ => []
  | .keyExchange _ => []
  | .finish _ _ _ => []
  | .endSession _ => []
  | .ideKm _ => []
  | .lockInterface _ => []
  | .stopInterface _ => []
  | .powerOn _ => []
  | .panecmdResume _ _ _ _ => []
  | .panecmdExit _ _ _ _ => []
  | .thermalWarning _ _ => []
  | .thermalFreeze _ _ => []
  | .thermThaw _ _ => []
  | .droop _ _ => []
  | .lifetimeFlush => []
  | .orderlyShutdown => []
  | .lifectlGo => []
  | .lifetimeExportDone _ => []
  | .registerWrite _ _ _ => []
  | .linkTraining _ => []
  | .startInterface _ => []
  | .hostWrite _ _ => []
  | .powerLoss => []

/-- Whether every vector register a word names lies below the pane's count (R11, R35). -/
def Pane.countOk (p : Pane) (i : Instr) : Bool :=
  (wordRegs i).all (fun r => match r with
    | .v n k => decide (n + k ≤ p.nregs)
    | _ => true)

/-- Whether a word names a register that is pending (R36, R160, R223, R273). -/
def Pane.namesPending (p : Pane) (i : Instr) : Bool :=
  (wordRegs i).any (fun r => match r with
    | .c n => bit p.cPend n
    | .s n k => p.sPend &&& sRun (some n) k != 0
    | .v _ _ => false)

/-! ### One word and its group (R30, R31, R36) -/

/-- The slot of the last word of the group that a word begins, whose packet goes on with `rest` (R30). -/
def groupEnd (slot : BitVec 2) (w : Word) : List (BitVec 2 × Word) → BitVec 2
  | [] => slot
  | (k, v) :: rest => if wChain w.toNat then groupEnd k v rest else slot

/-- The word of a slot is to issue; `after` is the word after the last one of its group. -/
def State.atWord (s : State) (slot : BitVec 2) (w sill : Word) (rest : List (BitVec 2 × Word)) : State :=
  let pkt := pcPkt s.pane.pc
  let s := onPane (fun p => { p with pc := mkPc pkt slot }) s
  { s with issue := .go, word := w, sill := sill, after := nextWord pkt (groupEnd slot w rest) }

/-- Steps 2 to 4 of R36. -/
def State.runWord (s : State) : Out :=
  match decodeWord s.word.toNat s.sill with
  | .error .illegalInstruction => .next (takeTrap cIllegal s.word s)
  | .error .illegalOperand => .next (takeTrap cOperand s.word s)
  | .ok i =>
      if !s.pane.countOk i then .next (takeTrap cOperand s.word s)
      else if s.pane.namesPending i then .next (held s)
      else exec i s

/-- No word of the group takes effect in this turn; what its words asked of the page tables and the park buffers stays. -/
def State.rollback (start s : State) : State := { start with pages := s.pages, answered := s.answered, parkQ := s.parkQ, invals := s.invals }

/-- The group has ended, unless it is held or waits for a save access: a departure may take the pane (R26). -/
def State.boundary (s : State) : State :=
  if s.issue = .held ∨ s.pane.saveAcc.isSome = true then s else onPane (fun p => { p with midGroup := false }) s

/-- The words of a group in slot order, with their slots. -/
def runGroup (start : State) (sill : Word) : List (BitVec 2 × Word) → State → Out
  | [], s => .next s
  | (k, w) :: rest, s =>
      match (s.atWord k w sill rest).runWord with
      | .next t =>
          (match t.issue with
            | .held => .next (start.rollback t)
            | .ended => .next t.boundary
            | .go =>
                if wChain w.toNat && !rest.isEmpty then runGroup start sill rest t
                else .next (finishGroup start (s.atWord k w sill rest) t).boundary)
      | r => r

/-- The words from a slot of a packet on. -/
def Packet.from (k : Packet) (slot : Nat) : List (BitVec 2 × Word) := ([(0, k.w0), (1, k.w1), (2, k.w2)] : List (BitVec 2 × Word)).drop slot

/-- The pane's next group issues from its packet, which is checked first (R29, R32, R36). -/
def issuePacket (k : Packet) (s : State) : Out :=
  if k.bad then .next (takeTrap cPacket 1 (onPane (fun p => { p with ibuf := none }) s))
  else
    let d := packetDetail k.w0.toNat k.w1.toNat k.w2.toNat
    if d ≠ 0 then .next (takeTrap cPacket (wordOfNat d) s)
    else runGroup s k.sill (k.from (pcSlot s.pane.pc).toNat) s

/-- The turn of the pane that is checked out. -/
def takeTurn (s : State) : Out :=
  match loopTurn { s with issue := .go } with
  | (s, false) => .next s
  | (s, true) =>
      match fetchTurn s with
      | (s, false) => .next s
      | (s, true) =>
          match s.pane.ibuf with
          | some k => issuePacket k s
          | none => .next s

/-- Whether a resident pane takes its turn: it is not leaving, but for the rest of a group that a save access has held; it is not
being restored, waits for no save access, and its die is not frozen (R22, R26, R136, R140, R391). -/
def State.mayTurn (s : State) (p : Pane) : Bool :=
  p.place.slot.isSome && (!p.moving || p.midGroup) && !p.restoring && p.saveAcc.isNone && !(s.die (dieOf p.core)).frozen

/-! ### What happens where no pane issues -/

/-- The steps that the work under way may take next (log entry 44). -/
def State.reqSteps (r : Req) : List Instr :=
  List.flatten [[.memoryPortAccess ⟨r.rid, false⟩, .dsRequest r.rid, .storeAcceptance r.rid],
    r.lanes.map (fun l => Instr.channelAccess r.rid l.lane false false false false),
    [.filterRequest r.rid, .posrdPerform r.rid, .sketchCommand r.rid, .storePerform r.rid, .memoryReply r.rid, .cldReply r.rid]]

def State.paneSteps (p : Pane) : List Instr :=
  List.flatten [(List.finRange 16).map (Instr.sfnComplete p.pid),
    [.stackSaveAccessDone p.pid, .paneSaveComplete p.pid, .paneRestore p.pid, .waitmemFinalRead p.pid, .waitmemTimeout p.pid]]

/-- The steps of a matrix engine. -/
def engSteps (c e : Nat) : List Instr :=
  [.matrixTileStep c e [], .mxqUnit c e, .mxrdUnit c e, .mxstUnit c e, .mxclrUnit c e]

/-- The pane command in progress (R389). -/
def Core.cmdSteps (k : Core) (c : Nat) : List Instr :=
  if k.cmdBusy then [.panecmdResume c k.cmdGrid.toNat k.cmdTeam.toNat k.cmdPord] else []

def State.coreSteps (s : State) (c : Nat) : List Instr :=
  List.flatten [[.paneFormation c, .slotGrant c, .displacement c, .contextSwitchComplete c],
    engSteps c 0, engSteps c 1, (s.core c).cmdSteps c,
    (Tab.keys (s.core c).ctxs).flatMap (fun k => [Instr.raycastDispatch c k, Instr.rayContextRelease c k]),
    (List.range 16).map (Instr.rayFinalRecord c), (List.range 16).map (fun g => Instr.horizon g c)]

/-- The steps of an engine block. -/
def State.blkSteps (s : State) (d b : Nat) : List Instr :=
  Instr.engineCommandStart d b ::
    (s.blk d b).cmds.flatMap (fun c => [Instr.engineChunk d b ⟨c.cmd.id, false⟩, Instr.engineCommandComplete d b c.cmd.id])

def State.dieSteps (s : State) (d : Nat) : List Instr :=
  List.flatten [(List.range (s.die d).applyQ.length).map (Instr.writeApply d), (List.range 4).flatMap (s.blkSteps d),
    s.invals.map (fun i => Instr.dupInvalidation d i.1 i.2.1)]

def State.baseSteps (s : State) (g : Nat) : List Instr :=
  List.flatten [(s.base g).deltas.map (fun d => Instr.parityDelta g d.line),
    (List.range (s.base g).trv.inbox.length).map (Instr.rayMessageArrival g), [.trvBatchStart g, .trvBatchEnd ⟨g, []⟩]]

/-- The steps of a package engine command. -/
def cmdSteps1 (c : Cmd) : List Instr :=
  [.publicationCommand c.id, .sketchCommand c.id, .evictPerform c.id, .conditionalPublication c.id, .launchAccept c.core c.id]

def State.cmdSteps (s : State) : List Instr :=
  List.flatten [(Tab.vals s.cmds).flatMap cmdSteps1,
    (Tab.keys s.colls).flatMap (fun k => [Instr.collStart k, Instr.collComplete k])]

/-- The teams that wait for a home core, on every core. -/
def State.teamSteps (s : State) : List Instr :=
  (s.teams.filter (fun (e : Nat × Team) => e.2.home.isNone)).flatMap (fun e => (Tab.keys s.cores).map (Instr.teamRestore e.1))

def State.gridSteps (s : State) : List Instr :=
  List.flatten [(Tab.keys s.queues).map Instr.gridStart, s.accepted.map (fun g => Instr.gridStart (32768 + g)),
    (Tab.keys s.grids).flatMap (fun g => [Instr.teamPlacement g, Instr.gridRetirement g]), s.teamSteps,
    (Tab.keys s.parts).map Instr.genAdoption, s.invals.map (fun i => Instr.dupInvalidationAck i.1 i.2.1)]

/-- R310: while a core holds ray contexts, the base dies send horizons in turn, one in each cycle. -/
def State.horizonSteps (s : State) : List Instr :=
  if (Tab.vals s.cores).any (fun c => !c.ctxs.isEmpty) then [Instr.horizonSend (s.cycle % 16)] else []

/-- Every step that the package itself may take, by kind of work. -/
def State.ownGroups (s : State) : List (List Instr) :=
  [(Tab.vals s.reqs).flatMap State.reqSteps, s.chanQ.map (fun c => Instr.rdxRequest (s.rdxOf c).1 (s.rdxOf c).2),
    s.allPanes.flatMap State.paneSteps, s.cmdSteps, (Tab.keys s.dies).flatMap s.dieSteps,
    (Tab.keys s.bases).flatMap s.baseSteps, (Tab.keys s.cores).flatMap s.coreSteps, s.gridSteps, s.horizonSteps]

/-- A list begun at a place that goes round. -/
def turned (k : Nat) (l : List Instr) : List Instr := l.drop (k % l.length) ++ l.take (k % l.length)

/-- Every step that the package itself may take. Each cycle begins with the next kind of work, and in time with each
step of it, so that no step that may always happen waits for ever (log entry 44). -/
def State.ownSteps (s : State) : List Instr :=
  let gs := s.ownGroups.map (turned (s.cycle / s.ownGroups.length))
  (gs.drop (s.cycle % gs.length)).flatten ++ (gs.take (s.cycle % gs.length)).flatten

/-- The first of some steps that may happen happens: a step that may not leaves the state as it is (log entry 44). -/
def State.first (s : State) : List Instr → State
  | [] => s
  | i :: r =>
      match exec i s with
      | .next t => if t = s then s.first r else t
      | _ => s.first r

/-- A turn that no pane takes: one step of the work under way. -/
def State.idle (s : State) : Out := .next (s.first s.ownSteps)

/-! ### The order of turns (R133) -/

/-- The ticks due in a cycle (R138, R359). -/
def State.ticks (s : State) : List Instr :=
  (if s.cycle % 1024 = 0 then [.bandwidthTick] else []) ++
    (if s.cycle % quantum = 0 then (Tab.keys s.cores).map (fun c => .residencyQuantumTick c) else [])

/-- Whether a core's bins have something to settle at the end of a cycle. -/
def Core.binsDue (c : Core) (now : Nat) : Bool :=
  !c.pend.isEmpty || (List.range 16).any (fun b => (c.forming.isEmpty && c.timed now b) || (c.out && (c.bins.getD b {}).key.isSome))

/-- What ends a cycle in a core: its bins are settled and the panes they form take their places (R148, R149), a barrier set that is to be loaded is read (R216). -/
def State.endCore (s : State) (core : Nat) : State :=
  let s := if (s.core core).binsDue s.cycle then (fun t => t.formAll core (t.core core).forming.length) (s.endBins core) else s
  (s.loadSet core).getD s

/-- The next cycle begins. -/
def State.nextCycle (s : State) : Out :=
  let s := (Tab.keys s.cores).foldl State.endCore s
  let s := { s with cursor := 0, cycle := s.cycle + 1, time := s.time + 1, turns := Tab.keys s.cores }
  let s := if s.time % second = 0 then s.lifeSecond else s
  if s.ticks.isEmpty then s.idle else .next { s with agenda := s.ticks }

/-- The next turn of the cycle: core by core, of those the package has at its beginning, barrel by barrel, to the slot that the cycle
gives. -/
def State.offer (s : State) : Out :=
  match s.turns[s.cursor / 4]? with
  | none => s.nextCycle
  | some c =>
      let t := { s with cursor := s.cursor + 1 }
      match s.slotPane c (8 * (s.cursor % 4) + s.cycle % 8) with
      | none => t.idle
      | some p => if s.mayTurn p then takeTurn (t.checkOut p.pid) else t.idle

/-! ### A program's place (the host's loader) -/

/-- Where `withFetchWord` puts the table entry, the extent list and the packet: OTBASE of die 0, and physical addresses. -/
def bootTable : Nat := 0x1000
def bootList : Nat := 0x1100
def bootPacket : Nat := 0x10000

/-- Object 0 of partition 1: valid, KEY 1, KIND 0, VBASE 0, LEN 64 KiB, one extent (R230). -/
def bootEntry : Nat := 1 + 1 * 2 ^ 20 + 1 * 2 ^ 28 + bootList * 2 ^ 48 + 65536 * 2 ^ 160

/-- Its extent: resident, tier 0, frame 1, one page. -/
def bootExtent : Nat := 1 + 1 * 2 ^ 48 + 1 * 2 ^ 104

/-- The pane of the turn made a resident pane of core 0 at packet 0, with 120 vector registers. -/
def Pane.boot (p : Pane) (slot : Nat) : Pane :=
  { p with part := 1, core := 0, place := .resident slot, inCore := true, moving := false, midGroup := false, swapped := false, restoring := false,
           nregs := 120, v := (p.v ++ List.replicate 120 (List.replicate 32 0)).take 120, pc := 0, nextPc := none,
           exiting := false, wait := .none, ibuf := none, saveAcc := none, pendTrap := none,
           stack := p.stack.filter (fun e => e.kind != .loop) }

/-- The state with an instruction where the next step fetches it: the object table, the packet, the pane that runs it. -/
def State.boot (s : State) (w : Nat) : State :=
  let dm := Mem.writeN (Mem.writeN (Mem.writeN s.dm bootTable (toBytes 32 bootEntry)) bootList (toBytes 16 bootExtent)) bootPacket
    (toBytes 16 (w % 2 ^ 32))
  let s := { s with dm := dm, agenda := [], powered := true, cursor := 0, turns := [0], chanEvs := [],
                    poisoned := s.poisoned.filter (fun l => l != bootTable / 64 && l != bootList / 64 && l != bootPacket / 64),
                    lineKey := Tab.set s.lineKey (bootPacket / 64) (1, s.slotGen 1),
                    otAddr := Tab.set s.otAddr 0 (Tab.set (Tab.getD s.otAddr 0 []) 1 (bootTable + 1)) }
  let s := (s.modCore 0 (fun c => { c with part := 1 })).modDie 0 (fun d =>
    { d with frozen := false, objs := d.objs.filter (fun o => o.part != 1) })
  onPane (fun p => p.boot (s.cycle % 8)) s

end Sys2Proof.Machine
end

