-- ==== Sys2Proof/Machine/Step.lean ====
section
/-! DEFINITION. The step: a step that has been asked for happens first; else the next turn is offered (R133). -/

namespace Sys2Proof.Machine

/-- One step. A package without supply does nothing until POWER_ON. -/
def step (s : State) : Host.Outcome State Fault Refusal :=
  match s.agenda with
  | i :: rest => exec i { s with agenda := rest }
  | [] => if s.powered then s.offer else .next s

/-- The host's loader: the instruction stands where the next step fetches it. -/
def State.withFetchWord (s : State) (_nbits w : Nat) : State := s.boot w

end Sys2Proof.Machine
end

