-- ==== Sys2Proof/Safety.lean ====
section
/-! DEFINITION. The terms in which claims are made: what a step may change, when the memories are in their one form, and what
a run without a stop is. -/

namespace Sys2Proof.Machine

/-! ### Frames -/

/-- Nothing but the pane of the turn changes. -/
def OnlyPane (s t : State) : Prop := t = { s with pane := t.pane }

/-- Nothing of the pane but its vector registers, the X pipe's latches and XSTAT changes. -/
def OnlyX (p q : Pane) : Prop := q = { p with v := q.v, y0 := q.y0, y2 := q.y2, xstat := q.xstat }

/-- Nothing of the pane but its vector registers, the Y pipe's latches and XSTAT changes. -/
def OnlyY (p q : Pane) : Prop := q = { p with v := q.v, y1 := q.y1, y3 := q.y3, xstat := q.xstat }

/-- Nothing of the pane but its uniform registers changes. -/
def OnlyS (p q : Pane) : Prop := q = { p with s := q.s }

/-- Nothing of the pane but its predicates and XSTAT changes. -/
def OnlyP (p q : Pane) : Prop := q = { p with p := q.p, xstat := q.xstat }

/-- A vector destination after a result: the active lanes of its register hold it, unless W = 1 or the result is discarded;
every other register and lane is as before. -/
def VecIs (p q : Pane) (w : Bool) (d : VDst) (f : Nat → Word) : Prop :=
  ∀ n L, n < p.v.length → L < 32 →
    q.vreg n L = if w = false ∧ VDst.num d = some n ∧ p.active L = true then f L else p.vreg n L

/-- A latch after a result (R15): its active lanes hold it, the others what the latch read as before. -/
def LatchIs (p : Pane) (old new : Latch) (f : Nat → Word) : Prop :=
  new.valid = true ∧ ∀ L, L < 32 → new.val L = if p.active L = true then f L else old.val L

/-- XSTAT after a word (R18, R67): a bit is 1 where it was, where an active lane raises it, and, for LSTALE, where a lost
latch is among the sources read and a lane is active (R16). -/
def FlagsIs (p q : Pane) (fl : Nat → Word) (lost : Bool) : Prop :=
  ∀ k, k < 32 → (bit q.xstat k = true ↔ bit p.xstat k = true ∨ (∃ L, L < 32 ∧ p.active L = true ∧ bit (fl L) k = true) ∨
    (k = 6 ∧ lost = true ∧ p.xm ≠ 0))

/-- No flag in any lane. -/
def noFlags : Nat → Word := fun _ => 0

/-- A result of the X pipe: in each active lane the register (R35) and y0 hold it, y2 what y0 held (R15); nothing else of
the machine changes but XSTAT. -/
def XEffect (s t : State) (w : Bool) (d : VDst) (f fl : Nat → Word) (lost : Bool) : Prop :=
  OnlyPane s t ∧ OnlyX s.pane t.pane ∧ VecIs s.pane t.pane w d f ∧ t.pane.y2 = s.pane.y0 ∧
    LatchIs s.pane s.pane.y0 t.pane.y0 f ∧ FlagsIs s.pane t.pane fl lost

/-- A result of the Y pipe: the same with y1 and y3. -/
def YEffect (s t : State) (w : Bool) (d : VDst) (f fl : Nat → Word) (lost : Bool) : Prop :=
  OnlyPane s t ∧ OnlyY s.pane t.pane ∧ VecIs s.pane t.pane w d f ∧ t.pane.y3 = s.pane.y1 ∧
    LatchIs s.pane s.pane.y1 t.pane.y1 f ∧ FlagsIs s.pane t.pane fl lost

/-- A uniform destination after a result: its register holds it; code 124 discards it; every other register is as before. -/
def UniIs (p q : Pane) (d : SDst) (x : Word) : Prop :=
  ∀ n, n < p.s.length → q.sreg n = if d = .discard then p.sreg n else if ∃ r, d = .reg r ∧ r.val = n then x else p.sreg n

/-- A predicate destination after a result: p7 discards it and reads as all ones. -/
def PredIs (p q : Pane) (d : PReg) (x : Word) : Prop :=
  (∀ n, n < 7 → n < p.p.length → q.preg n = if d.val = n then x else p.preg n) ∧ q.preg 7 = 0xFFFFFFFF

/-- A uniform word's effect: its destination alone. -/
def SEffect (s t : State) (d : SDst) (x : Word) : Prop :=
  OnlyPane s t ∧ OnlyS s.pane t.pane ∧ UniIs s.pane t.pane d x

/-- A compare's effect: in each active lane the predicate's bit is `f L`; other bits and predicates are as before. -/
def CmpEffect (s t : State) (pd : PReg) (f : Nat → Bool) (fl : Nat → Word) (lost : Bool) : Prop :=
  OnlyPane s t ∧ OnlyP s.pane t.pane ∧ FlagsIs s.pane t.pane fl lost ∧
    ∀ n L, n < 7 → n < s.pane.p.length → L < 32 →
      bit (t.pane.preg n) L = if pd.val = n ∧ s.pane.active L = true then f L else bit (s.pane.preg n) L

/-! ### The stack and branch targets -/

/-- There is room on chip and below the capacity for a word's push (R22). -/
def HasRoom (p : Pane) : Prop := p.saveBad = 0 ∧ p.deep + 2 ≤ 16 + p.stklim.toNat % 8192 ∧ p.stack.length < 16

/-- n pops need no refill (R22) and no failed save access waits to be reported. -/
def CanPop (p : Pane) (n : Nat) : Prop := p.saveBad = 0 ∧ min p.deep (16 + n) ≤ p.stack.length

/-- The target of a branch word: OFF packets from the word's own packet, at slot 0 (R40). -/
def branchTarget (p : Pane) (off : BitVec 20) : BitVec 56 := (((p.pc >>> 4).setWidth 52 + off.signExtend 52).setWidth 56) <<< 4

/-- Room for a trap entry (R22, rule 5). -/
def TrapRoom (p : Pane) : Prop := p.deep < 16 + p.stklim.toNat % 8192 ∧ p.stack.length < 16

/-! ### Memory words at issue (R157 to R169) -/

/-- The offset of a lane (R162): the operand, or, with P, the register pair. -/
def offsetOf (p : Pane) (m : MMod) (a : VSrc) (L : Nat) : Nat :=
  (match m.p, a with
    | true, .reg n => (p.vreg n.val L).toNat + (p.vreg (n.val + 1) L).toNat * 2 ^ 32
    | _, a => (a.val p L).toNat) * 2 ^ m.scale.val

/-- The lane L is active. -/
def Act (p : Pane) (L : Nat) : Prop := L < 32 ∧ p.active L = true

/-- The active lanes, ascending. -/
def activeLanes (p : Pane) : List Nat := (List.range 32).filter p.active

/-- The byte j that a lane's data run holds, low register at the low bytes (R165). -/
def dataByte (p : Pane) (d : VSrc) (L j : Nat) : Byte :=
  let x : Word := match d with
    | .reg r => p.vreg (r.val + j / 4) L
    | d => d.val p L
  (x >>> (8 * (j % 4))).setWidth 8

/-- Nothing holds a memory word back (R36, R167, R179, R238): no fence and no acquiring word, a counter below 255, a free
store-origin entry where it takes one, and, with .REL or .AR, the pane's earlier accesses done. -/
def CanSend (s : State) (m : MMod) (ac : Option (Fin 16)) (entry : Bool) : Prop :=
  s.memMayIssue = true ∧ (∀ k, ac = some k → s.pane.ac.getD k.val 0 ≠ 255) ∧ (entry = true → s.originUsed s.pane.core < 64) ∧
    (m.ord = .rel ∨ m.ord = .ar → s.quiet s.pane.pid s.nextRid = true ∧
      (m.scope = .sys → s.quietSys s.pane.pid s.nextRid = true))

/-- A request of the word at the pane's pc has left: it is the newest request, names the pane and the word, and the counter
rises by 1; nothing else of the machine changes but LSTALE. -/
def Sent (s t : State) (r : Req) (m : MMod) (lost : Bool) : Prop :=
  t = { s with pane := { s.pane with ac := t.pane.ac, xstat := t.pane.xstat }, reqs := Tab.set s.reqs s.nextRid r,
               nextRid := s.nextRid + 1 } ∧
    FlagsIs s.pane t.pane noFlags lost ∧
    t.pane.ac = (match r.ac with
      | some k => setAt s.pane.ac k.val (s.pane.ac.getD k.val 0 + 1)
      | none => s.pane.ac) ∧
    r.rid = s.nextRid ∧ r.pid = s.pane.pid ∧ r.core = s.pane.core ∧ r.part = s.pane.part ∧ r.grid = s.pane.grid ∧
    r.team = s.pane.team ∧ r.pord = s.pane.pord ∧ r.pkt = (s.pane.pc >>> 4).setWidth 52 ∧
    r.slot = (s.pane.pc >>> 2).setWidth 2 ∧ r.xm = s.pane.xm ∧ r.accepted = false ∧
    (r.acq = true ↔ m.ord = .acq ∨ m.ord = .ar) ∧ (r.rel = true ↔ m.ord = .rel ∨ m.ord = .ar) ∧
    (r.sys = true ↔ m.scope = .sys)

/-- Kinds 1 to 3 of R157 for a capability register. -/
def CapAdmits (p : Pane) (c : CReg) (need : BitVec 8) : Prop :=
  (p.creg c.val).tag = true ∧ (p.creg c.val).key = p.part ∧ need &&& ~~~(p.creg c.val).rights = 0

/-- Kinds 4 and 5 for an access through a capability, in every active lane. -/
def LanesFit (p : Pane) (m : MMod) (a : VSrc) (c : CReg) : Prop :=
  ∀ L, Act p L → ((p.creg c.val).base + offsetOf p m a L) % m.size.bytes = 0 ∧
    offsetOf p m a L + m.size.bytes ≤ (p.creg c.val).len

/-- Kinds 4 and 5 for an SP word. -/
def ScratchFits (s : State) (m : MMod) (a : VSrc) (base : Fin 32) : Prop :=
  ∀ L, Act s.pane L → ((s.pane.sreg base.val).toNat + offsetOf s.pane m a L) % m.size.bytes = 0 ∧
    (s.pane.sreg base.val).toNat + offsetOf s.pane m a L + m.size.bytes ≤ s.scratch s.pane

/-- Kinds 4 and 5 for a DS word. -/
def SliceFits (s : State) (m : MMod) (a : VSrc) (base : Fin 32) : Prop :=
  ∀ L, Act s.pane L →
    let x := (s.pane.sreg base.val).toNat + offsetOf s.pane m a L
    x % m.size.bytes = 0 ∧ x + m.size.bytes ≤ 2 ^ 30 ∧ x / 2 ^ 19 % 32 ≤ 23 ∧
      (s.part s.pane.part).groups.getLsbD (x / 2 ^ 24 / 4) = true

/-! ### The memories' one form -/

/-- Device memory, the slices and host memory are in canonical form. -/
def MemOk (s : State) : Prop := s.dm.wf = true ∧ s.ds.wf = true ∧ s.hm.wf = true

/-! ### Runs -/

/-- A run of n steps that meets no fault and no refusal. -/
def RunsOk (n : Nat) (s : State) : Prop := ∃ t, Sys2Proof.core.run n s = .next t

end Sys2Proof.Machine
end

