-- ==== Sys2Proof/Certificates/Slice0/Obligations.lean ====
section
/-! DEFINITION. The statements for the provers. -/

open Sys2Proof Sys2Proof.Machine

/-! ### Registers to registers: integer, logic, moves (R79 to R90) -/

/-- R79, R99: IADD, ISUB and IADDC in every lane, with each saturation, and the immediate IADD; they change nothing but the
destination, y0, y2 and LSTALE. -/
def Claim.IntegerAddSub : Prop :=
  ∀ (s : State) (w : Bool) (d : VDst) (a b : VSrc) (imm : BitVec 16),
    let x := fun L => a.val s.pane L
    let y := fun L => b.val s.pane L
    let lost := a.stale s.pane || b.stale s.pane
    (∃ t, exec (.iadd w .wrap d a b) s = .next t ∧ XEffect s t w d (fun L => x L + y L) noFlags lost) ∧
    (∃ t, exec (.iadd w .sat d a b) s = .next t ∧ XEffect s t w d
      (fun L => BitVec.ofInt 32 (max (-2147483648) (min ((x L).toInt + (y L).toInt) 2147483647))) noFlags lost) ∧
    (∃ t, exec (.iadd w .usat d a b) s = .next t ∧ XEffect s t w d
      (fun L => BitVec.ofNat 32 (min ((x L).toNat + (y L).toNat) 4294967295)) noFlags lost) ∧
    (∃ t, exec (.isub w .wrap d a b) s = .next t ∧ XEffect s t w d (fun L => x L - y L) noFlags lost) ∧
    (∃ t, exec (.isub w .sat d a b) s = .next t ∧ XEffect s t w d
      (fun L => BitVec.ofInt 32 (max (-2147483648) (min ((x L).toInt - (y L).toInt) 2147483647))) noFlags lost) ∧
    (∃ t, exec (.isub w .usat d a b) s = .next t ∧ XEffect s t w d
      (fun L => if x L < y L then 0 else x L - y L) noFlags lost) ∧
    (∃ t, exec (.iaddc w d a b) s = .next t ∧ XEffect s t w d
      (fun L => if x L + y L < x L then 1 else 0) noFlags lost) ∧
    (∃ t, exec (.iaddImm w d imm) s = .next t ∧ XEffect s t w d
      (fun L => d.val s.pane L + imm.signExtend 32) noFlags false)

/-- R80, R83: products, multiply-add with each addend, and LEA. The addends y0 and y1 are those before the word's own latch
write. -/
def Claim.IntegerMultiply : Prop :=
  ∀ (s : State) (w : Bool) (d : VDst) (a b : VSrc) (z : Word) (sh : Fin 4),
    let x := fun L => a.val s.pane L
    let y := fun L => b.val s.pane L
    let lost := a.stale s.pane || b.stale s.pane
    (∃ t, exec (.imul w d a b) s = .next t ∧ XEffect s t w d (fun L => x L * y L) noFlags lost) ∧
    (∃ t, exec (.imulh w false d a b) s = .next t ∧ XEffect s t w d
      (fun L => (((x L).signExtend 64 * (y L).signExtend 64) >>> 32).setWidth 32) noFlags lost) ∧
    (∃ t, exec (.imulh w true d a b) s = .next t ∧ XEffect s t w d
      (fun L => (((x L).setWidth 64 * (y L).setWidth 64) >>> 32).setWidth 32) noFlags lost) ∧
    (∃ t, exec (.imad w .dest d a b) s = .next t ∧ XEffect s t w d (fun L => x L * y L + d.val s.pane L) noFlags lost) ∧
    (∃ t, exec (.imad w .y0 d a b) s = .next t ∧ XEffect s t w d (fun L => x L * y L + s.pane.y0.val L) noFlags
      (lost || !s.pane.y0.valid)) ∧
    (∃ t, exec (.imad w .y1 d a b) s = .next t ∧ XEffect s t w d (fun L => x L * y L + s.pane.y1.val L) noFlags
      (lost || !s.pane.y1.valid)) ∧
    (∃ t, exec (.imad w (.lit z) d a b) s = .next t ∧ XEffect s t w d (fun L => x L * y L + z) noFlags lost) ∧
    (∃ t, exec (.lea w sh d a b) s = .next t ∧ XEffect s t w d (fun L => x L + y L <<< sh.val) noFlags lost)

/-- R81: the four divisions: all ones and the dividend by zero, the one overflowing pair, truncation toward zero, and the
dividend's sign on a signed remainder. -/
def Claim.IntegerDivide : Prop :=
  ∀ (s : State) (w : Bool) (m : DivMode) (d : VDst) (a b : VSrc),
    ∃ t f, exec (.idiv w m d a b) s = .next t ∧ XEffect s t w d f noFlags (a.stale s.pane || b.stale s.pane) ∧
      ∀ L, L < 32 →
        let x := a.val s.pane L
        let y := b.val s.pane L
        (y = 0 → f L = (match m with
          | .quo | .quoU => 0xFFFFFFFF
          | .rem | .remU => x)) ∧
        (y ≠ 0 → m = .quoU → f L = x / y) ∧
        (y ≠ 0 → m = .remU → f L = x % y) ∧
        (x = 0x80000000 → y = 0xFFFFFFFF → m = .quo → f L = 0x80000000) ∧
        (x = 0x80000000 → y = 0xFFFFFFFF → m = .rem → f L = 0) ∧
        (y ≠ 0 → ¬ (x = 0x80000000 ∧ y = 0xFFFFFFFF) → m = .quo → (f L).toInt = Int.tdiv x.toInt y.toInt) ∧
        (y ≠ 0 → ¬ (x = 0x80000000 ∧ y = 0xFFFFFFFF) → m = .rem → (f L).toInt = Int.tmod x.toInt y.toInt)

/-- R82, R84: minimum, maximum, absolute value, selection and moves. -/
def Claim.MinMaxAndMoves : Prop :=
  ∀ (s : State) (w : Bool) (d : VDst) (a b : VSrc) (u : SSrc) (q : Fin 4) (imm : BitVec 16),
    let x := fun L => a.val s.pane L
    let y := fun L => b.val s.pane L
    let lost := a.stale s.pane || b.stale s.pane
    (∃ t, exec (.imin w false d a b) s = .next t ∧ XEffect s t w d (fun L => if (y L).slt (x L) then y L else x L) noFlags lost) ∧
    (∃ t, exec (.imin w true d a b) s = .next t ∧ XEffect s t w d (fun L => if y L < x L then y L else x L) noFlags lost) ∧
    (∃ t, exec (.imax w false d a b) s = .next t ∧ XEffect s t w d (fun L => if (x L).slt (y L) then y L else x L) noFlags lost) ∧
    (∃ t, exec (.imax w true d a b) s = .next t ∧ XEffect s t w d (fun L => if x L < y L then y L else x L) noFlags lost) ∧
    (∃ t, exec (.iabs w d a) s = .next t ∧ XEffect s t w d (fun L => if (x L).slt 0 then -(x L) else x L) noFlags
      (a.stale s.pane)) ∧
    (∃ t, exec (.mov w d a) s = .next t ∧ XEffect s t w d x noFlags (a.stale s.pane)) ∧
    (∃ t, exec (.movs w d u) s = .next t ∧ XEffect s t w d (fun _ => u.val s.pane) noFlags false) ∧
    (∃ t, exec (.movImm w d imm) s = .next t ∧ XEffect s t w d (fun _ => imm.signExtend 32) noFlags false) ∧
    (∃ t, exec (.sel w q d a b) s = .next t ∧ XEffect s t w d
      (fun L => if bit (s.pane.preg q.val) L = true then x L else y L) noFlags lost)

/-- The condition of a compare, by its code (R43, R85). -/
def CondMeans (c : ICond) (x y : Word) : Prop :=
  match c with
  | .eq => x = y
  | .ne => x ≠ y
  | .lt => x.toInt < y.toInt
  | .le => x.toInt ≤ y.toInt
  | .gt => y.toInt < x.toInt
  | .ge => y.toInt ≤ x.toInt
  | .ltu => x.toNat < y.toNat
  | .leu => x.toNat ≤ y.toNat
  | .gtu => y.toNat < x.toNat
  | .geu => y.toNat ≤ x.toNat

/-- How a compare's result joins the old bit (R85). -/
def CombMeans (m : Comb) (old : Bool) (c : Prop) : Prop :=
  match m with
  | .set => c
  | .and => old = true ∧ c
  | .or => old = true ∨ c

/-- R85, R90: ISET writes the predicate's bit of each active lane, SSET every bit whatever XM holds; p7 discards both and
reads as all ones (R12). -/
def Claim.IntegerCompares : Prop :=
  ∀ (s : State) (pd : PReg) (c : ICond) (m : Comb) (a b : VSrc) (u v : SSrc),
    (∃ t f, exec (.iset pd c m a b) s = .next t ∧ CmpEffect s t pd f noFlags (a.stale s.pane || b.stale s.pane) ∧
      (∀ L, L < 32 → (f L = true ↔ CombMeans m (bit (s.pane.preg pd.val) L) (CondMeans c (a.val s.pane L) (b.val s.pane L)))) ∧
      t.pane.preg 7 = 0xFFFFFFFF) ∧
    (∃ t, exec (.sset pd c m u v) s = .next t ∧ OnlyPane s t ∧ t.pane = { s.pane with p := t.pane.p } ∧
      (∀ n L, n < 7 → n < s.pane.p.length → L < 32 → (bit (t.pane.preg n) L = true ↔
        if pd.val = n then CombMeans m (bit (s.pane.preg n) L) (CondMeans c (u.val s.pane) (v.val s.pane))
        else bit (s.pane.preg n) L = true)) ∧ t.pane.preg 7 = 0xFFFFFFFF)

/-- R86, R87: the Y pipe's logic, shift and bit-field words. -/
def Claim.LogicWords : Prop :=
  ∀ (s : State) (w sg : Bool) (d : VDst) (a b : VSrc),
    let x := fun L => a.val s.pane L
    let y := fun L => b.val s.pane L
    let lost := a.stale s.pane || b.stale s.pane
    (∃ t, exec (.and w d a b) s = .next t ∧ YEffect s t w d (fun L => x L &&& y L) noFlags lost) ∧
    (∃ t, exec (.or w d a b) s = .next t ∧ YEffect s t w d (fun L => x L ||| y L) noFlags lost) ∧
    (∃ t, exec (.xor w d a b) s = .next t ∧ YEffect s t w d (fun L => x L ^^^ y L) noFlags lost) ∧
    (∃ t, exec (.andn w d a b) s = .next t ∧ YEffect s t w d (fun L => x L &&& ~~~(y L)) noFlags lost) ∧
    (∃ t, exec (.shl w d a b) s = .next t ∧ YEffect s t w d (fun L => if 32 ≤ (y L).toNat then 0 else x L <<< (y L).toNat) noFlags lost) ∧
    (∃ t, exec (.shr w d a b) s = .next t ∧ YEffect s t w d (fun L => if 32 ≤ (y L).toNat then 0 else x L >>> (y L).toNat) noFlags lost) ∧
    (∃ t, exec (.sar w d a b) s = .next t ∧ YEffect s t w d (fun L => (x L).sshiftRight (min (y L).toNat 31)) noFlags lost) ∧
    (∃ t, exec (.rotl w d a b) s = .next t ∧ YEffect s t w d (fun L => (x L).rotateLeft ((y L).toNat % 32)) noFlags lost) ∧
    (∃ t f, exec (.bfx w sg d a b) s = .next t ∧ YEffect s t w d f noFlags lost ∧
      ∀ L i, L < 32 → i < 32 →
        let pos := (y L).toNat % 32
        let wid := min (min ((y L).toNat / 256 % 64) 32) (32 - pos)
        bit (f L) i = if wid = 0 then false else if i < wid then bit (x L) (pos + i)
          else (sg && bit (x L) (pos + wid - 1))) ∧
    (∃ t f, exec (.bfi w d a b) s = .next t ∧ YEffect s t w d f noFlags lost ∧
      ∀ L i, L < 32 → i < 32 →
        let pos := (y L).toNat % 32
        let wid := min (min ((y L).toNat / 256 % 64) 32) (32 - pos)
        bit (f L) i = if pos ≤ i ∧ i < pos + wid then bit (x L) (i - pos) else bit (d.val s.pane L) i)

/-- R88: POPC, CLZ and BREV, as words with OP 0x32 and SUB 0, 1 and 2 and in their result in each active lane; another SUB or an M
other than 0 is an illegal instruction. -/
def Obligations.CountWords : Prop :=
  (∀ (s : State) (w : Bool) (d : VDst) (a : VSrc),
    let x := fun L => a.val s.pane L
    (∃ t, exec (.popc w d a) s = .next t ∧ YEffect s t w d
      (fun L => BitVec.ofNat 32 ((List.range 32).countP (fun i => (x L).getLsbD i))) noFlags (a.stale s.pane)) ∧
    (∃ t f, exec (.clz w d a) s = .next t ∧ YEffect s t w d f noFlags (a.stale s.pane) ∧
      ∀ L, L < 32 → (f L).toNat ≤ 32 ∧ (x L).toNat < 2 ^ (32 - (f L).toNat) ∧
        ((f L).toNat < 32 → 2 ^ (31 - (f L).toNat) ≤ (x L).toNat)) ∧
    (∃ t f, exec (.brev w d a) s = .next t ∧ YEffect s t w d f noFlags (a.stale s.pane) ∧
      ∀ L i, L < 32 → i < 32 → bit (f L) i = bit (x L) (31 - i))) ∧
  (∀ (w : Bool) (d a : Fin 120),
    let word := fun (sub m : Nat) => (if w then 2 ^ 30 else 0) + 0x32 * 2 ^ 23 + d.val * 2 ^ 16 + a.val * 2 ^ 9 + sub * 4 + m
    decodeWord (word 0 0) 0 = .ok (.popc w (.reg d) (.reg a)) ∧ decodeWord (word 1 0) 0 = .ok (.clz w (.reg d) (.reg a)) ∧
    decodeWord (word 2 0) 0 = .ok (.brev w (.reg d) (.reg a)) ∧
    (∀ sub m, sub < 128 → m < 4 → 3 ≤ sub ∨ m ≠ 0 → decodeWord (word sub m) 0 = .error .illegalInstruction))

/-- R89, R76: the uniform words compute once for the pane, whatever XM holds, and write no latch; code 124 discards. -/
def Claim.UniformWords : Prop :=
  ∀ (s : State) (d : SDst) (a b : SSrc) (sh : Fin 4) (imm : BitVec 16),
    let x := a.val s.pane
    let y := b.val s.pane
    (∃ t, exec (.sadd d a b) s = .next t ∧ SEffect s t d (x + y)) ∧
    (∃ t, exec (.ssub d a b) s = .next t ∧ SEffect s t d (x - y)) ∧
    (∃ t, exec (.smul d a b) s = .next t ∧ SEffect s t d (x * y)) ∧
    (∃ t, exec (.sshl .left d a b) s = .next t ∧ SEffect s t d (if 32 ≤ y.toNat then 0 else x <<< y.toNat)) ∧
    (∃ t, exec (.sshl .lsr d a b) s = .next t ∧ SEffect s t d (if 32 ≤ y.toNat then 0 else x >>> y.toNat)) ∧
    (∃ t, exec (.sshl .asr d a b) s = .next t ∧ SEffect s t d (x.sshiftRight (min y.toNat 31))) ∧
    (∃ t, exec (.sand d a b) s = .next t ∧ SEffect s t d (x &&& y)) ∧
    (∃ t, exec (.sor d a b) s = .next t ∧ SEffect s t d (x ||| y)) ∧
    (∃ t, exec (.smov d a) s = .next t ∧ SEffect s t d x) ∧
    (∃ t, exec (.slea sh d a b) s = .next t ∧ SEffect s t d (x + y <<< sh.val)) ∧
    (∃ t, exec (.smovImm d imm) s = .next t ∧ SEffect s t d (imm.signExtend 32)) ∧
    (∃ t, exec (.saddImm d imm) s = .next t ∧ SEffect s t d (d.val s.pane + imm.signExtend 32))

/-! ### Floating point and conversion (R56 to R68, R91 to R98) -/

/-- R91 to R98: every floating word, packed-half word, CVT and FSET completes in every state, puts its lane results in the
destination (FSET in its predicate), y0 and the flags of the active lanes, and changes nothing else. FTZ is XCTL's bit 0 for the F32 words and CVT; the
packed halves do not see it. The lane results are the functions that the next statements are about. -/
def Obligations.FloatWords : Prop :=
  ∀ (s : State) (w : Bool) (rm : Rm) (c : Addend) (h : HFmt) (df sf : CFmt) (d : VDst) (a b : VSrc) (pd : PReg) (fc : FCond)
    (m : Comb),
    let p := s.pane
    let z := bit p.xctl 0
    let x := fun L => a.val p L
    let y := fun L => b.val p L
    let lost := a.stale p || b.stale p
    (∃ t, exec (.fadd w rm d a b) s = .next t ∧ XEffect s t w d (fun L => (faddVal z rm (x L) (y L)).1) (fun L => (faddVal z rm (x L) (y L)).2) lost) ∧
    (∃ t, exec (.fsub w rm d a b) s = .next t ∧ XEffect s t w d (fun L => (fsubVal z rm (x L) (y L)).1) (fun L => (fsubVal z rm (x L) (y L)).2) lost) ∧
    (∃ t, exec (.fmul w rm d a b) s = .next t ∧ XEffect s t w d (fun L => (fmulVal z rm (x L) (y L)).1) (fun L => (fmulVal z rm (x L) (y L)).2) lost) ∧
    (∃ t, exec (.ffma w c d a b) s = .next t ∧ XEffect s t w d (fun L => (ffmaVal z .rn (x L) (y L) (c.val p d L)).1)
      (fun L => (ffmaVal z .rn (x L) (y L) (c.val p d L)).2) (lost || c.stale p)) ∧
    (∃ t, exec (.ffmaRm w rm d a b) s = .next t ∧ XEffect s t w d (fun L => (ffmaVal z rm (x L) (y L) (Addend.dest.val p d L)).1)
      (fun L => (ffmaVal z rm (x L) (y L) (Addend.dest.val p d L)).2) (lost || Addend.dest.stale p)) ∧
    (∃ t, exec (.fmin w d a b) s = .next t ∧ XEffect s t w d (fun L => (fminmaxVal z false (x L) (y L)).1) (fun L => (fminmaxVal z false (x L) (y L)).2) lost) ∧
    (∃ t, exec (.fmax w d a b) s = .next t ∧ XEffect s t w d (fun L => (fminmaxVal z true (x L) (y L)).1) (fun L => (fminmaxVal z true (x L) (y L)).2) lost) ∧
    (∃ t, exec (.fclass w d a) s = .next t ∧ XEffect s t w d (fun L => fclassVal z (x L)) noFlags (a.stale p)) ∧
    (∃ t, exec (.frnd w rm d a) s = .next t ∧ XEffect s t w d (fun L => (frndVal z rm (x L)).1) (fun L => (frndVal z rm (x L)).2) (a.stale p)) ∧
    (∃ t, exec (.hadd2 w h d a b) s = .next t ∧ XEffect s t w d (fun L => (onHalves2 (haddEl (hfmt h)) (x L) (y L)).1) (fun L => (onHalves2 (haddEl (hfmt h)) (x L) (y L)).2) lost) ∧
    (∃ t, exec (.hmul2 w h d a b) s = .next t ∧ XEffect s t w d (fun L => (onHalves2 (hmulEl (hfmt h)) (x L) (y L)).1) (fun L => (onHalves2 (hmulEl (hfmt h)) (x L) (y L)).2) lost) ∧
    (∃ t, exec (.hfma2 w h d a b) s = .next t ∧ XEffect s t w d (fun L => (onHalves3 (hfmaEl (hfmt h)) (x L) (y L) (Addend.dest.val p d L)).1)
      (fun L => (onHalves3 (hfmaEl (hfmt h)) (x L) (y L) (Addend.dest.val p d L)).2) (lost || Addend.dest.stale p)) ∧
    (∃ t, exec (.hmin2 w h d a b) s = .next t ∧ XEffect s t w d (fun L => (onHalves2 (hminmaxEl (hfmt h) false) (x L) (y L)).1) (fun L => (onHalves2 (hminmaxEl (hfmt h) false) (x L) (y L)).2) lost) ∧
    (∃ t, exec (.hmax2 w h d a b) s = .next t ∧ XEffect s t w d (fun L => (onHalves2 (hminmaxEl (hfmt h) true) (x L) (y L)).1) (fun L => (onHalves2 (hminmaxEl (hfmt h) true) (x L) (y L)).2) lost) ∧
    (∃ t, exec (.cvt w df sf rm d a) s = .next t ∧ XEffect s t w d (fun L => (cvtVal z df sf rm (x L)).1) (fun L => (cvtVal z df sf rm (x L)).2) (a.stale p)) ∧
    (∃ t, exec (.fset pd fc m a b) s = .next t ∧
      CmpEffect s t pd (fun L => combine m (bit (p.preg pd.val) L) (fcondHolds z fc (x L) (y L)).1)
        (fun L => (fcondHolds z fc (x L) (y L)).2) lost)

/-- A binary32 NaN, and a signalling one (R56). -/
def IsNan (x : Word) : Prop := 0x7F800000 < (x &&& 0x7FFFFFFF).toNat
def IsSnan (x : Word) : Prop := IsNan x ∧ bit x 22 = false

/-- The place of a binary32 value that is not a NaN in the order of the values, both zeros at 0; with FTZ a subnormal is a zero. -/
def rankOf (z : Bool) (x : Word) : Int :=
  let m := (x &&& 0x7FFFFFFF).toNat
  if z = true ∧ m < 0x800000 then 0 else if bit x 31 then -(m : Int) else m

/-- The conditions of FSET (R94). -/
def FCondMeans (z : Bool) (c : FCond) (x y : Word) : Prop :=
  let un := IsNan x ∨ IsNan y
  match c with
  | .eq => ¬ un ∧ rankOf z x = rankOf z y
  | .ne => un ∨ rankOf z x ≠ rankOf z y
  | .lt => ¬ un ∧ rankOf z x < rankOf z y
  | .le => ¬ un ∧ rankOf z x ≤ rankOf z y
  | .gt => ¬ un ∧ rankOf z y < rankOf z x
  | .ge => ¬ un ∧ rankOf z y ≤ rankOf z x
  | .un => un
  | .ord => ¬ un

/-- R94, R85: FSET gives the predicate's bit of each active lane its condition, joined to the old bit: .EQ, .LT, .LE, .GT and .GE hold
of ordered operands alone, .NE of unordered ones too, .UN and .ORD tell the two apart, +0 equals -0, and with FTZ subnormals compare as
zeros. It raises NV for a signalling NaN, for .LT, .LE, .GT and .GE for any NaN, and no other flag. -/
def Claim.FloatCompares : Prop :=
  (∀ (s : State) (pd : PReg) (c : FCond) (m : Comb) (a b : VSrc),
    let z := bit s.pane.xctl 0
    let x := fun L => a.val s.pane L
    let y := fun L => b.val s.pane L
    ∃ t f fl, exec (.fset pd c m a b) s = .next t ∧ CmpEffect s t pd f fl (a.stale s.pane || b.stale s.pane) ∧
      t.pane.preg 7 = 0xFFFFFFFF ∧
      ∀ L, L < 32 →
        (f L = true ↔ CombMeans m (bit (s.pane.preg pd.val) L) (FCondMeans z c (x L) (y L))) ∧
        (IsSnan (x L) ∨ IsSnan (y L) ∨ (c ∈ [.lt, .le, .gt, .ge] ∧ (IsNan (x L) ∨ IsNan (y L))) → fl L = fNV) ∧
        (¬ (IsSnan (x L) ∨ IsSnan (y L) ∨ (c ∈ [.lt, .le, .gt, .ge] ∧ (IsNan (x L) ∨ IsNan (y L)))) → fl L = 0))

/-- R66: the first NaN operand in the order A, B, addend is the result, with its quiet bit set and its other bits kept; NV is
raised where an operand is signalling, and, for FFMA, where the product is a zero by an infinity (R92). -/
def Claim.FloatNans : Prop :=
  ∀ (z : Bool) (rm : Rm) (a b c : Word),
    (IsNan a ∨ IsNan b →
      let r := (if 0x7F800000 < (a &&& 0x7FFFFFFF).toNat then a else b) ||| 0x00400000
      let sig := IsSnan a ∨ IsSnan b
      ∀ f, (f = faddVal z rm ∨ f = fsubVal z rm ∨ f = fmulVal z rm) →
        (f a b).1 = r ∧ (sig → (f a b).2 = fNV) ∧ (¬ sig → (f a b).2 = 0)) ∧
    (IsNan a ∨ IsNan b ∨ IsNan c →
      (ffmaVal z rm a b c).1 = (if 0x7F800000 < (a &&& 0x7FFFFFFF).toNat then a
        else if 0x7F800000 < (b &&& 0x7FFFFFFF).toNat then b else c) ||| 0x00400000 ∧
      (IsSnan a ∨ IsSnan b ∨ IsSnan c → (ffmaVal z rm a b c).2 = fNV)) ∧
    (IsNan c → a &&& 0x7FFFFFFF = 0 → b &&& 0x7FFFFFFF = 0x7F800000 → (ffmaVal z rm a b c).2 = fNV)

/-- R66, R91, R92: the invalid operations give the canonical NaN and raise NV alone. -/
def Claim.FloatInvalid : Prop :=
  ∀ (z : Bool) (rm : Rm) (a b c : Word),
    (a &&& 0x7FFFFFFF = 0x7F800000 → b = a ^^^ 0x80000000 → faddVal z rm a b = (0x7FC00000, fNV)) ∧
    (a &&& 0x7FFFFFFF = 0x7F800000 → fsubVal z rm a a = (0x7FC00000, fNV)) ∧
    (a &&& 0x7FFFFFFF = 0 → b &&& 0x7FFFFFFF = 0x7F800000 → fmulVal z rm a b = (0x7FC00000, fNV) ∧
      fmulVal z rm b a = (0x7FC00000, fNV) ∧ (¬ IsNan c → ffmaVal z rm a b c = (0x7FC00000, fNV)))

/-- R93: a NaN operand alone gives the other operand, two give the canonical NaN, NV is raised by a signalling one only, of two
ordered operands the smaller or the larger is chosen, and -0 is less than +0; with FTZ a subnormal is read as a zero of its sign. -/
def Claim.FloatMinMax : Prop :=
  ∀ (mx : Bool) (a b : Word),
    (IsNan a → ¬ IsNan b → (fminmaxVal false mx a b).1 = b) ∧ (¬ IsNan a → IsNan b → (fminmaxVal false mx a b).1 = a) ∧
    (IsNan a → IsNan b → (fminmaxVal false mx a b).1 = 0x7FC00000) ∧
    ((fminmaxVal false mx a b).2 = fNV ↔ IsSnan a ∨ IsSnan b) ∧
    (fminmaxVal false mx a b).2 &&& ~~~fNV = 0 ∧
    (¬ IsNan a → ¬ IsNan b → rankOf false a < rankOf false b →
      fminmaxVal false mx a b = (if mx then b else a, 0) ∧ fminmaxVal false mx b a = (if mx then b else a, 0)) ∧
    (let flushed := fun (x : Word) => if (x &&& 0x7FFFFFFF).toNat < 0x800000 then x &&& 0x80000000 else x
     fminmaxVal true mx a b = fminmaxVal false mx (flushed a) (flushed b)) ∧
    (fminmaxVal false false 0x80000000 0).1 = 0x80000000 ∧ (fminmaxVal false false 0 0x80000000).1 = 0x80000000 ∧
    (fminmaxVal false true 0x80000000 0).1 = 0 ∧ (fminmaxVal false true 0 0x80000000).1 = 0

/-- R95: FCLASS sets exactly one of ten bits, the one the table gives the operand's pattern. -/
def Claim.FloatClasses : Prop :=
  ∀ (z : Bool) (x : Word),
    let neg := bit x 31
    let m := (x &&& 0x7FFFFFFF).toNat
    fclassVal z x =
      if m = 0x7F800000 then (if neg then 1 <<< 0 else 1 <<< 7)
      else if 0x7F800000 < m then (if bit x 22 then 1 <<< 9 else 1 <<< 8)
      else if 0x800000 ≤ m then (if neg then 1 <<< 1 else 1 <<< 6)
      else if m = 0 ∨ z = true then (if neg then 1 <<< 3 else 1 <<< 4)
      else (if neg then 1 <<< 2 else 1 <<< 5)

/-- R63: a magnitude m cut at its low k bits. RN gives the nearest multiple, the even one on a tie; RZ the one toward zero; RU
and RD the one on their side of the signed value; the flag says that something was cut off. -/
def Claim.RoundingModes : Prop :=
  ∀ (neg : Bool) (m k : Nat),
    let r := fun rm => (roundMag rm neg m (-(k : Int))).1 * 2 ^ k
    (2 * r .rn ≤ 2 * m + 2 ^ k ∧ 2 * m ≤ 2 * r .rn + 2 ^ k ∧
      (2 * r .rn = 2 * m + 2 ^ k ∨ 2 * m = 2 * r .rn + 2 ^ k → (roundMag .rn neg m (-(k : Int))).1 % 2 = 0)) ∧
    (r .rz ≤ m ∧ m < r .rz + 2 ^ k) ∧
    (neg = false → m ≤ r .ru ∧ r .ru < m + 2 ^ k ∧ r .rd ≤ m ∧ m < r .rd + 2 ^ k) ∧
    (neg = true → m ≤ r .rd ∧ r .rd < m + 2 ^ k ∧ r .ru ≤ m ∧ m < r .ru + 2 ^ k) ∧
    ∀ rm, ((roundMag rm neg m (-(k : Int))).2 = true ↔ ¬ (2 ^ k ∣ m))

/-- R64: what an overflow of F32 gives in each mode, and that it raises OF and NX. -/
def Claim.FloatOverflow : Prop :=
  ∀ (z neg : Bool) (m : Nat) (e : Int), 0 < m → 128 ≤ (Nat.log2 m : Int) + e →
    (∀ rm, (roundFin F32 rm z neg m e).2 = fOF ||| fNX) ∧
    (roundFin F32 .rn z neg m e).1 = (if neg then 0xFF800000 else 0x7F800000) ∧
    (roundFin F32 .rz z neg m e).1 = (if neg then 0xFF7FFFFF else 0x7F7FFFFF) ∧
    (roundFin F32 .ru z neg m e).1 = (if neg then 0xFF7FFFFF else 0x7F800000) ∧
    (roundFin F32 .rd z neg m e).1 = (if neg then 0xFF800000 else 0x7F7FFFFF)

/-- A finite pattern's magnitude as a multiple of its format's smallest subnormal (R56). -/
def magOf (f : Fmt) (x : Nat) : Nat :=
  let e := x / 2 ^ f.fb % 2 ^ f.eb
  if e = 0 then x % 2 ^ f.fb else (2 ^ f.fb + x % 2 ^ f.fb) * 2 ^ (e - 1)

/-- The exact value m * 2^e, of sign `neg`, rounded to a format gives the pattern and the flags `r` (R63 to R65). Values are compared
in the unit 2^(min e s), s being the exponent of the smallest subnormal. Rounding goes to the multiples of a step g: that of the
smallest subnormal, or the one that leaves fb + 1 significant bits, whichever is larger. -/
def RoundsTo (f : Fmt) (rm : Rm) (ftz neg : Bool) (m : Nat) (e : Int) (r : Nat × Word) : Prop :=
  let s : Int := 1 - (2 ^ (f.eb - 1) - 1 : Int) - f.fb
  let x := m * 2 ^ (e - s).toNat
  let u := 2 ^ (s - e).toNat
  let pat := r.1 % 2 ^ (f.eb + f.fb)
  let v := magOf f pat * u
  let top := magOf f f.maxPat * u
  let ulp := (magOf f f.maxPat - magOf f (f.maxPat - 1)) * u
  let least := 2 ^ f.fb * u
  let zero := rm = .rz ∨ (rm = .ru ∧ neg = true) ∨ (rm = .rd ∧ neg = false)
  let away := (rm = .ru ∧ neg = false) ∨ (rm = .rd ∧ neg = true)
  let ovf := (rm = .rn ∧ (2 * top + ulp < 2 * x ∨ (2 * x = 2 * top + ulp ∧ f.maxPat % 2 = 1))) ∨ (zero ∧ top + ulp ≤ x) ∨ (away ∧ top < x)
  let tiny := (rm = .rn ∧ 4 * x + u < 4 * least) ∨ (zero ∧ x < least) ∨ (away ∧ 2 * x + u ≤ 2 * least)
  r.1 / 2 ^ (f.eb + f.fb) = (if neg then 1 else 0) ∧
  (ovf → r.2 = fOF ||| fNX ∧ pat = (if zero ∨ f.ieee = false then f.maxPat else (2 ^ f.eb - 1) * 2 ^ f.fb)) ∧
  (tiny → ftz = true → pat = 0 ∧ r.2 = fUF ||| fNX) ∧
  (¬ ovf → ¬ (tiny ∧ ftz = true) →
    pat ≤ f.maxPat ∧
    (r.2 = if v = x then 0 else if tiny then fUF ||| fNX else fNX) ∧
    ∀ k, let g := u * 2 ^ k
      (k = 0 ∨ 2 ^ f.fb * g ≤ x) → x < 2 ^ (f.fb + 1) * g →
        g ∣ v ∧ (rm = .rn → 2 * v ≤ 2 * x + g ∧ 2 * x ≤ 2 * v + g ∧ (2 * v = 2 * x + g ∨ 2 * x = 2 * v + g → v / g % 2 = 0)) ∧
        (zero → v ≤ x ∧ x < v + g) ∧ (away → x ≤ v ∧ v < x + g))

/-- R63 to R65: the rounding of every exact value that is not 0, in each format and mode. -/
def Claim.Rounding : Prop :=
  ∀ (f : Fmt) (rm : Rm) (ftz neg : Bool) (m : Nat) (e : Int), f ∈ [F32, F16, BF16, F8E4, F8E5] → 0 < m →
    RoundsTo f rm ftz neg m e (roundFin f rm ftz neg m e)

/-- A finite pattern with its sign, as a multiple of its format's smallest subnormal; a flushed subnormal is 0. -/
def numOf (f : Fmt) (ftz : Bool) (x : Nat) : Int :=
  let m := if ftz = true ∧ x % 2 ^ (f.eb + f.fb) < 2 ^ f.fb then 0 else magOf f x
  if x / 2 ^ (f.eb + f.fb) % 2 = 1 then -(m : Int) else m

/-- The pattern is that of a finite value (R56). -/
def IsFinite (f : Fmt) (x : Nat) : Prop := x % 2 ^ (f.eb + f.fb) ≤ f.maxPat

/-- The exact value n * 2^e rounded; an exact 0 gives the zero of sign `zs` and no flag (R63). -/
def RoundedTo (f : Fmt) (rm : Rm) (ftz zs : Bool) (n e : Int) (r : Nat × Word) : Prop :=
  (n = 0 → r = (if zs then 2 ^ (f.eb + f.fb) else 0, 0)) ∧
  (n ≠ 0 → RoundsTo f rm ftz (decide (n < 0)) n.natAbs e r)

/-- The sign of an exact zero sum: that of two zeros of one sign, else minus under RD alone (R63). -/
def zeroSumSign (rm : Rm) (za zb sa sb : Bool) : Bool := if za && zb && (sa == sb) then sa else decide (rm = .rd)

/-- R63, R91, R92, R96: of finite operands FADD, FSUB, FMUL and FFMA give the exact sum, difference, product, or product and sum,
rounded once; FRND gives the integral value, or its operand from 2^23 on, with the operand's sign and no flag. -/
def Claim.FloatValues : Prop :=
  ∀ (z : Bool) (rm : Rm) (a b c : Word),
    let num := fun (x : Word) => numOf F32 z x.toNat
    let fin := fun (x : Word) => IsFinite F32 x.toNat
    let neg := fun (x : Word) => bit x 31
    let out := fun (r : Word × Word) => (r.1.toNat, r.2)
    let zero := fun (x : Word) => decide (num x = 0)
    let at0 : Int := -149
    let at2 : Int := -298
    fin a → 
    (fin b →
      RoundedTo F32 rm z (zeroSumSign rm (zero a) (zero b) (neg a) (neg b)) (num a + num b) at0 (out (faddVal z rm a b)) ∧
      RoundedTo F32 rm z (zeroSumSign rm (zero a) (zero b) (neg a) (!neg b)) (num a - num b) at0 (out (fsubVal z rm a b)) ∧
      RoundedTo F32 rm z (neg a != neg b) (num a * num b) at2 (out (fmulVal z rm a b)) ∧
      (fin c → RoundedTo F32 rm z (zeroSumSign rm (zero a || zero b) (zero c) (neg a != neg b) (neg c)) (num a * num b + num c * 2 ^ 149) at2
        (out (ffmaVal z rm a b c)))) ∧
    (0x4B000000 ≤ (a &&& 0x7FFFFFFF).toNat → frndVal z rm a = (a, 0)) ∧
    ((a &&& 0x7FFFFFFF).toNat < 0x4B000000 → (frndVal z rm a).2 = 0 ∧ bit (frndVal z rm a).1 31 = neg a ∧ fin (frndVal z rm a).1 ∧
      (numOf F32 false (frndVal z rm a).1.toNat).natAbs = (roundMag rm (neg a) (num a).natAbs at0).1 * 2 ^ 149)

/-- R97: the packed halves: each element is that of the two elements under RN with subnormals kept, and its flags join the other's. A
NaN operand gives the canonical NaN of the format; finite operands give the exact sum, product, or product and sum, rounded once. -/
def Claim.HalfValues : Prop :=
  ∀ (h : HFmt) (a b c : Nat) (x y w : Word), a < 65536 → b < 65536 → c < 65536 →
    let f := hfmt h
    let e : Int := 1 - (2 ^ (f.eb - 1) - 1 : Int) - f.fb
    let num := numOf f false
    let neg := fun (x : Nat) => decide (32768 ≤ x)
    let zero := fun (x : Nat) => decide (num x = 0)
    let nan := fun (x : Nat) => (2 ^ f.eb - 1) * 2 ^ f.fb < x % 32768
    let canon := (2 ^ f.eb - 1) * 2 ^ f.fb + 2 ^ (f.fb - 1)
    (f = if h = .f16 then F16 else BF16) ∧
    (IsFinite f a → IsFinite f b →
      RoundedTo f .rn false (zeroSumSign .rn (zero a) (zero b) (neg a) (neg b)) (num a + num b) e (haddEl f a b) ∧
      RoundedTo f .rn false (neg a != neg b) (num a * num b) (e + e) (hmulEl f a b) ∧
      (IsFinite f c → RoundedTo f .rn false (zeroSumSign .rn (zero a || zero b) (zero c) (neg a != neg b) (neg c))
        (num a * num b + num c * 2 ^ (-e).toNat) (e + e) (hfmaEl f a b c))) ∧
    (nan a ∨ nan b → (haddEl f a b).1 = canon ∧ (hmulEl f a b).1 = canon) ∧
    (nan a ∨ nan b ∨ nan c → (hfmaEl f a b c).1 = canon) ∧
    (∀ g2 g3, (∀ i j, (g2 i j).1 < 65536) → (∀ i j k, (g3 i j k).1 < 65536) →
      let lo := fun (x : Word) => x.toNat % 65536
      let hi := fun (x : Word) => x.toNat / 65536
      (onHalves2 g2 x y).1.toNat = (g2 (lo x) (lo y)).1 + 65536 * (g2 (hi x) (hi y)).1 ∧
      (onHalves2 g2 x y).2 = (g2 (lo x) (lo y)).2 ||| (g2 (hi x) (hi y)).2 ∧
      (onHalves3 g3 x y w).1.toNat = (g3 (lo x) (lo y) (lo w)).1 + 65536 * (g3 (hi x) (hi y) (hi w)).1 ∧
      (onHalves3 g3 x y w).2 = (g3 (lo x) (lo y) (lo w)).2 ||| (g3 (hi x) (hi y) (hi w)).2)

/-- R68, R98: CVT of a finite value rounds it into the other floating format under its mode; integers to F32 too. A finite F32 to an
integer format is rounded and clamped to the limits, with NV where it was outside them and NX where only the rounding changed it.
Integers saturate without a flag; E8M0 0xFF gives the canonical NaN, each other pattern its power of two, rounded as R65 says. -/
def Claim.CvtValues : Prop :=
  ∀ (z : Bool) (rm : Rm) (df sf : CFmt) (a : Word),
    let out := fun (r : Word × Word) => (r.1.toNat, r.2)
    (∀ fd fs, cvtFmt df = some fd → cvtFmt sf = some fs →
      let x := a.toNat % 2 ^ (1 + fs.eb + fs.fb)
      IsFinite fs x →
      RoundedTo fd rm (z && decide (fd = F32)) (decide (2 ^ (fs.eb + fs.fb) ≤ x)) (numOf fs (z && decide (fs = F32)) x)
        (1 - (2 ^ (fs.eb - 1) - 1 : Int) - fs.fb) (out (cvtVal z df sf rm a))) ∧
    (RoundedTo F32 rm z false a.toInt 0 (out (cvtVal z .f32 .i32 rm a)) ∧ RoundedTo F32 rm z false a.toNat 0 (out (cvtVal z .f32 .u32 rm a))) ∧
    (∀ sg n, cvtInt df = some (sg, n) →
      let lo : Int := if sg then -(2 ^ (n - 1) : Int) else 0
      let hi : Int := if sg then (2 ^ (n - 1) : Int) - 1 else (2 ^ n : Int) - 1
      let m := numOf F32 z a.toNat
      let r := roundMag rm (bit a 31) m.natAbs (-149)
      let v : Int := if bit a 31 then -(r.1 : Int) else r.1
      (IsFinite F32 a.toNat → cvtVal z df .f32 rm a = (BitVec.ofInt 32 (max lo (min v hi)),
        if v < lo ∨ hi < v then fNV else if r.2 then fNX else 0)) ∧
      (IsNan a → cvtVal z df .f32 rm a = (0, fNV)) ∧
      ((a &&& 0x7FFFFFFF).toNat = 0x7F800000 → cvtVal z df .f32 rm a = (BitVec.ofInt 32 (if bit a 31 then lo else hi), fNV)) ∧
      cvtVal z df .i32 rm a = (BitVec.ofInt 32 (max lo (min a.toInt hi)), 0) ∧
      cvtVal z df .u32 rm a = (BitVec.ofInt 32 (max lo (min (a.toNat : Int) hi)), 0)) ∧
    (a.toNat % 256 = 255 → cvtVal z .f32 .e8m0 rm a = (0x7FC00000, 0)) ∧
    (a.toNat % 256 < 255 → RoundedTo F32 .rn z false 1 ((a.toNat % 256 : Nat) - 127 : Int) (out (cvtVal z .f32 .e8m0 rm a)))

/-! ### Control, masks and predicates (R100 to R114) -/

/-- R101: BRA is taken where SEL = 7 or an active lane's predicate bit is 1; then every active lane goes to the target, and XM
stays; else it has no effect. A loop entry on top stays where the target lies in its body, and is popped, XM as it is, where it
does not (R110, rule 6). BRX goes to the address in its register pair (R102). -/
def Claim.Branches : Prop :=
  ∀ (s : State) (sel : PReg) (off : BitVec 20) (a : Fin 63),
    let taken := sel.val = 7 ∨ s.pane.preg sel.val &&& s.pane.xm ≠ 0
    let lo := s.pane.sreg a.val
    let pc : BitVec 56 := lo.setWidth 56 ||| ((s.pane.sreg (a.val + 1)).setWidth 56 <<< 32)
    let far := fun (x : BitVec 56) => { s with pane := { s.pane with nextPc := some x } }
    (¬ taken → exec (.bra sel off) s = .next s) ∧
    ((∀ e ∈ s.pane.stack.head?, e.kind ≠ .loop) →
      (taken → exec (.bra sel off) s = .next (far (branchTarget s.pane off))) ∧
      (lo &&& 3 = 0 → lo &&& 12 ≠ 12 → exec (.brx a) s = .next (far pc))) ∧
    (lo &&& 3 ≠ 0 → exec (.brx a) s = .next (takeTrap 0x08 lo s)) ∧
    (lo &&& 3 = 0 → lo &&& 12 = 12 → exec (.brx a) s = .next (takeTrap 0x04 lo s)) ∧
    (∀ e r b, s.pane.stack = e :: r → e.kind = .loop → e.slot ≠ 3 → s.pane.loopHeld e = some b → CanPop s.pane 1 → taken →
      exec (.bra sel off) s = .next (
        if ((branchTarget s.pane off >>> 4).setWidth 52 - b.pkt).toNat < b.len then far (branchTarget s.pane off)
        else { s with pane := { s.pane with nextPc := some (branchTarget s.pane off), stack := r, deep := s.pane.deep - 1 } }))

/-- R103: CALL with no lane does nothing; else it pushes a call entry that returns to the word after its group, takes its lanes
as XM and goes to the target; RET pops it, restores XM and goes back. -/
def Claim.Calls : Prop :=
  ∀ (s : State) (sel : PReg) (off : BitVec 20),
    let p := s.pane
    let k := if sel.val = 7 then p.xm else p.xm &&& p.preg sel.val
    (sel.val ≠ 7 → k = 0 → exec (.call sel off) s = .next s) ∧
    (sel.val = 7 ∨ k ≠ 0 → HasRoom p →
      exec (.call sel off) s = .next { s with pane := { p with
        stack := ⟨p.xm, (s.after >>> 4).setWidth 52, (s.after >>> 2).setWidth 2, .call, 0, 0⟩ :: p.stack, deep := p.deep + 1,
        xm := k, nextPc := some (branchTarget p off) } }) ∧
    (∀ e r, p.stack = e :: r → e.kind = .call → e.slot ≠ 3 → CanPop p 1 →
      exec .ret s = .next { s with pane := { p with
        stack := r, deep := p.deep - 1, xm := e.mask,
        nextPc := some ((e.pkt.setWidth 56 <<< 4) ||| (e.slot.setWidth 56 <<< 2)) } }) ∧
    ((∀ e ∈ p.stack.head?, e.kind ≠ .call) → exec .ret s = .next (takeTrap 0x04 0xB s))

/-- R104: SPLIT pushes one join entry that holds XM, the target and the lanes deferred; it goes on with the lanes of the
predicate, or, where none is, at the target with the others. -/
def Claim.Split : Prop :=
  ∀ (s : State) (sel : PReg) (off : BitVec 20), HasRoom s.pane →
    let p := s.pane
    let t := if sel.val = 7 then p.xm else p.xm &&& p.preg sel.val
    let f := p.xm &&& ~~~t
    let e : Entry := ⟨p.xm, (p.pc >>> 4).setWidth 52 + off.signExtend 52, 0, .join, 0, f⟩
    (t ≠ 0 → exec (.split sel off) s = .next { s with pane := { p with
      stack := e :: p.stack, deep := p.deep + 1, xm := t } }) ∧
    (t = 0 → exec (.split sel off) s = .next { s with pane := { p with
      stack := { e with aux := 0 } :: p.stack, deep := p.deep + 1, xm := f, nextPc := some (branchTarget p off) } })

/-- R105: JOIN starts the deferred lanes where there are any, else restores XM and pops; without a join entry on top it traps
with the mismatch word of R107. -/
def Claim.Join : Prop :=
  ∀ (s : State),
    let p := s.pane
    (∀ e r, p.stack = e :: r → e.kind = .join → e.slot ≠ 3 → e.aux ≠ 0 →
      exec .join s = .next { s with pane := { p with
        stack := { e with aux := 0 } :: r, xm := e.aux,
        nextPc := some ((e.pkt.setWidth 56 <<< 4) ||| (e.slot.setWidth 56 <<< 2)) } }) ∧
    (∀ e r, p.stack = e :: r → e.kind = .join → e.slot ≠ 3 → e.aux = 0 → CanPop p 1 →
      exec .join s = .next { s with pane := { p with stack := r, deep := p.deep - 1, xm := e.mask } }) ∧
    ((∀ e ∈ p.stack.head?, e.kind ≠ .join) → exec .join s = .next (takeTrap 0x04 3 s))

/-- R106: BRK takes its lanes out of XM; where none is left, the deferred lanes of a join entry start, or the target is reached
with XM 0, or a loop ends; with any other entry, or none, it traps with the mismatch word of R107. -/
def Claim.Break : Prop :=
  ∀ (s : State) (sel : PReg) (off : BitVec 20),
    let p := s.pane
    let x := p.xm &&& ~~~(if sel.val = 7 then 0xFFFFFFFF else p.preg sel.val)
    (x ≠ 0 → exec (.brk sel off) s = .next { s with pane := { p with xm := x } }) ∧
    (∀ e r, x = 0 → p.stack = e :: r → e.kind = .join → e.aux ≠ 0 → e.slot ≠ 3 →
      exec (.brk sel off) s = .next { s with pane := { p with
        stack := { e with aux := 0 } :: r, xm := e.aux,
        nextPc := some ((e.pkt.setWidth 56 <<< 4) ||| (e.slot.setWidth 56 <<< 2)) } }) ∧
    (∀ e r, x = 0 → p.stack = e :: r → e.kind = .join → e.aux = 0 →
      exec (.brk sel off) s = .next { s with pane := { p with xm := 0, nextPc := some (branchTarget p off) } }) ∧
    (∀ e r b, x = 0 → p.stack = e :: r → e.kind = .loop → e.slot ≠ 3 → p.loopHeld e = some b → CanPop p 1 →
      exec (.brk sel off) s = .next { s with pane := { p with
        stack := r, deep := p.deep - 1, xm := e.mask,
        nextPc := some ((b.pkt + BitVec.ofNat 52 b.len).setWidth 56 <<< 4) } }) ∧
    (x = 0 → (∀ e ∈ p.stack.head?, e.kind ≠ .join ∧ e.kind ≠ .loop) →
      exec (.brk sel off) s = .next (takeTrap 0x04 7 s))

/-- R108: LOOP runs its body min(trip, 65535) times: a trip count of 0 goes past the body and pushes nothing; else a loop entry
goes on the stack, with the level by the entry below, and the body starts; a third level traps. An increment field that R109 refuses
traps before that (log entry 18). -/
def Claim.Loop : Prop :=
  ∀ (s : State) (d : SOpt) (len : Fin 16) (i0 i1 i2 i3 : LoopInc),
    let p := s.pane
    let n := min (d.val p).toNat 65535
    let first : BitVec 52 := (p.pc >>> 4).setWidth 52 + 1
    let past : BitVec 56 := (first + BitVec.ofNat 52 (len.val + 1)).setWidth 56 <<< 4
    let inner := ∃ e, p.stack.head? = some e ∧ e.kind = .loop
    (([i0, i1, i2, i3].any LoopInc.isBad = true) → exec (.loop d len i0 i1 i2 i3) s = .next (takeTrap 0x01 s.word s)) ∧
    ([i0, i1, i2, i3].any LoopInc.isBad = false →
    ((∃ e, p.stack.head? = some e ∧ e.kind = .loop ∧ bit e.aux 16 = true) →
      exec (.loop d len i0 i1 i2 i3) s = .next (takeTrap 0x01 2 s)) ∧
    ((∀ e ∈ p.stack.head?, e.kind = .loop → bit e.aux 16 = false) → n = 0 →
      exec (.loop d len i0 i1 i2 i3) s = .next { s with pane := { p with nextPc := some past } }) ∧
    ((∀ e ∈ p.stack.head?, e.kind = .loop → bit e.aux 16 = false) → n ≠ 0 → HasRoom p →
      ∃ t e, exec (.loop d len i0 i1 i2 i3) s = .next t ∧ t.pane.stack = e :: p.stack ∧ t.pane.deep = p.deep + 1 ∧
        e.mask = p.xm ∧ e.pkt = first ∧ e.slot = 0 ∧ e.kind = .loop ∧ e.tag = 0 ∧
        e.aux.toNat % 65536 = n ∧ (bit e.aux 16 = true ↔ inner) ∧ e.aux.toNat < 131072 ∧
        t.pane.nextPc = some (first.setWidth 56 <<< 4) ∧
        t.pane.loopHeld e = some ⟨first, len.val + 1, [i0, i1, i2, i3]⟩ ∧ t.pane.xm = p.xm ∧
        t = { s with pane := { p with stack := t.pane.stack, deep := t.pane.deep, nextPc := t.pane.nextPc,
                                      lbuf0 := t.pane.lbuf0, lbuf1 := t.pane.lbuf1 } }))

/-- One increment field (R109); a refused one, in a word fetched again, is none (log entry 17). -/
def incMeans (sreg : Nat → Word) (i : LoopInc) (n : Nat) : Word :=
  match i with
  | .none => sreg n
  | .addNext r => if r.val = n then sreg n + sreg (n + 1) else sreg n
  | .inc r => if r.val = n then sreg n + 1 else sreg n
  | .dec r => if r.val = n then sreg n - 1 else sreg n
  | .bad _ => sreg n

/-- R110, rules 1 to 3 and 5: sequential flow out of slot 2 of the last body packet ends a pass: the four increments apply in
order; the trip count falls by 1; the body starts again, or at 0 the entry goes, XM is restored and the packet after the body
follows. -/
def Claim.LoopPass : Prop :=
  ∀ (s start last : State) (e : Entry) (r : List Entry) (b : LoopBuf) (i0 i1 i2 i3 : LoopInc),
    s.pane.exiting = false → s.pane.nextPc = none → s.pane.stack = e :: r → s.pane.deep = r.length + 1 → r.length < 16 →
    s.pane.saveBad = 0 → s.pane.s.length = 64 → e.kind = .loop → e.slot = 0 → s.pane.loopHeld e = some b →
    b.incs = [i0, i1, i2, i3] →
    s.after = (b.pkt + BitVec.ofNat 52 b.len).setWidth 56 <<< 4 → (∀ f ∈ r.head?, f.kind ≠ .loop) →
    let t := finishGroup start last s
    let f := incMeans (incMeans (incMeans (incMeans s.pane.sreg i0) i1) i2) i3
    (∀ n, n < 64 → t.pane.sreg n = f n) ∧
    (e.aux.setWidth 16 ≠ (1 : BitVec 16) →
      t.pane.pc = b.pkt.setWidth 56 <<< 4 ∧ t.pane.xm = s.pane.xm ∧
      t.pane.stack = { e with aux := (e.aux &&& 0xFFFF0000) ||| ((e.aux.setWidth 16 - 1 : BitVec 16)).setWidth 32 } :: r) ∧
    (e.aux.setWidth 16 = (1 : BitVec 16) →
      t.pane.pc = (b.pkt + BitVec.ofNat 52 b.len).setWidth 56 <<< 4 ∧ t.pane.xm = e.mask ∧ t.pane.stack = r)

/-- R111: the XM words, as words and in their effect. -/
def Claim.MaskWords : Prop :=
  (∀ (s : State) (d : SDst) (a : SSrc) (q : PReg),
    (∃ t, exec (.xmrd d) s = .next t ∧ SEffect s t d s.pane.xm) ∧
    exec (.xmwr a) s = .next { s with pane := { s.pane with xm := a.val s.pane } } ∧
    exec (.xmand q) s = .next { s with pane := { s.pane with xm := s.pane.xm &&& s.pane.preg q.val } }) ∧
  (∀ (n : Fin 64) (q : PReg),
    decodeWord (0x24000000 + n.val * 2 ^ 16) 0 = .ok (.xmrd (.reg n)) ∧
    decodeWord (0x24000004 + n.val * 2 ^ 9) 0 = .ok (.xmwr (.reg n)) ∧
    decodeWord (0x24000008 + q.val * 2 ^ 9) 0 = .ok (.xmand q))

/-- R112: the predicate words, as words and in their effect, whatever XM holds; p7 discards the write and reads as all ones. -/
def Claim.PredicateWords : Prop :=
  (∀ (s : State) (d a b : PReg),
    let x := s.pane.preg a.val
    let y := s.pane.preg b.val
    let put := fun (t : State) (v : Word) => t = { s with pane := { s.pane with p := t.pane.p } } ∧ PredIs s.pane t.pane d v
    (∃ t, exec (.pand d a b) s = .next t ∧ put t (x &&& y)) ∧ (∃ t, exec (.por d a b) s = .next t ∧ put t (x ||| y)) ∧
    (∃ t, exec (.pxor d a b) s = .next t ∧ put t (x ^^^ y)) ∧ (∃ t, exec (.pnot d a) s = .next t ∧ put t (~~~x)) ∧
    (∃ t, exec (.pmov d a) s = .next t ∧ put t x)) ∧
  (∀ (d a b : PReg),
    let w := fun sub => 0x24800000 + d.val * 2 ^ 20 + a.val * 2 ^ 17 + b.val * 2 ^ 14 + sub * 4
    let u := fun sub => 0x24800000 + d.val * 2 ^ 20 + a.val * 2 ^ 17 + sub * 4
    decodeWord (w 0) 0 = .ok (.pand d a b) ∧ decodeWord (w 1) 0 = .ok (.por d a b) ∧ decodeWord (w 2) 0 = .ok (.pxor d a b) ∧
      decodeWord (u 3) 0 = .ok (.pnot d a) ∧ decodeWord (u 4) 0 = .ok (.pmov d a))

/-- R113, R17 to R20: what CSRR reads and CSRW writes: XSTAT is cleared bit by bit, reserved bits stay 0, STKLIM stops at
4096, read-only registers keep their values, and the save-area registers are locked while STKDEP is above 16. -/
def Claim.ControlRegisters : Prop :=
  ∀ (s : State) (d : SDst) (a : SSrc) (c : Csr),
    let p := s.pane
    let x := a.val p
    let locked := c = .stksaveL ∨ c = .stksaveH ∨ c = .stklim
    (∃ t v, exec (.csrr d c) s = .next t ∧ SEffect s t d v ∧
      (c = .xstat → v = p.xstat) ∧ (c = .xctl → v = p.xctl) ∧ (c = .trapvecL → v = p.trapvecL) ∧
      (c = .trapvecH → v = p.trapvecH) ∧ (c = .stksaveL → v = p.stksaveL) ∧ (c = .stksaveH → v = p.stksaveH) ∧
      (c = .stklim → v = p.stklim) ∧ (c = .stkdep → v = BitVec.ofNat 32 p.deep) ∧ (c = .bconf → v = p.bconf) ∧
      (c = .teamid → v = BitVec.ofNat 32 p.team) ∧ (c = .gridid → v = BitVec.ofNat 32 p.grid) ∧
      (c = .spds → v = BitVec.ofNat 32 (s.spds p)) ∧
      (c = .paneinfo → p.core < 2048 → p.depth < 16 → p.npane < 32 → p.pord < 32 → ∀ k, p.place = .resident k → k < 32 →
        v.toNat = (if p.spawned then 2 ^ 30 else 0) + p.core * 2 ^ 19 + p.depth * 2 ^ 15 + k * 2 ^ 10 + p.npane * 2 ^ 5 + p.pord)) ∧
    (locked → 16 < p.deep → exec (.csrw a c) s = .next (takeTrap 0x03 s.word s)) ∧
    (¬ (locked ∧ 16 < p.deep) → exec (.csrw a c) s = .next { s with pane :=
      match c with
      | .xstat => { p with xstat := p.xstat &&& ~~~x }
      | .xctl => { p with xctl := x &&& 3 }
      | .trapvecL => { p with trapvecL := x &&& 0xFFFFFFF0 }
      | .trapvecH => { p with trapvecH := x &&& 0x00FFFFFF }
      | .stksaveL => { p with stksaveL := x &&& 0xFFFFFFF0 }
      | .stksaveH => { p with stksaveH := x &&& 0x00FFFFFF }
      | .stklim => { p with stklim := if 4096 < x.toNat % 8192 then 4096 else x &&& 0x1FFF }
      | .bconf => { p with bconf := x }
      | .stkdep | .paneinfo | .teamid | .gridid | .spds => p })

/-- R114, R30: NOP does nothing; EXIT lets the rest of its group issue and ends the pane at the group's end: its slot is free,
its stack, tokens and tiles are gone. -/
def Claim.NopAndExit : Prop :=
  ∀ (s start last : State),
    exec .nop s = .next s ∧
    exec .exit s = .next { s with pane := { s.pane with exiting := true } } ∧
    (s.pane.exiting = true → (∀ q ∈ Tab.vals s.panes, q.pid ≠ s.pane.pid) →
      let q := (finishGroup start last s).pane
      q.pid = s.pane.pid ∧ q.place = .exited ∧ q.place.slot = none ∧ q.stack = [] ∧ q.deep = 0 ∧
        q.tk = List.replicate 16 .free ∧ q.mx = {})

/-- R114, R25, R16, R130: YIELD and TRAP.HOST give up the slot: every latch is lost, the rest of the group waits, and everything
else of the pane is kept. YIELD leaves the pane ready at the tail of its queue; TRAP.HOST parks it and sends a host record with
the code, the pc of the word, PANEINFO, TEAMID and GRIDID. When the pane issues again, the word is over and the group goes on.
The layout of that record is the model's (log entry 12). -/
def Claim.YieldAndHostTrap : Prop :=
  ∀ (s : State) (k : BitVec 7),
    let p := s.pane
    let gone := fun (place : Place) (wait : Wait) (q : Pane) => q = { p with
      y0 := q.y0, y1 := q.y1, y2 := q.y2, y3 := q.y3, place := place, inCore := true, since := s.cycle,
      lastSlot := q.lastSlot, wait := wait, nextPc := q.nextPc, exiting := q.exiting } ∧
      q.y0.valid = false ∧ q.y1.valid = false ∧ q.y2.valid = false ∧ q.y3.valid = false
    (p.wait ≠ .begun → ∃ t, exec .yield s = .next t ∧ t.issue = .ended ∧ gone .ready .begun t.pane ∧
      (p.core ≠ noCore → p.prio < (s.core p.core).queues.length →
        (t.core p.core).queues.getD p.prio [] = (s.core p.core).queues.getD p.prio [] ++ [p.pid])) ∧
    (p.wait ≠ .begun → ∃ t r, exec (.trapHost k) s = .next t ∧ t.issue = .ended ∧
      gone (.parked (.host false false)) .begun t.pane ∧ t.records = s.records ++ [r] ∧ r.typ = 1 ∧ r.part = p.part ∧
      r.detail.take 6 = [k.setWidth 32, p.pc.setWidth 32, (p.pc >>> 32).setWidth 32, paneInfo p, BitVec.ofNat 32 p.team,
        BitVec.ofNat 32 p.grid]) ∧
    (p.wait = .begun →
      exec .yield s = .next { s with pane := { p with wait := .none } } ∧
      exec (.trapHost k) s = .next { s with pane := { p with wait := .none } })

/-! ### Traps (R22, R126 to R130) -/

/-- R128: trap entry. The entry names the cause, the detail, the word's packet and slot, and XM before the word; XM stays; the
pc goes to slot 0 of TRAPVEC's packet; registers, latches, counters, tokens, batches and outstanding work are as they were, but
for the flags of the counter that a WAITAC reports (R177) and the status of the batch that a WAITMB reports (R199). With TRAPVEC 0
the entry is pushed, and the pane parks as for TRAP.HOST with the entry in its record.
The layout of that record, and k = 0 in it, are the model's (log entry 12). -/
def Obligations.TrapEntry : Prop :=
  ∀ (s : State) (cause : BitVec 8) (detail : Word), TrapRoom s.pane →
    let p := s.pane
    let e : Entry := ⟨p.xm, (p.pc >>> 4).setWidth 52, (p.pc >>> 2).setWidth 2, .trap, cause, detail⟩
    let vec := p.trapvecH.toNat % 2 ^ 24 * 2 ^ 32 + p.trapvecL.toNat / 16 * 16
    let flags := fun (x : BitVec 16) =>
      if cause = 0x0C ∧ p.wait = .begun then x &&& ~~~((1 : BitVec 16) <<< (detail.toNat % 16)) else x
    let mx := if cause = 0x0B then p.mx.batchOk (detail.toNat % 8) else p.mx
    (vec ≠ 0 → takeTrap cause detail s = { s with
      issue := .ended,
      pane := { p with stack := e :: p.stack, deep := p.deep + 1, pc := BitVec.ofNat 56 vec, nextPc := none, exiting := false,
                       wait := .none, pendTrap := none, acData := flags p.acData, acEng := flags p.acEng, mx := mx } }) ∧
    (vec = 0 →
      let t := takeTrap cause detail s
      t.issue = .ended ∧ t.pane.stack = e :: p.stack ∧ t.pane.deep = p.deep + 1 ∧ t.pane.xm = p.xm ∧ t.pane.pc = p.pc ∧
      t.pane.place = .parked (.host true false) ∧ t.pane.y0.valid = false ∧ t.pane.y1.valid = false ∧
      t.pane.y2.valid = false ∧ t.pane.y3.valid = false ∧ t.pane.v = p.v ∧ t.pane.s = p.s ∧ t.pane.p = p.p ∧ t.pane.c = p.c ∧
      t.pane.ac = p.ac ∧ t.pane.tk = p.tk ∧ t.pane.mx = mx ∧ t.pane.acData = flags p.acData ∧ t.pane.acEng = flags p.acEng ∧ t.reqs = s.reqs ∧ t.dm = s.dm ∧
      ∃ r, t.records = s.records ++ [r] ∧ r.typ = 1 ∧ (r.detail.drop 6).take 4 = e.words)

/-- R130, R127: TRAP raises cause 0x0A with its code and BKPT cause 0x09 with detail 0, as words too. -/
def Claim.SoftwareTraps : Prop :=
  (∀ (s : State) (k : BitVec 7),
    exec (.trap k) s = .next (takeTrap 0x0A (k.setWidth 32) s) ∧ exec .bkpt s = .next (takeTrap 0x09 0 s)) ∧
  (∀ k : Fin 128, decodeWord (0x2500000C + k.val * 2 ^ 9) 0 = .ok (.trap (BitVec.ofNat 7 k.val)) ∧
    decodeWord (0x25000010 + k.val * 2 ^ 9) 0 = .ok (.trapHost (BitVec.ofNat 7 k.val))) ∧
  decodeWord 0x25000018 0 = .ok .bkpt

/-- R129: RTT pops its trap entry and restores XM; after a breakpoint or TRAP it goes to the word after the trapping word by
R27, after every other cause to the trapping word; without a trap entry on top it traps with the mismatch word of R107. -/
def Claim.ReturnFromTrap : Prop :=
  decodeWord 0x25000014 0 = .ok .rtt ∧
  ∀ (s : State),
    let p := s.pane
    (∀ e r, p.stack = e :: r → e.kind = .trap → e.slot ≠ 3 → CanPop p 1 → (∀ f ∈ r.head?, f.kind ≠ .loop) →
      exec .rtt s = .next { s with pane := { p with
        stack := r, deep := p.deep - 1, xm := e.mask,
        nextPc := some (if e.tag = 0x09 ∨ e.tag = 0x0A then
            (if e.slot = 2 then (e.pkt + 1).setWidth 56 <<< 4 else (e.pkt.setWidth 56 <<< 4) ||| ((e.slot + 1).setWidth 56 <<< 2))
          else (e.pkt.setWidth 56 <<< 4) ||| (e.slot.setWidth 56 <<< 2)) } }) ∧
    ((∀ e ∈ p.stack.head?, e.kind ≠ .trap) → exec .rtt s = .next (takeTrap 0x04 0xF s))

/-! ### Cross-lane words and special functions (R115 to R124) -/

/-- A uniform result that may set XSTAT. -/
def SFlagEffect (s t : State) (d : SDst) (x : Word) (fl : Nat → Word) (lost : Bool) : Prop :=
  t = { s with pane := { s.pane with s := t.pane.s, xstat := t.pane.xstat } } ∧ UniIs s.pane t.pane d x ∧
    FlagsIs s.pane t.pane fl lost

/-- R116, R117: SHFL, VOTE, ELECT and MATCH over the active lanes, in every state. -/
def Claim.CrossLane : Prop :=
  ∀ (s : State) (w : Bool) (d : VDst) (u : SDst) (q : PReg) (a b : VSrc),
    let p := s.pane
    let x := fun L => a.val p L
    let lost := a.stale p
    let act := fun L => L < 32 ∧ p.active L = true
    let from' := fun (j : Int) (L : Nat) => if 0 ≤ j ∧ j < 32 ∧ p.active j.toNat = true then x j.toNat else x L
    let shfl := fun (m : ShflMode) (j : Nat → Int) =>
      ∃ t, exec (.shfl w m d a b) s = .next t ∧ YEffect s t w d (fun L => from' (j L) L) noFlags (lost || b.stale p)
    shfl .idx (fun L => ((b.val p L).toNat % 32 : Nat)) ∧ shfl .up (fun L => (L : Int) - (b.val p L).toNat) ∧
    shfl .dn (fun L => (L : Int) + (b.val p L).toNat) ∧ shfl .xor (fun L => ((L ^^^ ((b.val p L).toNat % 32) : Nat) : Int)) ∧
    (∃ t v, exec (.vote .all u a) s = .next t ∧ SFlagEffect s t u v noFlags lost ∧ (v = 0 ∨ v = 1) ∧
      (v = 1 ↔ ∀ L, act L → x L ≠ 0)) ∧
    (∃ t v, exec (.vote .any u a) s = .next t ∧ SFlagEffect s t u v noFlags lost ∧ (v = 0 ∨ v = 1) ∧
      (v = 1 ↔ ∃ L, act L ∧ x L ≠ 0)) ∧
    (∃ t v, exec (.vote .bal u a) s = .next t ∧ SFlagEffect s t u v noFlags lost ∧
      ∀ L, L < 32 → (bit v L = true ↔ p.active L = true ∧ x L ≠ 0)) ∧
    (∃ t v, exec (.vote .eq u a) s = .next t ∧ SFlagEffect s t u v noFlags lost ∧ (v = 0 ∨ v = 1) ∧
      (v = 1 ↔ ∀ L M, act L → act M → x L = x M)) ∧
    (∃ t v, exec (.elect q) s = .next t ∧ t = { s with pane := { p with p := t.pane.p } } ∧ PredIs p t.pane q v ∧
      ∀ L, L < 32 → (bit v L = true ↔ p.active L = true ∧ ∀ M, M < L → p.active M = false)) ∧
    (∃ t f, exec (.matchLanes w d a) s = .next t ∧ YEffect s t w d f noFlags lost ∧
      ∀ L M, L < 32 → M < 32 → (bit (f L) M = true ↔ p.active M = true ∧ x M = x L))

/-- R121: NZS gives the active lanes of rank 0 to n - 1 the numbers of the n active lanes whose value is not 0, ascending, the
others all ones; its uniform register takes n whatever XM holds; the test is on the bit pattern. -/
def Obligations.NzsWord : Prop :=
  ∀ (s : State) (w : Bool) (d : VDst) (u : SDst) (a : VSrc),
    let p := s.pane
    let x := fun L => a.val p L
    let lost := a.stale p
    let act := fun L => L < 32 ∧ p.active L = true
    (∃ t f n, exec (.nzs w d a u) s = .next t ∧ n = ((List.range 32).filter (fun L => p.active L && x L != 0)).length ∧
      (∀ k, act k →
        let rank := ((List.range k).filter p.active).length
        (n ≤ rank → f k = 0xFFFFFFFF) ∧
        (∀ L, act L → x L ≠ 0 → ((List.range L).filter (fun M => p.active M && x M != 0)).length = rank →
          f k = BitVec.ofNat 32 L)) ∧
      VecIs p t.pane w d f ∧ LatchIs p p.y1 t.pane.y1 f ∧ t.pane.y3 = p.y1 ∧ UniIs p t.pane u (BitVec.ofNat 32 n) ∧
      FlagsIs p t.pane noFlags lost ∧
      t = { s with pane := { p with v := t.pane.v, y1 := t.pane.y1, y3 := t.pane.y3, s := t.pane.s, xstat := t.pane.xstat } })

/-- R119, R120: REORDER gives the lane of rank k the k-th lane of the key groups, ordered by their lowest lanes; REBAL gives it
the row and the offset of item k, or all ones and 0 past the last. -/
def Claim.LaneRedistribution : Prop :=
  ∀ (s : State) (w : Bool) (d : VDst) (r : Fin 119) (a b : VSrc),
    let p := s.pane
    let act := fun L => L < 32 ∧ p.active L = true
    let rank := fun L => ((List.range L).filter p.active).length
    let lead := fun L => ((List.range 32).filter (fun M => p.active M && b.val p M == b.val p L)).headD 0
    let before := fun L M => lead M < lead L ∨ (lead M = lead L ∧ M < L)
    let n := fun L => (a.val p L).toNat
    let sum := fun L => (((List.range L).filter p.active).map n).sum
    (∃ t f, exec (.reorder w d a b) s = .next t ∧ YEffect s t w d f noFlags (a.stale p || b.stale p) ∧
      ∀ k L, act k → act L → rank k = ((List.range 32).filter (fun M => p.active M && decide (before L M))).length →
        f k = a.val p L) ∧
    (∃ t, ∃ f g : Nat → Word, exec (.rebal w r a) s = .next t ∧
      t = { s with pane := { p with v := t.pane.v, y1 := t.pane.y1, y3 := t.pane.y3, xstat := t.pane.xstat } } ∧
      (∀ i L, i < p.v.length → L < 32 → t.pane.vreg i L =
        if w = false ∧ p.active L = true ∧ i = r.val + 1 then g L
        else if w = false ∧ p.active L = true ∧ i = r.val then f L else p.vreg i L) ∧
      t.pane.y3 = p.y1 ∧ LatchIs p p.y1 t.pane.y1 f ∧ FlagsIs p t.pane noFlags (a.stale p) ∧
      ∀ k, act k →
        (sum 32 ≤ rank k → f k = 0xFFFFFFFF ∧ g k = 0) ∧
        (∀ L, act L → sum L ≤ rank k → rank k < sum L + n L →
          f k = BitVec.ofNat 32 L ∧ g k = BitVec.ofNat 32 (rank k - sum L)))

/-- R118: LRED and LSCAN fold the active lanes in ascending order; an empty fold is the operation's identity, and an identity is
never combined into one that is not empty.
That LSCAN.EXC raises no flag of the combination with its last active lane is the model's reading (log entry 86). -/
def Claim.LaneFolds : Prop :=
  (∀ (s : State) (w e : Bool) (op : LaneOp) (u : SDst) (d : VDst) (a : VSrc),
    let p := s.pane
    let z := bit p.xctl 0
    let fold := fun (q : Nat → Bool) => laneFold z op (((List.range 32).filter (fun L => p.active L && q L)).map (a.val p))
    (∃ t, exec (.lred op u a) s = .next t ∧
      t = { s with pane := { p with s := t.pane.s, xstat := t.pane.xstat } } ∧ UniIs p t.pane u (fold (fun _ => true)).1 ∧
      FlagsIs p t.pane (fun _ => (fold (fun _ => true)).2) (a.stale p)) ∧
    (∃ t, exec (.lscan w op e d a) s = .next t ∧
      YEffect s t w d (fun L => (fold (fun k => if e then decide (k < L) else decide (k ≤ L))).1)
        (fun L => (fold (fun k => if e then decide (k < L) else decide (k ≤ L))).2) (a.stale p))) ∧
  (∀ (z : Bool) (op : LaneOp) (x y : Word) (l : List Word),
    (laneFold z op []).1 = (match op with
      | .min => 0x7FFFFFFF | .max => 0x80000000 | .umin | .and => 0xFFFFFFFF
      | .add | .umax | .or | .xor | .fadd => 0
      | .fmin => 0x7F800000 | .fmax => 0xFF800000) ∧ (laneFold z op []).2 = 0 ∧
    laneFold z op [x] = (x, 0) ∧
    laneFold z op (x :: l ++ [y]) =
      ((laneStep z op (laneFold z op (x :: l)).1 y).1, (laneFold z op (x :: l)).2 ||| (laneStep z op (laneFold z op (x :: l)).1 y).2) ∧
    laneStep z .add x y = (x + y, 0) ∧ laneStep z .and x y = (x &&& y, 0) ∧ laneStep z .or x y = (x ||| y, 0) ∧
    laneStep z .xor x y = (x ^^^ y, 0) ∧ laneStep z .fadd x y = faddVal z .rn x y ∧
    laneStep z .fmin x y = fminmaxVal z false x y ∧ laneStep z .fmax x y = fminmaxVal z true x y)

/-- R123, R122, R124: SFN with a free token and room in its queue makes the token pending with the lanes' results and writes no
register and no latch; with XM 0 its token is done at once; a token in use traps; a queue that holds four issues, each until its last
pass of eight lanes, holds the word. Its completion, once its last pass is made, writes the lanes that were active at issue (not with
W = 1), sets the flags, and the token is done; WAITTK frees the named tokens once none is pending. That a queue makes
the passes of an earlier issue first is the model's choice (log entry 94). -/
def Obligations.SpecialFunctions : Prop :=
  ∀ (s : State) (w : Bool) (fn : SfnOp) (tk : Fin 16) (d : VDst) (a : VSrc) (mask : BitVec 16),
    let p := s.pane
    let z := bit p.xctl 0
    let q := p.sfnQueue
    let held' := ((s.core p.core).sfnQ.getD q []).filter (fun e => decide (s.cycle < e))
    let passes := ((List.range 4).filter (fun g => decide (p.xm.toNat / 2 ^ (8 * g) % 256 ≠ 0))).length
    let ends := held'.foldl max s.cycle + passes
    (p.tk.getD tk.val .free ≠ .free → exec (.sfn w fn tk d a) s = .next (takeTrap 0x03 s.word s)) ∧
    (p.tk.length = 16 → p.tk.getD tk.val .free = .free → p.xm = 0 → ∃ t, exec (.sfn w fn tk d a) s = .next t ∧
      t = { s with pane := { p with tk := t.pane.tk } } ∧ t.pane.tk.getD tk.val .free = .done) ∧
    (p.tk.getD tk.val .free = .free → p.xm ≠ 0 → 4 ≤ held'.length → exec (.sfn w fn tk d a) s = .next (held s)) ∧
    (p.tk.length = 16 → p.tk.getD tk.val .free = .free → p.xm ≠ 0 → held'.length < 4 →
      ∃ t vals fl, exec (.sfn w fn tk d a) s = .next t ∧
        t = { s with pane := { p with tk := t.pane.tk, xstat := t.pane.xstat }, cores := t.cores } ∧
        (q < (s.core p.core).sfnQ.length → (t.core p.core).sfnQ.getD q [] = held' ++ [ends]) ∧
        t.core p.core = { s.core p.core with sfnQ := (t.core p.core).sfnQ } ∧
        (∀ c, c ≠ p.core → t.core c = s.core c) ∧ FlagsIs p t.pane noFlags (a.stale p) ∧
        t.pane.tk.getD tk.val .free = .pending (if w then none else match d with
          | .reg n => some n
          | .discard => none) vals fl ends ∧
        vals = ((List.range 32).filter p.active).map (fun L => (L, (sfnVal z fn (a.val p L)).1)) ∧
        (∀ k, k < 32 → (bit fl k = true ↔ ∃ L, L < 32 ∧ p.active L = true ∧ bit (sfnVal z fn (a.val p L)).2 k = true))) ∧
    (∀ n vals fl e, p.tk[tk.val]? = some (.pending n vals fl e) →
      (s.cycle < e → exec (.sfnComplete p.pid tk) s = .next s) ∧
      (e ≤ s.cycle → ∃ t, exec (.sfnComplete p.pid tk) s = .next t ∧
        t = { s with pane := { p with v := t.pane.v, xstat := p.xstat ||| fl, tk := t.pane.tk } } ∧
        t.pane.tk.getD tk.val .free = .done ∧
        ∀ i L, i < p.v.length → L < 32 → t.pane.vreg i L = (if n.map Fin.val = some i then
          ((vals.find? (fun (e : Nat × Word) => e.1 == L)).map Prod.snd).getD (p.vreg i L) else p.vreg i L))) ∧
    (p.wait = .begun → (∀ i d v f e, mask.getLsbD i = true → p.tk.getD i .free ≠ .pending d v f e) →
      ∃ t, exec (.waittk mask) s = .next t ∧ t = { s with pane := { p with wait := .none, tk := t.pane.tk } } ∧
        ∀ i, i < 16 → t.pane.tk.getD i .free = if mask.getLsbD i = true then .free else p.tk.getD i .free)

/-! ### Memory words (R154 to R181) -/

/-- R165: LDSP, LDDS, LDDM and LDHM that pass their checks and find room send one request, of the active lanes in ascending
order with the addresses of R162, and raise their counter; no register and no memory changes at issue. -/
def Claim.LoadWords : Prop :=
  ∀ (s : State) (d : Fin 120) (a : VSrc) (sb : Fin 32) (cb : CReg) (ac : Fin 16) (mo : Option MMod),
    let p := s.pane
    let m := modOf mo
    let c := p.creg cb.val
    p.xm ≠ 0 → CanSend s m (some ac) false →
    let sent := fun (t : State) (r : Req) (spc : Space) (obj base : Nat) =>
      Sent s t r m (a.stale p) ∧ r.kind = .load ∧ r.space = spc ∧ r.obj = obj ∧ r.ac = some ac ∧
        r.entry = false ∧ r.d = some d.val ∧ r.size = m.size.bytes ∧ r.regs = m.size.regs ∧ r.sx = m.sx ∧ r.st = m.st ∧
        r.lanes = (activeLanes p).map (fun L => { lane := L, addr := base + offsetOf p m a L, mask := (1 : Word) <<< L })
    (ScratchFits s m a sb → ∃ t r, exec (.ldsp d a sb ac mo) s = .next t ∧ sent t r .sp 0 (p.sreg sb.val).toNat) ∧
    (SliceFits s m a sb → ∃ t r, exec (.ldds d a sb ac mo) s = .next t ∧ sent t r .ds 0 (p.sreg sb.val).toNat) ∧
    (CapAdmits p cb 1 → LanesFit p m a cb → (∃ t r, exec (.lddm d a cb ac mo) s = .next t ∧ sent t r .dm c.obj c.base) ∧
      ∃ t r, exec (.ldhm d a cb ac mo) s = .next t ∧ sent t r .hm c.obj c.base)

/-- R165, R179: the store words that pass their checks and find room send one request with each active lane's address and bytes;
all but STSP take a store-origin entry, STPM carries no counter, and no memory changes at issue. -/
def Claim.StoreWords : Prop :=
  ∀ (s : State) (d a : VSrc) (sb : Fin 32) (cb : CReg) (ac : Fin 16) (mo : Option MMod),
    let p := s.pane
    let m := modOf mo
    let c := p.creg cb.val
    p.xm ≠ 0 → d.runOk m.size.regs = true →
    let sent := fun (t : State) (r : Req) (spc : Space) (obj base : Nat) (k : Option (Fin 16)) (entry : Bool) =>
      Sent s t r m (d.stale p || a.stale p) ∧ r.kind = .store ∧ r.space = spc ∧ r.obj = obj ∧
        r.ac = k ∧ r.entry = entry ∧ r.size = m.size.bytes ∧ r.st = m.st ∧
        r.lanes = (activeLanes p).map (fun L =>
          { lane := L, addr := base + offsetOf p m a L, data := (List.range m.size.bytes).map (dataByte p d L), mask := (1 : Word) <<< L })
    (CanSend s m (some ac) false → ScratchFits s m a sb →
      ∃ t r, exec (.stsp d a sb ac mo) s = .next t ∧ sent t r .sp 0 (p.sreg sb.val).toNat (some ac) false) ∧
    (CanSend s m (some ac) true →
      (SliceFits s m a sb → ∃ t r, exec (.stds d a sb ac mo) s = .next t ∧ sent t r .ds 0 (p.sreg sb.val).toNat (some ac) true) ∧
      (CapAdmits p cb 2 → LanesFit p m a cb →
        (∃ t r, exec (.stdm d a cb ac mo) s = .next t ∧ sent t r .dm c.obj c.base (some ac) true) ∧
        ∃ t r, exec (.sthm d a cb ac mo) s = .next t ∧ sent t r .hm c.obj c.base (some ac) true)) ∧
    (CanSend s m none true → CapAdmits p cb 2 → LanesFit p m a cb →
      ∃ t r, exec (.stpm d a cb mo) s = .next t ∧ sent t r .pm c.obj c.base none true)

/-- R168, R179: the atomics send each active lane's address and operand run. -/
def Claim.AtomicWords : Prop :=
  ∀ (s : State) (d : VDst) (a : VSrc) (sb : Fin 32) (cb : CReg) (ac : Fin 16) (mo : Option MMod),
    let p := s.pane
    let m := modOf mo
    let c := p.creg cb.val
    p.xm ≠ 0 →
    let sent := fun (t : State) (r : Req) (spc : Space) (obj base : Nat) (entry : Bool) =>
      Sent s t r m (a.stale p) ∧ r.kind = .atomic ∧ r.space = spc ∧ r.obj = obj ∧ r.ac = some ac ∧
        r.entry = entry ∧ r.d = VDst.num d ∧ r.size = m.size.bytes ∧ r.aop = m.opc ∧
        r.lanes.map (fun l => (l.lane, l.addr, l.mask)) =
          (activeLanes p).map (fun L => (L, base + offsetOf p m a L, (1 : Word) <<< L)) ∧
        ∀ l ∈ r.lanes, ∀ j, j < 4 * atomRegs m →
          l.data.getD j 0 = (match d with
            | .reg n => dataByte p (.reg n) l.lane j
            | .discard => 0)
    (CanSend s m (some ac) false → ScratchFits s m a sb →
      ∃ t r, exec (.atsp d a sb ac mo) s = .next t ∧ sent t r .sp 0 (p.sreg sb.val).toNat false) ∧
    (CanSend s m (some ac) true →
      (SliceFits s m a sb → ∃ t r, exec (.atds d a sb ac mo) s = .next t ∧ sent t r .ds 0 (p.sreg sb.val).toNat true) ∧
      (CapAdmits p cb 8 → LanesFit p m a cb → ∃ t r, exec (.atdm d a cb ac mo) s = .next t ∧ sent t r .dm c.obj c.base true))

/-- R169: the combiner sends one request for each address, from its lowest lane, whose operand is the ascending fold of the lanes
of that address; the reductions return nothing and carry no counter. -/
def Claim.ReductionWords : Prop :=
  ∀ (s : State) (d a : VSrc) (cb : CReg) (mo : Option MMod),
    let p := s.pane
    let m := modOf mo
    let c := p.creg cb.val
    let at' := fun L => c.base + offsetOf p m a L
    let same := fun L => (activeLanes p).filter (fun k => at' k == at' L)
    p.xm ≠ 0 → CanSend s m none true → CapAdmits p cb 0x10 → LanesFit p m a cb →
    let sent := fun (t : State) (r : Req) (spc : Space) =>
      Sent s t r m (d.stale p || a.stale p) ∧ r.kind = .red ∧ r.space = spc ∧ r.obj = c.obj ∧
        r.ac = none ∧ r.entry = true ∧ r.aop = m.opc ∧
        r.lanes.map (fun l => l.lane) = (activeLanes p).filter (fun L => (same L).headD 0 == L) ∧
        ∀ l ∈ r.lanes, l.addr = at' l.lane ∧ (∀ k, k < 32 → (bit l.mask k = true ↔ k ∈ same l.lane)) ∧
          l.data = toBytes 4 (((same l.lane).tail.foldl (fun x k => aopVal m.opc x (d.val p k) 0) (d.val p l.lane)).toNat)
    (∃ t r, exec (.reddm d a cb mo) s = .next t ∧ sent t r .dm) ∧ ∃ t r, exec (.redpm d a cb mo) s = .next t ∧ sent t r .pm

/-- R170, R172: PFDM drops the lanes that are misaligned or out of bounds; TEX and HGRID read the descriptor at BASE for every
active lane, with its coordinates. -/
def Obligations.PrefetchAndFilteredWords : Prop :=
  ∀ (s : State) (d x : Fin 120) (a : VSrc) (cb : CReg) (ac : Fin 16) (mo : Option MMod) (tm : Option TexMod) (hm : Option HgMod),
    let p := s.pane
    let m := modOf mo
    let c := p.creg cb.val
    p.xm ≠ 0 → CapAdmits p cb 1 →
    (CanSend s m none false → m.ord = .none →
      ∃ t r, exec (.pfdm a cb mo) s = .next t ∧ Sent s t r m (a.stale p) ∧ r.kind = .prefetch ∧ r.obj = c.obj ∧ r.ac = none ∧
        r.lanes.map (fun l => (l.lane, l.addr)) = ((activeLanes p).filter (fun L =>
          (c.base + offsetOf p m a L) % 4 == 0 && decide (offsetOf p m a L + 4 ≤ c.len))).map
            (fun L => (L, c.base + offsetOf p m a L))) ∧
    (CanSend s {} (some ac) false → c.base % 64 = 0 → 64 ≤ c.len →
      let sent := fun (t : State) (r : Req) (kind : ReqKind) (regs n : Nat) =>
        Sent s t r {} false ∧ r.kind = kind ∧ r.space = .tm ∧ r.obj = c.obj ∧ r.ac = some ac ∧
          r.d = some d.val ∧ r.regs = regs ∧ r.vbase = c.base ∧
          r.lanes = (activeLanes p).map (fun L =>
            { lane := L, addr := c.base, data := (List.range (4 * n)).map (dataByte p (.reg x) L), mask := (1 : Word) <<< L })
      (∃ t r, exec (.tex d x cb ac tm) s = .next t ∧ sent t r .tex ((tm.getD {}).nres.val + 1) 2) ∧
      ∃ t r, exec (.hgrid d x cb ac hm) s = .next t ∧ sent t r .hgrid ((if (hm.getD {}).f4 then 2 else 1) * ((hm.getD {}).nlev.val + 1)) 3)

/-- R160: CLD loads one granule and its register is pending until it lands; CST stores the register's 128 bits and its tag, and
traps on a tagged capability without the right G. -/
def Claim.CapabilityLoadStore : Prop :=
  ∀ (s : State) (d cb : CReg) (a : SSrc) (ac : Fin 16) (mo : Option MMod),
    let p := s.pane
    let c := p.creg cb.val
    let x := p.creg d.val
    let off := (a.val p).toNat
    (c.base + off) % 16 = 0 → off + 16 ≤ c.len →
    (CanSend s (modOf mo) (some ac) false → CapAdmits p cb 1 →
      ∃ t r u, exec (.cld d a cb ac mo) s = .next t ∧ Sent s u r (modOf mo) false ∧
        t = { u with pane := { u.pane with cPend := p.cPend ||| ((1 : Word) <<< d.val) } } ∧
        r.kind = .cld ∧ r.space = .dm ∧ r.obj = c.obj ∧ r.ac = some ac ∧ r.d = some d.val ∧ r.entry = false ∧
        (r.tag = true ↔ c.rights.getLsbD 5 = true) ∧ r.lanes = [{ lane := 0, addr := c.base + off, mask := 1 }]) ∧
    (CanSend s (modOf mo) (some ac) true → CapAdmits p cb 0x42 →
      (x.tag = true → x.rights.getLsbD 7 = false →
        exec (.cst d a cb ac mo) s = .next (takeTrap 0x06 (BitVec.ofNat 32 (0x80 * 2 ^ 10 + d.val * 2 ^ 5)) s)) ∧
      (¬ (x.tag = true ∧ x.rights.getLsbD 7 = false) →
        ∃ t r, exec (.cst d a cb ac mo) s = .next t ∧ Sent s t r (modOf mo) false ∧ r.kind = .cst ∧ r.space = .dm ∧
          r.obj = c.obj ∧ r.ac = some ac ∧ r.entry = true ∧ r.tag = x.tag ∧
          r.lanes = [{ lane := 0, addr := c.base + off, data := (List.range 16).map (fun j => (x.bits >>> (8 * j)).setWidth 8), mask := 1 }]))

/-- R161, R154: CBND narrows the extent and never widens it, CRGT takes rights away, CMOV copies bits and tag, CGET reads the
four words; an untagged source of CBND or CRGT traps. -/
def Claim.CapabilityDerivation : Prop :=
  ∀ (s : State) (d a : CReg) (b : Fin 63) (u : SSrc) (g : Fin 61),
    let p := s.pane
    let c := p.creg a.val
    let unit := if bit (p.sreg (b.val + 1)) 31 = true then 256 else 1
    let off := (p.sreg b.val).toNat * unit
    let len := (p.sreg (b.val + 1)).toNat % 2 ^ 31 * unit
    let only := fun (t : State) (x : Cap) => t = { s with pane := { p with c := t.pane.c } } ∧
      ∀ n, n < p.c.length → t.pane.creg n = if n = d.val then x else p.creg n
    (c.tag = false →
      exec (.cbnd d a b) s = .next (takeTrap 0x07 (BitVec.ofNat 32 (a.val * 32)) s) ∧
      exec (.crgt d a u) s = .next (takeTrap 0x07 (BitVec.ofNat 32 (a.val * 32)) s)) ∧
    (c.tag = true → c.len < off + len →
      exec (.cbnd d a b) s = .next (takeTrap 0x05 (BitVec.ofNat 32 (a.val * 32)) s)) ∧
    (c.tag = true → off + len ≤ c.len → c.base + c.len ≤ 2 ^ 56 → ∃ t x, exec (.cbnd d a b) s = .next t ∧ only t x ∧
      x.tag = true ∧ x.len = len ∧ (0 < len → x.base = c.base + off) ∧ x.rights = c.rights ∧ x.key = c.key ∧ x.obj = c.obj) ∧
    (c.tag = true → ∃ t x, exec (.crgt d a u) s = .next t ∧ only t x ∧ x.tag = true ∧ x.base = c.base ∧ x.len = c.len ∧
      x.rights = c.rights &&& (u.val p).setWidth 8 ∧ x.key = c.key ∧ x.obj = c.obj) ∧
    (∃ t, exec (.cmov d a) s = .next t ∧ only t c) ∧
    (∃ t, exec (.cget g a) s = .next t ∧ t = { s with pane := { p with s := t.pane.s } } ∧
      ∀ n, n < p.s.length → t.pane.sreg n =
        if g.val ≤ n ∧ n < g.val + 4 then (c.bits >>> (32 * (n - g.val))).setWidth 32 else p.sreg n)

/-- R157, R158, R181: the checks of a word through a capability, in their order; the lane is the lowest that fails. With XM 0 a
lane-addressed word makes no check and has no effect. -/
def Obligations.MemoryChecks : Prop :=
  ∀ (s : State) (d : Fin 120) (v a : VSrc) (vd : VDst) (cb : CReg) (ac : Fin 16) (mo : Option MMod),
    let p := s.pane
    let m := modOf mo
    let c := p.creg cb.val
    let words : List (Instr × BitVec 8) := [(.lddm d a cb ac mo, 1), (.stdm v a cb ac mo, 2), (.atdm vd a cb ac mo, 8),
      (.reddm v a cb mo, 0x10), (.stpm v a cb mo, 2), (.redpm v a cb mo, 0x10), (.ldhm d a cb ac mo, 1), (.sthm v a cb ac mo, 2)]
    ∀ w ∈ words,
      (p.xm = 0 → exec w.1 s = .next s) ∧
      (p.xm ≠ 0 → s.memMayIssue = true →
        (c.tag = false → exec w.1 s = .next (takeTrap 0x07 (BitVec.ofNat 32 (cb.val * 32)) s)) ∧
        (c.tag = true → c.key ≠ p.part → exec w.1 s = .next (takeTrap 0x06 (BitVec.ofNat 32 (2 ^ 18 + cb.val * 32)) s)) ∧
        (c.tag = true → c.key = p.part → w.2 &&& ~~~c.rights ≠ 0 →
          exec w.1 s = .next (takeTrap 0x06 (BitVec.ofNat 32 ((w.2 &&& ~~~c.rights).toNat * 2 ^ 10 + cb.val * 32)) s)) ∧
        (CapAdmits p cb w.2 → ∀ L, Act p L → (c.base + offsetOf p m a L) % m.size.bytes ≠ 0 →
          (∀ k, k < L → p.active k = true → (c.base + offsetOf p m a k) % m.size.bytes = 0) →
          exec w.1 s = .next (takeTrap 0x08 (BitVec.ofNat 32 (cb.val * 32 + L)) s)) ∧
        (CapAdmits p cb w.2 → (∀ L, Act p L → (c.base + offsetOf p m a L) % m.size.bytes = 0) →
          ∀ L, Act p L → c.len < offsetOf p m a L + m.size.bytes →
          (∀ k, k < L → p.active k = true → offsetOf p m a k + m.size.bytes ≤ c.len) →
          exec w.1 s = .next (takeTrap 0x05 (BitVec.ofNat 32 (cb.val * 32 + L)) s)))

/-- R176, R177, R238: a WAITAC whose counter has reached its threshold completes, or raises the engine-error trap where the
counter's flag is set; a threshold of 255 completes at the next turn. FENCE completes at once and marks the pane's earlier
accesses: release (and .AR) as those that later memory words wait for, acquire (and .AR) the reads. A WAITAC that completes and an
acquire part of a FENCE take over what the pane's reads and operations had seen (R240, R241). -/
def Claim.WaitsAndFences : Prop :=
  ∀ (s : State) (k : Fin 16) (t : Thr) (o : FOrd) (sc : Scope),
    let p := s.pane
    let thr := match t with
      | .imm x => x.toNat
      | .reg n => (p.sreg n.val).toNat
      | .lit x => x.toNat
    let marked := p.acData.getLsbD k.val = true ∨ p.acEng.getLsbD k.val = true
    let acq := { p with clock := mergeClock p.clock p.seen, seen := [] }
    (p.wait = .begun → (p.ac.getD k.val 0).toNat ≤ thr → ¬ marked →
      exec (.waitac k t) s = .next { s with pane := { acq with wait := .none } }) ∧
    (p.wait = .begun → (p.ac.getD k.val 0).toNat ≤ thr → marked →
      exec (.waitac k t) s = .next (takeTrap 0x0C (BitVec.ofNat 32 (k.val + (if p.acData.getLsbD k.val then 16 else 0) +
        (if p.acEng.getLsbD k.val then 32 else 0))) { s with pane := acq })) ∧
    (p.wait ≠ .begun ∨ thr < (p.ac.getD k.val 0).toNat →
      exec (.waitac k t) s = .next { s with issue := .ended, pane := { p with wait := .begun } }) ∧
    exec (.fence o sc) s = .next { s with pane := { (if o = .rel then p else acq) with
      relMark := if o = .acq then p.relMark else s.nextRid, acqMark := if o = .rel then p.acqMark else s.nextRid,
      sysMark := if o ≠ .acq ∧ sc = .sys then s.nextRid else p.sysMark } }

/-! ### Barriers, waits on memory, spawn bins, residency (R133 to R153, R213 to R217) -/

/-- A barrier after one more arrival with an expected total, of `live` panes where it is 0 (R152). -/
def ArrivedBar (old new : Bar) (total live : Nat) : Prop :=
  let tot := if old.count = 0 then total else old.total.getD 0
  let need := if tot = 0 then live else tot
  (need ≤ old.count + 1 → new.phase = old.phase + 1 ∧ new.count = 0) ∧
  (old.count + 1 < need → new.phase = old.phase ∧ new.count = old.count + 1 ∧ (old.count = 0 ∨ old.total.isSome → new.total = some tot))

/-- The arrivals that a count operand asks for: 0 for code 124. -/
def countOf (p : Pane) (d : SOpt) : Nat :=
  match d with
  | .reg n => (p.sreg n.val).toNat
  | .zero => 0

/-- R151, R152: an arrival is counted and recorded, the phase completes at its total, and a count register out of range traps; a
wait ends once the recorded phase has completed or the pane never arrived, and holds the pane's issue until then; a release waits
at the word until the pane's earlier accesses are over and its die has what it has acquired.
A group whose word waits waits whole (log entry 39); a wait looks at no count (log entry 96). -/
def Claim.TeamBarriers : Prop :=
  ∀ (s : State) (d : SOpt) (n : Fin 16) (o : Ord) (tm : Team),
    let p := s.pane
    let bar := tm.bars.getD n.val {}
    let rng := ∀ r, d = .reg r → 1 ≤ (p.sreg r.val).toNat ∧ (p.sreg r.val).toNat ≤ p.npane + 1
    let calm := s.quiet p.pid s.nextRid = true ∧ (s.die (dieOf p.core)).covers p.clock = true
    s.team p.grid p.team = some tm → tm.bars.length = 16 → p.barRec.length = 16 →
    (¬ rng → exec (.barArrive d n o) s = .next (takeTrap 0x03 s.word s) ∧
      (p.wait ≠ .begun → exec (.barSync d n o) s = .next (takeTrap 0x03 s.word s))) ∧
    (rng → o = .rel ∨ o = .ar → ¬ calm → exec (.barArrive d n o) s = .next { s with issue := .ended } ∧
      (p.wait ≠ .begun → exec (.barSync d n o) s = .next { s with issue := .ended })) ∧
    (rng → (o = .rel ∨ o = .ar → calm) →
      (∃ t tm', exec (.barArrive d n o) s = .next t ∧ t.pane.barRec.getD n.val none = some bar.phase ∧ t.issue = s.issue ∧
        t.team p.grid p.team = some tm' ∧ ArrivedBar bar (tm'.bars.getD n.val {}) (countOf p d) (s.teamLive p.grid p.team)) ∧
      (p.wait ≠ .begun → ∃ t tm', exec (.barSync d n o) s = .next t ∧ t.pane.barRec.getD n.val none = some bar.phase ∧
        t.issue = .ended ∧ t.pane.wait = .begun ∧
        t.team p.grid p.team = some tm' ∧ ArrivedBar bar (tm'.bars.getD n.val {}) (countOf p d) (s.teamLive p.grid p.team))) ∧
    (p.wait ≠ .begun → exec (.barWait d n o) s =
      .next { s with issue := .ended, pane := { p with wait := .begun, waitOn := some (.bar n.val) } }) ∧
    (p.wait = .begun → p.barRec.getD n.val none ≠ some bar.phase →
      exec (.barWait d n o) s = .next { s with pane := { p with wait := .none, waitOn := none } } ∧
      exec (.barSync d n o) s = .next { s with pane := { p with wait := .none, waitOn := none } }) ∧
    (p.wait = .begun → p.barRec.getD n.val none = some bar.phase →
      exec (.barWait d n o) s = .next { s with issue := .ended, pane := { p with waitOn := some (.bar n.val) } } ∧
      exec (.barSync d n o) s = .next { s with issue := .ended, pane := { p with waitOn := some (.bar n.val) } })

/-- R213, R214, R216: the same for the barriers of a cluster: counts from 1 to 192, an arrival of another grid in an open phase does
not issue, nor does one at a set that has still to be loaded, and a wait ends 16 cycles after the final arrival of its phase.
CLBAR.WAIT checks its count register (log entry 96). -/
def Claim.ClusterBarriers : Prop :=
  ∀ (s : State) (d : SOpt) (n : Fin 16) (o : Ord),
    let p := s.pane
    let cl := p.core / 6
    let bar := (s.clBars cl p.part).getD n.val {}
    let rng := ∀ r, d = .reg r → 1 ≤ (p.sreg r.val).toNat ∧ (p.sreg r.val).toNat ≤ 192
    let taken := 0 < bar.count ∧ bar.grid ≠ p.grid
    let calm := s.quiet p.pid s.nextRid = true ∧ (s.die (dieOf p.core)).covers p.clock = true
    let parked : State := { s with issue := .ended, pane := { p with wait := .begun, waitOn := some (.clbar n.val) } }
    let gone : State := { s with pane := { p with wait := .none, waitOn := none } }
    (s.clLoading cl p.part = true → exec (.clbarArrive d n o) s = .next (held s) ∧
      (p.wait ≠ .begun → exec (.clbarSync d n o) s = .next (held s))) ∧
    ((s.clBars cl p.part).length = 16 → (s.die (cl / 4)).cls.length = 4 → (s.cluster cl).failed = false → p.clbRec.length = 16 →
      s.clLoading cl p.part = false →
      (¬ rng → exec (.clbarArrive d n o) s = .next (takeTrap 0x03 s.word s) ∧
        (p.wait ≠ .begun → exec (.clbarSync d n o) s = .next (takeTrap 0x03 s.word s) ∧
          exec (.clbarWait d n o) s = .next (takeTrap 0x03 s.word s))) ∧
      (rng → taken → exec (.clbarArrive d n o) s = .next (held s) ∧
        (p.wait ≠ .begun → exec (.clbarSync d n o) s = .next (held s))) ∧
      (rng → ¬ taken → o = .rel ∨ o = .ar → ¬ calm → exec (.clbarArrive d n o) s = .next { s with issue := .ended } ∧
        (p.wait ≠ .begun → exec (.clbarSync d n o) s = .next { s with issue := .ended })) ∧
      (rng → ¬ taken → (o = .rel ∨ o = .ar → calm) →
        (∃ t, exec (.clbarArrive d n o) s = .next t ∧ t.pane.clbRec.getD n.val none = some bar.phase ∧ t.pane.clbHome = some cl ∧
          ArrivedBar bar ((t.clBars cl p.part).getD n.val {}) (countOf p d) (s.clusterLive p.grid cl)) ∧
        (p.wait ≠ .begun → ∃ t, exec (.clbarSync d n o) s = .next t ∧ t.pane.clbRec.getD n.val none = some bar.phase ∧
          t.issue = .ended ∧ t.pane.wait = .begun ∧
          ArrivedBar bar ((t.clBars cl p.part).getD n.val {}) (countOf p d) (s.clusterLive p.grid cl))) ∧
      (p.wait ≠ .begun → rng → exec (.clbarWait d n o) s = .next parked) ∧
      (p.wait = .begun → (∀ k, p.clbRec.getD n.val none = some k → k ≠ bar.phase ∧ ∀ e ∈ bar.past, e.1 = k → e.2 + 16 ≤ s.cycle) →
        exec (.clbarWait d n o) s = .next gone ∧ exec (.clbarSync d n o) s = .next gone) ∧
      (p.wait = .begun → (p.clbRec.getD n.val none = some bar.phase ∨ ∃ e ∈ bar.past, p.clbRec.getD n.val none = some e.1 ∧
          s.cycle < e.2 + 16) →
        exec (.clbarWait d n o) s = .next parked ∧ exec (.clbarSync d n o) s = .next parked))

/-- R143 to R146: a WAITMEM that passes its checks leaves the slot, loses the latches and parks with a watch on its word, which is
compared at once; when the pane issues again it is over, or, where its access failed, raises the engine-error trap with DATA. The
timeout makes the final read due. A read that finds the value different, or is the final one, wakes the pane: the value goes to the
register, and the pane is ready; the first that finds it equal leaves the pane parked. A pane that a write woke takes the value that
woke it where a later one restored the word (log entry 97). -/
def Claim.MemoryWaits : Prop :=
  ∀ (s : State) (d : SOpt) (a : SSrc) (cb : CReg) (tmo : Option (BitVec 20)),
    let p := s.pane
    let c := p.creg cb.val
    let off := (a.val p).toNat
    (p.wait = .begun → exec (.waitmem d a cb tmo) s = .next { s with pane := { p with wait := .none } }) ∧
    (p.wait = .failed → exec (.waitmem d a cb tmo) s = .next (takeTrap 0x0C 0x10 s)) ∧
    (p.wait = .none → s.memMayIssue = true → CapAdmits p cb 1 → (c.base + off) % 4 ≠ 0 →
      exec (.waitmem d a cb tmo) s = .next (takeTrap 0x08 (BitVec.ofNat 32 (cb.val * 32)) s)) ∧
    (p.wait = .none → s.memMayIssue = true → CapAdmits p cb 1 → (c.base + off) % 4 = 0 → off + 4 ≤ c.len →
      s.watches p.core < 32 → s.tableRefuses (dieOf p.core) p.part c.obj (c.base + off) = false →
      ∃ t u w, exec (.waitmem d a cb tmo) s = .next t ∧ exec (.waitmemFinalRead p.pid) u = .next t ∧
        u.issue = .ended ∧ u.pane.place = .parked .waitmem ∧ u.pane.wait = .begun ∧
        u.pane.watch = some w ∧ w.addr = c.base + off ∧ w.obj = c.obj ∧ w.expect = d.val p ∧ w.holds = true ∧ w.due = false ∧
        w.looked = false ∧ w.got = none ∧
        (w.until_ = if (tmo.map BitVec.toNat).getD 0 = 0 then none else some (s.cycle + 256 * (tmo.map BitVec.toNat).getD 0)) ∧
        u.pane.y0.valid = false ∧ u.pane.y1.valid = false ∧ u.pane.y2.valid = false ∧ u.pane.y3.valid = false ∧
        u.pane = { p with y0 := u.pane.y0, y1 := u.pane.y1, y2 := u.pane.y2, y3 := u.pane.y3, place := .parked .waitmem, inCore := true,
                          since := s.cycle, lastSlot := u.pane.lastSlot, wait := .begun, watch := some w } ∧
        u = { s with pane := u.pane, issue := .ended }) ∧
    (∀ w u, p.watch = some w → w.due = false → w.got = none → w.until_ = some u → u ≤ s.cycle →
      exec (.waitmemTimeout p.pid) s = .next { s with pane := { p with watch := some { w with due := true, holds := false } } }) ∧
    (∀ w pa tier u v b, p.watch = some w → p.place = .parked .waitmem → s.watchBlocked p w = false →
      s.parkedAt (dieOf p.core) p.part w.obj none w.addr 4 = false →
      s.unitObj p.watchVia w.obj w.addr = (u, .ok (pa, tier)) →
      u.dieRead p.watchVia false pa 4 tier = (v, .ok b) → v.pane = p →
      let read := BitVec.ofNat 32 (ofBytes b)
      let woken := w.due = true ∨ w.got.isSome = true
      (woken ∨ (w.looked = false ∧ read ≠ w.expect) →
        ∃ t, exec (.waitmemFinalRead p.pid) s = .next t ∧ t.pane.place = .ready ∧ t.pane.watch = none ∧
          t.pane.s = (match w.d with
            | some r => setAt p.s r.val (if read = w.expect then w.got.getD read else read)
            | none => p.s)) ∧
      (¬ woken → w.looked = false → read = w.expect →
        ∃ t, exec (.waitmemFinalRead p.pid) s = .next t ∧ t.pane = { p with watch := some { w with looked := true } }) ∧
      (¬ woken → w.looked = true → exec (.waitmemFinalRead p.pid) s = .next s))

/-- The payload words of a lane's thread (R147): n registers from the run, then 0. -/
def threadWords (p : Pane) (r : Fin 120) (n L : Nat) : List Word :=
  (List.range 8).map (fun k => if k < n then p.vreg (r.val + k) L else 0)

/-- R147, R148: SPAWN with no active lane does nothing; with a misaligned entry it traps; where its threads need a pane to be formed
while the formation path holds one, it does not issue; else its lanes' threads, in ascending order, are among the cycle's
insertions. It writes no register. At the end of the cycle they go behind those of the bin that holds their key, or into the
lowest free bin, whose timer then starts; 32 threads form a pane. -/
def Claim.Spawns : Prop :=
  (∀ (s : State) (r : Fin 120) (a : Fin 63) (n : Fin 9),
    let p := s.pane
    let lo := p.sreg a.val
    let key := (lo.toNat + (p.sreg (a.val + 1)).toNat % 2 ^ 24 * 2 ^ 32, p.grid)
    let c := s.core p.core
    let threads := (activeLanes p).map (fun L => (threadWords p r n.val L, none))
    (p.xm = 0 → exec (.spawn (.reg r) a n) s = .next s) ∧
    (p.xm ≠ 0 → s.memMayIssue = true → lo &&& 15 ≠ 0 → exec (.spawn (.reg r) a n) s = .next (takeTrap 0x04 lo s)) ∧
    (p.xm ≠ 0 → s.memMayIssue = true → lo &&& 15 = 0 →
      (c.pathHeld s.cycle false key threads = true → exec (.spawn (.reg r) a n) s = .next (held s)) ∧
      (c.pathHeld s.cycle false key threads = false ∨ (c.forming = [] ∧ c.pend = [] ∧ ∀ b, b < 16 → (c.bins.getD b {}).threads.length < 32) →
        ∃ t, exec (.spawn (.reg r) a n) s = .next t ∧ t.pane = p ∧ (t.core p.core).pend = c.pend ++ [(false, key, threads)] ∧
          (t.core p.core).bins = c.bins ∧ (t.core p.core).forming = c.forming ∧ t.dm = s.dm))) ∧
  (∀ (c : Core) (now b : Nat) (callback : Bool) (key : Nat × Nat) (threads : List (List Word × Option Nat)),
    c.pend = [(callback, key, threads)] → c.bins.length = 16 → b < 16 → (∀ k, k < 16 → (c.bins.getD k {}).threads.length < 32) →
    (∀ k, k < 16 → k ≠ b → (c.bins.getD k {}).key ≠ some key) →
    ((c.bins.getD b {}).key = some key ∨ (c.bins.getD b {} = {} ∧ ∀ k, k < b → (c.bins.getD k {}).key ≠ none)) →
    let old := c.bins.getD b {}
    let new := (c.settleBins now false).bins.getD b {}
    (c.settleBins now false).pend = [] ∧
    (old.threads.length + threads.length < 32 → new.key = some key ∧ new.threads = old.threads ++ threads ∧ new.touched = now ∧
      new.ends = (if old.threads = [] then now + c.timer else old.ends) ∧ (c.settleBins now false).forming = c.forming) ∧
    (old.threads.length + threads.length = 32 → new = {} ∧
      (c.settleBins now false).forming = c.forming ++ [⟨key.1, key.2, old.threads ++ threads⟩]))

/-- R148, R149: the timer of a bin forms its pane, and the oldest formation becomes a pane of a team of its own: one lane a
thread, the payload in v0 to v7, PANEINFO's SPAWN, the issuing grid's depth and priority, the image's register count and
trap vector; it is ready. -/
def Claim.SpawnedPanes : Prop :=
  ∀ (s : State) (core bin : Nat),
    (∀ e g, ((s.core core).bins.getD bin {}).key = some (e, g) → ((s.core core).bins.getD bin {}).threads ≠ [] →
      ((s.core core).bins.getD bin {}).threads.length ≤ 32 → (s.core core).pend = [] →
      ((s.core core).bins.getD bin {}).ends ≤ s.cycle → (s.core core).forming = [] → bin < (s.core core).bins.length →
      ∃ t, exec (.spawnBinTimer core bin) s = .next t ∧ ((t.core core).bins.getD bin {}) = {} ∧
        (t.core core).forming = [⟨e, g, ((s.core core).bins.getD bin {}).threads⟩]) ∧
    (∀ f rest g u k room, (s.core core).forming = f :: rest → Tab.find s.grids f.grid = some g →
      s.readKernel { who := .kernel core, die := dieOf core, part := g.part, hold := true, again := true, core := some core } f.entry = (u, .ok k) →
      u.formationRoom core g k = some room → u.pane.pid ≠ u.nextPid → g.prio < 8 →
      ∃ t q, exec (.paneFormation core) s = .next t ∧ t.getPane u.nextPid = some q ∧ q.grid = f.grid ∧ q.spawned = true ∧
        q.npane = 0 ∧ q.pord = 0 ∧ q.depth = g.depth ∧ q.prio = g.prio ∧ q.core = core ∧ q.place = .ready ∧ q.nregs = k.regs ∧
        q.pc = BitVec.ofNat 56 f.entry ∧ q.trapvecL = BitVec.ofNat 32 k.trapvec ∧ q.stklim = BitVec.ofNat 32 g.stklim ∧
        (∀ L, L < 32 → (bit q.xm L = true ↔ L < f.threads.length)) ∧
        (∀ i L, i < k.regs → L < 32 → q.vreg i L = if i < 8 then ((f.threads.getD L ([], none)).1).getD i 0 else 0))

/-- The resident panes of a core of one priority that are not on their way out. -/
def Residents (s : State) (core pr : Nat) : List Pane :=
  (s.corePanes core).filter (fun p => p.place.slot.isSome && p.prio == pr && !p.moving)

/-- R136 to R138, R140 to R142: the lowest free slot that the head of the highest ready queue can take goes to it, with its engine's
tile set; where it can take none, the longest parked pane whose departure helps begins to leave. Where no slot is covered for the head
and no parked pane can be moved out, the resident pane of the lowest priority below its own, the longest resident, begins to leave, if
the head can take a slot in its place. The quantum begins the departures of as many residents of each priority as are ready of it,
longest resident first, from the highest priority down, as far as records are free. A departure takes a save record where it begins
(log entry 26 for that, and for the orders that the rules leave open). A departure whose steps are over frees the slot, its blocks and its
tile set; a restore ends once the die has what the pane's clock names; a team without a core takes the one that its placement gives. -/
def Obligations.Residency : Prop :=
  ∀ (s : State) (core : Nat),
    (∀ h ids k, (s.core core).part ≠ 0 → (s.core core).out = false → (s.core core).headQueue = h.pid :: ids →
      s.getPane h.pid = some h → h.moving = false → h.core = core →
      let ok := fun j => s.slotPane core j = none ∧ (∀ e, h.mx.tileSet = some e → j / 16 = e) ∧
        (h.inCore = true ∨ s.blocksUsed core + h.nregs / 8 ≤ 384) ∧ (h.mx.tileSet.isSome = true ∨ s.tilesUsed core (j / 16) < 16)
      k < 32 → ok k → (∀ j, j < k → ¬ ok j) →
      ∃ t q, exec (.slotGrant core) s = .next t ∧ t.getPane h.pid = some q ∧ q.place = .resident k ∧ q.inCore = true ∧
        q.restoring = h.swapped ∧ q.mx.tileSet = some (k / 16) ∧ q.v = h.v ∧ q.s = h.s ∧ q.stack = h.stack) ∧
    (∀ h ids v vs u, (s.core core).part ≠ 0 → (s.core core).out = false → (s.core core).headQueue = h.pid :: ids →
      s.getPane h.pid = some h → h.moving = false → h.core = core → (s.freeSlots core).any h.engineOk = true → s.slotFor h = none →
      s.movable core = v :: vs → s.coveredIn h (s.freeSlots core) = false → s.helps h v = true →
      v.restoring = false → s.getPane v.pid = some v → s.beginLeave v.pid = some u → u.coveredIn h (u.freeSlots core) = true →
      exec (.slotGrant core) s = .next u) ∧
    (∀ h ws v u, (s.core core).out = false → s.waiters core = h :: ws → h.core = core →
      s.coveredIn h (s.slotsSoon core) = false → s.canMoveOut h = false →
      let fit := fun (q : Pane) => q ∈ s.corePanes core ∧ q.moving = false ∧ q.prio < h.prio ∧ ∃ j, q.place.slot = some j ∧
        (h.engineOk j = true ∨ ∃ i ∈ s.slotsSoon core, h.engineOk i = true)
      fit v → (∀ q, fit q → q.pid ≠ v.pid → v.prio < q.prio ∨ (v.prio = q.prio ∧ longerResident v q = true)) →
      s.beginLeave v.pid = some u → exec (.displacement core) s = .next u) ∧
    ((s.core core).lastTick < s.cycle / 65536 →
      ∃ t, ∃ vs : List Pane, exec (.residencyQuantumTick core) s = .next t ∧ (t.core core).lastTick = s.cycle / 65536 ∧ t.dm = s.dm ∧
        t = (s.modCore core (fun c => { c with lastTick := s.cycle / 65536 })).beginAll (vs.map Pane.pid) ∧
        vs.Pairwise (fun a b => b.prio ≤ a.prio) ∧ (∀ v ∈ vs, v.prio < 8) ∧
        ∀ pr, pr < 8 →
          let out := vs.filter (fun p => p.prio == pr)
          out.length = min ((s.core core).queues.getD pr []).length (Residents s core pr).length ∧
          (∀ v ∈ out, v ∈ Residents s core pr) ∧
          ∀ v ∈ out, ∀ q ∈ Residents s core pr, q ∉ out → longerResident q v = false) ∧
    (∀ p ps, s.beginAll [] = s ∧ s.beginAll (p :: ps) = ((s.beginLeave p).getD s).beginAll ps) ∧
    (∀ v g, s.getPane v.pid = some v → v.moving = false → v.restoring = false → Tab.find s.grids v.grid = some g →
      (∀ r, r < g.psaven → r ∉ g.psUsed → (∀ j, j < r → j ∈ g.psUsed) →
        ∃ t q, s.beginLeave v.pid = some t ∧ t.getPane v.pid = some q ∧ t.dm = s.dm ∧
          q = { v with moving := true, saveRec := some r, watch := v.watch.map (fun w => { w with holds := false, due := true }) }) ∧
      ((∀ r, r < g.psaven → r ∈ g.psUsed) → s.beginLeave v.pid = none)) ∧
    (s.pane.restoring = true → (s.die (dieOf s.pane.core)).covers s.pane.clock = true →
      ∃ t, exec (.paneRestore s.pane.pid) s = .next t ∧ t.pane.restoring = false ∧ t.pane.swapped = false ∧
        t.pane.v = s.pane.v ∧ t.pane.stack = s.pane.stack ∧
        ∀ r q, Tab.find t.reqs r = some q → q.pid = s.pane.pid → q.cancelled = false) ∧
    (∀ u k, s.pane.moving = true → s.departReady s.pane = true → s.pane.place = .resident k → s.pane.waitOn = none →
      s.areaOk { who := .save s.pane.pid, die := dieOf s.pane.core, part := s.pane.part, core := some s.pane.core }
        (((Tab.find s.grids s.pane.grid).map Grid.psave).getD 0 + 65536 * s.pane.saveRec.getD 0) 65536 = (u, .ok ()) →
      u.pane = s.pane → (u.core s.pane.core).out = false →
      ∃ t, exec (.paneSaveComplete s.pane.pid) s = .next t ∧ t.pane.place = .ready ∧ t.pane.moving = false ∧
        t.pane.swapped = true ∧ t.pane.inCore = false ∧ t.pane.mx.tileSet = none ∧ t.pane.y0 = s.pane.y0 ∧ t.pane.v = s.pane.v) ∧
    (∀ key tm g off, Tab.find s.teams key = some tm → key = teamKey tm.grid tm.ord → tm.home = none →
      Tab.find s.grids tm.grid = some g → s.placeCore g tm.scratch (s.tied tm) = some core →
      s.teamWaits g.part g.prio none (some key) = false → s.scratchAt core tm.scratch = some off →
      ∃ t tm', exec (.teamRestore key core) s = .next t ∧ Tab.find t.teams key = some tm' ∧ tm'.home = some core ∧
        tm'.spds = sliceBase core + off ∧ tm'.bars = tm.bars)

/-- R22, R29, R110: the pane's fetch fills its buffer with the packet at its pc; the values of a loop entry that has become the
top entry are fetched again; a spill writes the oldest entry on chip and a refill brings back the youngest in memory. -/
def Claim.FetchAndStackAccess : Prop :=
  ∀ (s : State),
    let p := s.pane
    (∀ u k, p.place.slot.isSome = true → p.restoring = false → p.ibuf = none →
      s.readPacket p.fetchVia ((p.pc >>> 4).setWidth 52) = (u, .ok k) → u.pane = p →
      ∃ t, exec (.packetFetch p.pid) s = .next t ∧ t.pane = { p with ibuf := some k }) ∧
    (∀ u k b e r, p.place.slot.isSome = true → p.restoring = false → p.moving = false → p.stack = e :: r → e.kind = .loop →
      p.loopHeld e = none → s.readPacket p.fetchVia (e.pkt - 1) = (u, .ok k) → u.pane = p → k.loop = some b →
      ∃ t, exec (.loopBufferRefetch p.pid) s = .next t ∧ t.pane.lbuf e.level = some b ∧ t.pane.stack = p.stack) ∧
    (∀ u e r, p.saveAcc = some (.spill false) → p.pendTrap = none → s.quiet p.pid s.nextRid = true → p.stack = r ++ [e] →
      s.writeVA p.stackVia (p.stksave + 16 * (p.deep - p.stack.length)) e.bytes = (u, .ok ()) → u.pane = p →
      ∃ t, exec (.stackSaveAccessDone p.pid) s = .next t ∧ t.pane.stack = r ∧ t.pane.saveAcc = none ∧ t.pane.deep = p.deep) ∧
    (∀ u b, p.saveAcc = some .refill → s.quiet p.pid s.nextRid = true →
      s.readVA p.stackVia (p.stksave + 16 * (p.deep - p.stack.length - 1)) 16 = (u, .ok b) → u.pane = p →
      ∃ t, exec (.stackSaveAccessDone p.pid) s = .next t ∧ t.pane.stack = p.stack ++ [Entry.ofBytes b] ∧ t.pane.saveAcc = none)

/-- R21: an entry's sixteen bytes hold it: reading them back gives the entry. -/
def Claim.EntryBytes : Prop :=
  ∀ e : Entry, e.bytes.length = 16 ∧ Entry.ofBytes e.bytes = e ∧
    (⟨0xFFFFFFFF, 0x1000000A2, 2, .call, 0, 0⟩ : Entry).words = [0xFFFFFFFF, 0x000000A2, 0x00A00001, 0]

/-! ### The matrix engines (R182 to R207) -/

/-- The unit a matrix word queues is at the end of the pane's queue and in its open set; nothing else of the machine changes
but the operand collector (R183, R189, R191). -/
def Queued (s t : State) (u : MUnit) : Prop :=
  t = { s with pane := { s.pane with mx := t.pane.mx } } ∧
  t.pane.mx = { s.pane.mx with units := s.pane.mx.units ++ [u], openN := s.pane.mx.openN + 1, coll := t.pane.mx.coll } ∧
  u.batch = none ∧ u.step = 0 ∧ u.xm = s.pane.xm

/-- The bytes of the team's scratchpad from a team-relative address, as a number. -/
def spNumber (s : State) (p : Pane) (a n : Nat) : Nat := ofBytes (Mem.readN s.ds (s.spds p + a) n)

/-- The valid contents of a layout record (R185): reserved bits 0, no extent 0. -/
def LayoutValid (x : Nat) : Prop := x / 2 ^ 160 = 0 ∧ x / 2 ^ 19 % 2 ^ 13 = 0 ∧ ∀ j, j < 4 → x / 2 ^ (32 + 32 * j) % 2 ^ 12 ≠ 0

/-- Extent j and stride j of a layout record (R185). -/
def extOf (x j : Nat) : Nat := x / 2 ^ (32 + 32 * j) % 2 ^ 12
def strOf (x j : Nat) : Int := (BitVec.ofNat 20 (x / 2 ^ (44 + 32 * j))).toInt

/-- The address of unit i0 + EXT0 * (i1 + EXT1 * (i2 + EXT2 * i3)) (R186). -/
def unitAddr (x t : Nat) : Int :=
  let q1 := t / extOf x 0
  let q2 := q1 / extOf x 1
  let q3 := q2 / extOf x 2
  (x % 2 ^ 19 : Nat) + (t % extOf x 0 : Nat) * strOf x 0 + (q1 % extOf x 1 : Nat) * strOf x 1 +
    (q2 % extOf x 2 : Nat) * strOf x 2 + (q3 % extOf x 3 : Nat) * strOf x 3

/-- R183, R189, R191: a matrix word with XM = 0 does nothing; a 17th unit does not issue; else the word queues its one unit,
which holds XM; MMA and MMAS leave the collector as RU says, the others do not touch it. -/
def Claim.MatrixWords : Prop :=
  ∀ (s : State) (d : Fin 113) (a e : Fin 63) (va : Fin 105) (acc ru w : Bool) (i : Fin 32) (g : Fin 4) (had : HadMode),
    let m := s.pane.mx
    let all := fun (r : State) => exec (.mma d a acc ru) s = .next r ∧ exec (.mmas d a acc ru i) s = .next r ∧
      exec (.mmat d a acc) s = .next r ∧ exec (.mxq e va had) s = .next r ∧ exec (.mxrd w d acc g) s = .next r ∧
      exec (.mxst a acc) s = .next r ∧ exec (.mxclr acc) s = .next r
    let same := fun (t : State) (u : MUnit) => Queued s t u ∧ t.pane.mx.coll = m.coll
    (s.pane.xm = 0 → all s) ∧
    (s.pane.xm ≠ 0 → 16 ≤ m.units.length ∨ s.memMayIssue = false → all (held s)) ∧
    (s.pane.xm ≠ 0 → s.memMayIssue = true → m.units.length < 16 → s.spSettled s.pane.pid = true →
      (∃ t u, exec (.mma d a acc ru) s = .next t ∧ Queued s t u ∧ u.kind = .mma ∧ u.acc = acc ∧ (t.pane.mx.coll.isSome = true ↔ ru = true)) ∧
      (∃ t u, exec (.mmas d a acc ru i) s = .next t ∧ Queued s t u ∧ u.kind = .mmas ∧ u.acc = acc ∧
        (t.pane.mx.coll.isSome = true ↔ ru = true)) ∧
      (∃ t u, exec (.mmat d a acc) s = .next t ∧ same t u ∧ u.kind = .mmat ∧ u.acc = acc) ∧
      (∃ t u, exec (.mxq e va had) s = .next t ∧ same t u ∧ u.kind = .mxq) ∧
      (∃ t u, exec (.mxrd w d acc g) s = .next t ∧ same t u ∧ u.kind = .mxrd ∧ u.acc = acc ∧ u.bad = 0 ∧ u.d = d.val ∧ u.g = g.val ∧
        u.w = w) ∧
      (∃ t u, exec (.mxst a acc) s = .next t ∧ same t u ∧ u.kind = .mxst ∧ u.acc = acc) ∧
      (∃ t u, exec (.mxclr acc) s = .next t ∧ same t u ∧ u.kind = .mxclr ∧ u.acc = acc ∧ u.bad = 0))

/-- R185, R186, R189, R190, R196: the records as a unit holds them. MXST with a valid layout of 1,024 aligned units in the
allocation, and MMA with a valid FP16 or BF16 block and a layout of 512, hold the addresses of R186, MMA with its own
registers; other records make error units of KIND 3, an address out of place one of KIND 4.
The order of the checks, and that a format's longer run of registers is found here, are the model's reading (log entries 32 and 81). -/
def Claim.MatrixRecords : Prop :=
  ∀ (s : State) (d : Fin 113) (a : Fin 63) (acc ru : Bool) (t : State) (u : MUnit),
    let p := s.pane
    let x := spNumber s p (p.sreg a.val).toNat 32
    let f := spNumber s p (p.sreg (a.val + 1)).toNat 16
    let lay := (p.sreg a.val).toNat % 32 = 0 ∧ (p.sreg a.val).toNat + 32 ≤ s.scratch p
    let fmt := (p.sreg (a.val + 1)).toNat % 16 = 0 ∧ (p.sreg (a.val + 1)).toNat + 16 ≤ s.scratch p
    let total := extOf x 0 * extOf x 1 * extOf x 2 * extOf x 3
    let fits := fun (n k : Nat) => 0 ≤ unitAddr x k ∧ unitAddr x k % n = 0 ∧ unitAddr x k + n ≤ s.scratch p
    p.xm ≠ 0 → s.memMayIssue = true → p.mx.units.length < 16 → s.spSettled p.pid = true → Queued s t u →
    (exec (.mxst a acc) s = .next t →
      (¬ lay → u.bad = 4) ∧ (lay → ¬ LayoutValid x → u.bad = 3) ∧ (lay → LayoutValid x → total ≠ 1024 → u.bad = 3) ∧
      (lay → LayoutValid x → total = 1024 → (∃ k, k < 1024 ∧ p.active (k / 32) = true ∧ ¬ fits 4 k) → u.bad = 4) ∧
      (lay → LayoutValid x → total = 1024 → (∀ k, k < 1024 → p.active (k / 32) = true → fits 4 k) →
        u.bad = 0 ∧ ∀ k, k < 1024 → u.lay.addr k = unitAddr x k)) ∧
    (exec (.mma d a acc ru) s = .next t →
      (¬ fmt → u.bad = 4) ∧ (fmt → 2 < f % 8 → u.bad = 3) ∧ (fmt → f % 8 < 2 → f / 8 % 2 ^ 10 ≠ 0 → u.bad = 3) ∧
      (fmt → f / 2 ^ 13 % 2 ^ 19 ≠ 0 ∨ f / 2 ^ 96 ≠ 0 → u.bad = 3) ∧
      (fmt → lay → LayoutValid x → f % 8 < 2 → f / 8 % 2 ^ 29 = 0 → f / 2 ^ 96 = 0 → total = 512 →
        (∀ k, k < 512 → fits 2 k) → p.mx.coll = none →
        u.bad = 0 ∧ u.sat = bit p.xctl 1 ∧ u.k = 16 ∧ (∀ k, k < 512 → u.lay.addr k = unitAddr x k) ∧
          ∀ j, j < 8 → u.aop.getD j [] = p.v.getD (d.val + j) []))

/-- The engine's next unit is `u`, of a pane p (R183). -/
def EngineHas (s : State) (core e : Nat) (p : Pane) (u : MUnit) (rest : List MUnit) : Prop :=
  s.mxNext core e = some p ∧ s.getPane p.pid = some p ∧ p.mx.units = u :: rest

/-- The element (m, n) of the tile of a unit. -/
def tileAt (p : Pane) (u : MUnit) (m n : Nat) : Word := ((p.mx.tile u.acc).getD m []).getD n 0

/-- R190, R192, R193, R200, R204: a tile step computes one step of the MMA, MMAS or MMAT at the head of the queue. Rows outside its
mask, the other tile and the bytes of the slices are as before. An updated element is R69 (FP16, BF16) or R70 (bit-plane) of the element
before, the A row, from the captured registers or, of an MMAT, from the scratchpad, and the B column; an MMAS takes the rows its list
names, none for 0xFFFF. Rows of a bank with an operand error become poison, and the batch's error says so. An MMA or MMAS is then done, an
MMAT after its last step. An error unit, or an MMAS whose list names a row past the layout's, only marks its batch. -/
def Claim.MatrixTileSteps : Prop :=
  ∀ (s : State) (core e : Nat) (banks : List Nat) (p : Pane) (u : MUnit) (rest : List MUnit),
    EngineHas s core e p u rest → (u.kind = .mma ∨ u.kind = .mmas ∨ u.kind = .mmat) →
    let num := fun (a : Int) (n : Nat) => spNumber s p a.toNat n
    let entry := fun (i : Nat) => num (u.idx + 2 * i : Nat) 2
    let listed := fun (r : Nat) => u.kind = .mmas ∧ r < 16 ∧ entry r ≠ 0xFFFF
    let beyond := ∃ r, listed r ∧ u.k ≤ entry r
    let outside := ∃ r n, listed r ∧ n < 32 ∧ ¬ (0 ≤ u.lay.addr (n * u.k + entry r) ∧ u.lay.addr (n * u.k + entry r) % 2 = 0 ∧
      u.lay.addr (n * u.k + entry r) + 2 ≤ s.scratch p)
    let noted := fun (q : Pane) (kind : Nat) => ∀ b, u.batch = some b → b < p.mx.errs.length → (∃ x ∈ rest, x.batch = some b) →
      (∀ c ∈ p.mx.order, c = b) → (p.mx.errs.getD b {}).kind = 0 → (q.mx.errs.getD b {}).kind = kind
    let updates := fun (m : Nat) => m < 32 ∧ (u.kind = .mmat ∨ bit u.xm m = true)
    let fp := fun (x : Nat) => unpack u.fmt.elem false x
    let own := fun (m k : Nat) => fp (bits ((u.aop.getD (k / 2) []).getD m 0) (16 * (k % 2)) 16)
    let planes := fun (a : Int) (n : Nat) (mid : Bool) => bpVals ((List.range n).map (fun (q : Nat) => BitVec.ofNat 32 (num (a + 4 * q) 4))) mid
    let depth := if u.kind = .mmat then u.k else 64
    let scales := fun (base r l : Nat) => (List.range (64 / l)).map (fun j => num (base + r * (depth / l) + 64 * u.step / l + j : Nat) 1)
    (u.bad ≠ 0 → ∃ t q, exec (.matrixTileStep core e banks) s = .next t ∧ t.getPane p.pid = some q ∧ q.mx.ta0 = p.mx.ta0 ∧
      q.mx.ta1 = p.mx.ta1 ∧ q.v = p.v ∧ q.mx.units = rest ∧ t.ds = s.ds ∧ noted q u.bad) ∧
    (u.bad = 0 → beyond ∨ outside → ∃ t q, exec (.matrixTileStep core e banks) s = .next t ∧ t.getPane p.pid = some q ∧ q.mx.ta0 = p.mx.ta0 ∧
      q.mx.ta1 = p.mx.ta1 ∧ q.v = p.v ∧ q.mx.units = rest ∧ t.ds = s.ds ∧ (beyond → noted q 5) ∧ (¬ beyond → noted q 4)) ∧
    (u.bad = 0 → ¬ beyond → ¬ outside → ∃ t q, exec (.matrixTileStep core e banks) s = .next t ∧ t.getPane p.pid = some q ∧ t.ds = s.ds ∧ q.v = p.v ∧
      (if u.acc then q.mx.ta0 = p.mx.ta0 else q.mx.ta1 = p.mx.ta1) ∧
      q.mx.units = (if u.kind = .mmat ∧ u.step + 1 < u.k / u.fmt.depth then { u with step := u.step + 1 } :: rest else rest) ∧
      (∀ m n, m < 32 → n < 32 → ¬ updates m → tileAt q u m n = tileAt p u m n) ∧
      (∀ m n, n < 32 → updates m → m / 8 ∈ banks → tileAt q u m n = 0x7FFFC0DE) ∧
      (∀ m n, n < 32 → updates m → m / 8 ∉ banks → u.fmt.fmt ≠ 2 →
        (u.kind = .mma → u.fmt.depth = 16 → u.step = 0 → tileAt q u m n = mxFp (tileAt p u m n) u.sat
          ((List.range 16).map (own m)) ((List.range 16).map (fun k => fp (num (u.lay.addr (n * 16 + k)) 2)))) ∧
        (u.kind = .mmas → tileAt q u m n = mxFp (tileAt p u m n) u.sat
          (((List.range 16).filter (fun k => entry k != 0xFFFF)).map (own m))
          (((List.range 16).filter (fun k => entry k != 0xFFFF)).map (fun k => fp (num (u.lay.addr (n * u.k + entry k)) 2)))) ∧
        (u.kind = .mmat → tileAt q u m n = mxFp (tileAt p u m n) u.sat
          ((List.range 16).map (fun k => fp (num (u.layA.addr (m * u.k + 16 * u.step + k)) 2)))
          ((List.range 16).map (fun k => fp (num (u.lay.addr (n * u.k + 16 * u.step + k)) 2))))) ∧
      (∀ m n, n < 32 → updates m → m / 8 ∉ banks → u.fmt.fmt = 2 → u.kind = .mmat ∨ (u.kind = .mma ∧ u.step = 0) →
        let a := fun (j : Nat) => if u.kind = .mmat then planes (u.layA.addr (m * (u.k / 32) + 2 * u.step + j)) u.fmt.apl (bit u.fmt.word 9)
          else bpVals ((List.range u.fmt.apl).map (fun q => (u.aop.getD (j * u.fmt.apl + q) []).getD m 0)) (bit u.fmt.word 9)
        let b := fun (j : Nat) => planes (u.lay.addr (n * (depth / 32) + 2 * u.step + j)) u.fmt.bpl (bit u.fmt.word 10)
        tileAt q u m n = (mxBp (tileAt p u m n) u.sat u.fmt.la u.fmt.lb (a 0 ++ a 1) (b 0 ++ b 1)
          (scales u.fmt.ascl m u.fmt.la) (scales u.fmt.bscl n u.fmt.lb)).1) ∧
      ((∃ m, updates m ∧ m / 8 ∈ banks) → noted q 1))

/-- R60, R61, R69 to R73: the arithmetic of a step. Of finite elements and a finite accumulator an FP16 or BF16 step rounds once the exact sum of the
accumulator and the products; of a bit-plane step each block rounds once the exact sum of the accumulator and its scale product, where
that does not overflow, and the blocks come in ascending order. A plane's bit has its weight, and the midpoint is added. A NaN accumulator
keeps its pattern, poison too; a scale byte of 0xFF gives the default NaN; a zero block quantises to scale 127 and zeros, and a block
with a NaN or an infinity to scale 0xFF. -/
def Claim.MatrixArithmetic : Prop :=
  (∀ (acc : Word) (sat : Bool) (a b : List FNum) (x y : List Int) (la lb ea eb : Nat) (es fs : List Nat),
    (acc &&& 0x7FFFFFFF > 0x7F800000#32 → mxFp acc sat a b = acc ∧ (mxBp acc sat la lb x y es fs).1 = acc) ∧
    (acc &&& 0x7FFFFFFF ≤ 0x7F800000#32 → ea = 0xFF ∨ eb = 0xFF → (mxBlock acc sat ea eb x y).1 = 0x7FC00000) ∧
    ((∃ n ∈ a, n.isNan = true) → quantBlock a = (0xFF, a.map (fun _ => 0))) ∧
    ((∀ n ∈ a, ∃ sg g, n = .fin sg 0 g) → quantBlock a = (127, a.map (fun _ => 0)))) ∧
  (∀ (acc : Word) (sat : Bool) (f : Fmt) (xs ys : List Nat), f = F16 ∨ f = BF16 → xs.length = ys.length → xs ≠ [] →
    (∀ x ∈ xs, IsFinite f x) → (∀ y ∈ ys, IsFinite f y) → IsFinite F32 acc.toNat →
    let s : Int := 2 * (1 - (2 ^ (f.eb - 1) - 1 : Int) - f.fb)
    let e := min (-149) s
    let sum := (List.zipWith (fun x y => numOf f false x * numOf f false y) xs ys).sum
    let allNeg := bit acc 31 && (List.zipWith (fun x y => decide (numOf f false x * numOf f false y = 0) &&
      ((x / 2 ^ (f.eb + f.fb) + y / 2 ^ (f.eb + f.fb)) % 2 == 1)) xs ys).all id && decide (numOf F32 false acc.toNat = 0)
    ∃ r : Nat × Word, RoundedTo F32 .rn false allNeg (numOf F32 false acc.toNat * 2 ^ (-149 - e).toNat + sum * 2 ^ (s - e).toNat) e r ∧
      (mxFp acc sat (xs.map (unpack f false)) (ys.map (unpack f false))).toNat =
        if sat = true ∧ r.2 &&& fOF ≠ 0 then r.1 / 2 ^ 31 * 2 ^ 31 + F32.maxPat else r.1) ∧
  (∀ (acc : Word) (sat : Bool) (ea eb : Nat) (a b : List Int), ea < 255 → eb < 255 → a.length = b.length → IsFinite F32 acc.toNat →
    let dot := (List.zipWith (fun x y => x * y) a b).sum
    let s : Int := (ea : Int) + eb - 254
    let e := min (-149) s
    dot.natAbs * 2 ^ (ea + eb) < (2 ^ 25 - 1) * 2 ^ 357 →
    ∃ r : Nat × Word, RoundedTo F32 .rn false false (numOf F32 false acc.toNat * 2 ^ (-149 - e).toNat + dot * 2 ^ (s - e).toNat) e r ∧
      (mxBlock acc sat ea eb a b).2 = false ∧
      (mxBlock acc sat ea eb a b).1.toNat = if sat = true ∧ r.2 &&& fOF ≠ 0 then r.1 / 2 ^ 31 * 2 ^ 31 + F32.maxPat else r.1) ∧
  (∀ (acc : Word) (sat : Bool) (a b : List Int) (ea eb : List Nat), a.length = 64 → b.length = 64 →
    (let x := mxBlock acc sat (ea.getD 0 0xFF) (eb.getD 0 0xFF) (a.take 32) (b.take 32)
     let y := mxBlock x.1 sat (ea.getD 1 0xFF) (eb.getD 1 0xFF) (a.drop 32) (b.drop 32)
     mxBp acc sat 32 32 a b ea eb = (y.1, x.2 || y.2)) ∧
    (let x := mxBlock acc sat (ea.getD 0 0xFF) (eb.getD 0 0xFF) (a.take 16) (b.take 16)
     let y := mxBlock x.1 sat (ea.getD 1 0xFF) (eb.getD 0 0xFF) ((a.drop 16).take 16) ((b.drop 16).take 16)
     let z := mxBlock y.1 sat (ea.getD 2 0xFF) (eb.getD 1 0xFF) ((a.drop 32).take 16) ((b.drop 32).take 16)
     let w := mxBlock z.1 sat (ea.getD 3 0xFF) (eb.getD 1 0xFF) (a.drop 48) (b.drop 48)
     mxBp acc sat 16 32 a b ea eb = (w.1, x.2 || y.2 || z.2 || w.2))) ∧
  (∀ (planes : List Word) (mid : Bool) (i : Nat), 2 ≤ planes.length → planes.length ≤ 8 → i < 32 →
    bpVal planes mid i = ((List.range planes.length).map (fun k => if bit (planes.getD k 0) i then
        (if k = 0 then -128 else (2 ^ (7 - k) : Int)) else 0)).sum +
      (if mid = true ∧ planes.length < 8 then 2 ^ (7 - planes.length) else 0))

/-- R194 to R197: the single operations of a unit that is not in error. MXRD copies eight columns into the rows of its mask,
or nothing with W = 1; MXCLR clears the rows of its mask; MXST stores each element of those rows at its unit's address; MXQ
leaves a row's eight planes at its unit's address. What they do not name is as before. -/
def Claim.MatrixOperations : Prop :=
  ∀ (s : State) (core e : Nat) (p : Pane) (u : MUnit) (rest : List MUnit),
    EngineHas s core e p u rest → u.bad = 0 →
    (u.kind = .mxrd → ∃ t q, exec (.mxrdUnit core e) s = .next t ∧ t.getPane p.pid = some q ∧ q.mx.units = rest ∧ t.ds = s.ds ∧
      q.mx.ta0 = p.mx.ta0 ∧ q.mx.ta1 = p.mx.ta1 ∧ q.y0 = p.y0 ∧ q.y1 = p.y1 ∧
      ∀ n m, n < p.v.length → m < 32 → q.vreg n m =
        if u.w = false ∧ u.d ≤ n ∧ n < u.d + 8 ∧ bit u.xm m = true then tileAt p u m (8 * u.g + (n - u.d)) else p.vreg n m) ∧
    (u.kind = .mxclr → ∃ t q, exec (.mxclrUnit core e) s = .next t ∧ t.getPane p.pid = some q ∧ q.mx.units = rest ∧ t.ds = s.ds ∧
      q.v = p.v ∧ (if u.acc then q.mx.ta0 = p.mx.ta0 else q.mx.ta1 = p.mx.ta1) ∧
      ∀ m n, m < 32 → n < 32 → tileAt q u m n = if bit u.xm m = true then 0 else tileAt p u m n) ∧
    (u.kind = .mxst → ∃ t q, exec (.mxstUnit core e) s = .next t ∧ t.getPane p.pid = some q ∧ q.mx.units = rest ∧ q.v = p.v ∧
      q.mx.ta0 = p.mx.ta0 ∧ q.mx.ta1 = p.mx.ta1 ∧
      (∀ x, (∀ k, k < 1024 → bit u.xm (k / 32) = true →
          x < s.spds p + (u.lay.addr k).toNat ∨ s.spds p + (u.lay.addr k).toNat + 4 ≤ x) → t.ds.read x = s.ds.read x) ∧
      ∀ k, k < 1024 → bit u.xm (k / 32) = true →
        (∀ j, k < j → j < 1024 → bit u.xm (j / 32) = true →
          (u.lay.addr j).toNat + 4 ≤ (u.lay.addr k).toNat ∨ (u.lay.addr k).toNat + 4 ≤ (u.lay.addr j).toNat) →
        Mem.readN t.ds (s.spds p + (u.lay.addr k).toNat) 4 = toBytes 4 (tileAt p u (k / 32) (k % 32)).toNat) ∧
    (u.kind = .mxq → ∃ t q, exec (.mxqUnit core e) s = .next t ∧ t.getPane p.pid = some q ∧ q.mx.units = rest ∧ q.v = p.v ∧
      q.mx.ta0 = p.mx.ta0 ∧ q.mx.ta1 = p.mx.ta1 ∧
      (∀ x, (∀ L, L < 32 → bit u.xm L = true →
          (x < s.spds p + (u.lay.addr L).toNat ∨ s.spds p + (u.lay.addr L).toNat + 32 ≤ x) ∧
          (x < s.spds p + u.fmt.ascl + L * (32 / u.fmt.la) ∨ s.spds p + u.fmt.ascl + (L + 1) * (32 / u.fmt.la) ≤ x)) →
        t.ds.read x = s.ds.read x) ∧
      ∀ L, L < 32 → u.xm = 1#32 <<< L → Mem.readN t.ds (s.spds p + (u.lay.addr L).toNat) 32 =
        ((planesOf (quantRow u L).2).map (fun w => toBytes 4 w.toNat)).flatten)

/-- R198, R199, R200: MXFENCE on a pending batch does not issue; else the open units become the batch's, which is pending and
completes at once where nothing is left to run. WAITMB waits for its batches and completes where all are OK; else it raises the
matrix-error trap with the lowest-numbered one's detail word. -/
def Claim.MatrixBatches : Prop :=
  ∀ (s : State) (mask : BitVec 8),
    let p := s.pane
    let m := p.mx
    let n := m.next.toNat
    m.batches.length = 8 → m.errs.length = 8 →
    ((m.batches.getD n {}).pending = true → exec .mxfence s = .next (held s)) ∧
    ((m.batches.getD n {}).pending = false → m.marked = false →
      ∃ t, exec .mxfence s = .next t ∧ t = { s with pane := { p with mx := t.pane.mx } } ∧ t.pane.mx.next = m.next + 1 ∧
        t.pane.mx.openN = 0 ∧ t.pane.mx.units.length = m.units.length ∧ (∀ u ∈ t.pane.mx.units, u.batch.isSome = true) ∧
        ((∃ u ∈ m.units, u.batch = none) → (t.pane.mx.batches.getD n {}).pending = true) ∧
        (m.units = [] → m.order = [] → m.openErr.lost = false → m.openErr.kind = 0 → t.pane.mx.batches.getD n {} = {}) ∧
        (m.units = [] → m.order = [] → m.openErr.lost = false → m.openErr.kind ≠ 0 →
          (t.pane.mx.batches.getD n {}).status = .mxerr ∧ (t.pane.mx.batches.getD n {}).kind = m.openErr.kind)) ∧
    ((p.wait ≠ .begun ∨ ∃ b, b < 8 ∧ mask.getLsbD b = true ∧ (m.batches.getD b {}).pending = true) →
      exec (.waitmb mask) s = .next { s with issue := .ended, pane := { p with wait := .begun } }) ∧
    (p.wait = .begun → (∀ b, b < 8 → mask.getLsbD b = true →
        (m.batches.getD b {}).pending = false ∧ (m.batches.getD b {}).status = .ok) →
      exec (.waitmb mask) s = .next { s with pane := { p with wait := .none } }) ∧
    (∀ b, p.wait = .begun → b < 8 → mask.getLsbD b = true →
      (∀ c, c < 8 → mask.getLsbD c = true → (m.batches.getD c {}).pending = false) → (m.batches.getD b {}).status ≠ .ok →
      (∀ c, c < b → mask.getLsbD c = true → (m.batches.getD c {}).status = .ok) →
      exec (.waitmb mask) s = .next (takeTrap 0x0B (BitVec.ofNat 32 ((m.batches.getD b {}).banks * 1024 +
        (m.batches.getD b {}).accs * 256 + (m.batches.getD b {}).kind * 32 + b)) s))

/-- R205, R206, R391: a hung engine runs no step and no operation of any kind; the watchdog marks an engine that has a unit to run, on a frozen die
as well, and its pane keeps its tiles; MXRST ends the hang, poisons both tiles of every pane
whose tile set the engine holds and discards its units and its collector; the other engine's panes are as before. -/
def Obligations.MatrixHangAndReset : Prop :=
  ∀ (s : State) (core e : Nat) (p : Pane),
    (((s.core core).engs.getD e {}).hung = true →
      (∀ b, exec (.matrixTileStep core e b) s = .next s) ∧
      exec (.mxrdUnit core e) s = .next s ∧ exec (.mxqUnit core e) s = .next s ∧ exec (.mxstUnit core e) s = .next s ∧
      exec (.mxclrUnit core e) s = .next s ∧ exec (.matrixWatchdog core e) s = .next s) ∧
    (s.mxUp core e = some p → s.getPane p.pid = some p → e < (s.core core).engs.length →
      ∃ t, exec (.matrixWatchdog core e) s = .next t ∧ ((t.core core).engs.getD e {}).hung = true ∧
        t.getPane p.pid = some p ∧ t.ds = s.ds) ∧
    (e < 2 → (s.core core).engs.length = 2 → s.getPane p.pid = some p →
      (∀ a b, a ∈ s.allPanes → b ∈ s.allPanes → a.pid = b.pid → a = b) → p ∈ s.allPanes →
      ∃ t q, exec (.mxrst core e) s = .next t ∧ ((t.core core).engs.getD e {}).hung = false ∧ t.ds = s.ds ∧
        t.getPane p.pid = some q ∧ q.v = p.v ∧ q.s = p.s ∧
        (p.core = core → p.place.live = true → p.restoring = false → p.mx.tileSet = some e →
          (∀ m n, m < 32 → n < 32 → (q.mx.ta0.getD m []).getD n 0 = 0x7FFFC0DE ∧ (q.mx.ta1.getD m []).getD n 0 = 0x7FFFC0DE) ∧
          q.mx.units = [] ∧ q.mx.coll = none) ∧
        (p.mx.tileSet ≠ some e → q = p))

/-! ### The die engines (R219 to R233) -/

/-- The descriptor's capability register: 0 CD, 1 CS, 2 CI, 3 CX (R222). -/
def descCap (p : Pane) (a : Fin 57) (k : Nat) : Nat := (p.sreg a.val).toNat / 2 ^ (5 * k) % 32

/-- Word k of the descriptor. -/
def descWord (p : Pane) (a : Fin 57) (k : Nat) : Nat := (p.sreg (a.val + k)).toNat

/-- A capability of a descriptor is tagged, of the partition's key, has the rights and is not pending; the offset is aligned and
`size` bytes from it lie inside (R223). -/
def UseFits (p : Pane) (a : Fin 57) (k : Nat) (need : BitVec 8) (w al size : Nat) : Prop :=
  let c := p.creg (descCap p a k)
  bit p.cPend (descCap p a k) = false ∧ c.tag = true ∧ c.key = p.part ∧ need &&& ~~~c.rights = 0 ∧
    descWord p a w % al = 0 ∧ descWord p a w + size ≤ c.len

/-- R221 to R225, R228, R238: a die engine word whose descriptor is well formed and whose capabilities serve joins its block with its
captured operands: the counter rises and the status pair is pending. With N = 0 it completes at once: its status pair is that of code 0, and
neither its block nor its counter changes. A fence, a full block or a counter at 255 holds it; a reserved descriptor bit, N above
16,777,215 or an untagged CD traps. A word that joins changes neither XM nor the registers. That CHAIN checks its stream capability by what
its record holds at issue is the model's choice (log entry 34). -/
def Obligations.EngineWords : Prop :=
  ∀ (s : State) (d : Option (Fin 63)) (a : Fin 57) (b : SOpt) (ac : Fin 16) (z : Fin 13) (st : Bool) (red : Option AOp)
    (fo fi : ChFmt),
    let p := s.pane
    let die := p.core / 24
    let k := p.core % 24 / 6
    let n := (countOf p b)
    let e := 2 ^ z.val
    let al := 2 ^ min z.val 4
    let si := if fi = .f32 then 4 else 2
    let so := if fo = .f32 then 4 else 2
    let ws : List Instr := [.cpy d a b ac z st, .gath d a b ac z st, .scat d a b ac z st red, .route d a b ac z st,
      .chain d a b ac fo fi st]
    let good := n ≤ 16777215 ∧ (p.sreg a.val).toNat / 2 ^ 20 = 0 ∧ descWord p a 7 = 0
    let free := good ∧ (s.blk die k).cmds.length < 64 ∧ p.ac.getD ac.val 0 ≠ 255
    let room := free ∧ n ≠ 0 ∧ k < (s.die die).blks.length ∧ p.ac.length = 16
    let ended := fun (i : Instr) => free → n = 0 → ∃ t, exec i s = .next t ∧
      t = { s with pane := { p with s := t.pane.s, sPend := t.pane.sPend } } ∧ (d = none → t = s) ∧
      ∀ r, d = some r → r.val + 1 < p.s.length → t.pane.sreg r.val = 0 ∧ t.pane.sreg (r.val + 1) = 0xFFFFFFFF ∧
        ∀ j, j < p.s.length → j ≠ r.val → j ≠ r.val + 1 → t.pane.sreg j = p.sreg j
    let joined := fun (t : State) (c : ECmd) (i : Instr) =>
      (t.blk die k).cmds = (s.blk die k).cmds ++ [c] ∧ c.n = n ∧ c.cmd.i = i ∧ c.running = false ∧
        c.cmd.mark = s.nextRid ∧ c.cmd.pid = p.pid ∧ (∀ j, j < 4 → c.cap j = p.creg (descCap p a j)) ∧
        (∀ j, j < 8 → c.word j = descWord p a j) ∧ t.nextRid = s.nextRid + 1 ∧ t.issue = s.issue ∧ t.dm = s.dm ∧
        t.pane.ac.getD ac.val 0 = p.ac.getD ac.val 0 + 1 ∧ t.pane.s = p.s ∧ t.pane.v = p.v ∧ t.pane.xstat = p.xstat ∧
        t.pane.xm = p.xm ∧ (∀ r, d = some r → t.pane.sPend.getLsbD r.val = true ∧ t.pane.sPend.getLsbD (r.val + 1) = true) ∧
        (d = none → t.pane.sPend = p.sPend)
    let stops := fun (i : Instr) =>
      (good → 64 ≤ (s.blk die k).cmds.length ∨ p.ac.getD ac.val 0 = 255 → exec i s = .next (held s)) ∧
      (¬ good → exec i s = .next (takeTrap 0x03 s.word s)) ∧ ended i
    (s.memMayIssue = false → ∀ i ∈ ws, exec i s = .next (held s)) ∧
    (s.memMayIssue = true → good → (∀ j, j < 4 → bit p.cPend (descCap p a j) = false) → (p.creg (descCap p a 0)).tag = false →
      ∀ i ∈ ws, exec i s = .next (takeTrap 0x07 (BitVec.ofNat 32 (descCap p a 0 * 32)) s)) ∧
    (s.memMayIssue = true →
      (UseFits p a 0 2 1 al (n * e) → UseFits p a 1 1 2 al (n * e) → stops (.cpy d a b ac z st) ∧
        (room → ∃ t c, exec (.cpy d a b ac z st) s = .next t ∧ joined t c (.cpy d a b ac z st))) ∧
      (UseFits p a 0 2 1 al (n * e) → UseFits p a 1 1 2 al 0 → UseFits p a 2 1 3 4 (4 * n) → stops (.gath d a b ac z st) ∧
        (room → ∃ t c, exec (.gath d a b ac z st) s = .next t ∧ joined t c (.gath d a b ac z st))) ∧
      (UseFits p a 0 (if red = none then 2 else 16) 1 al 0 → UseFits p a 1 1 2 al (n * e) → UseFits p a 2 1 3 4 (4 * n) →
        stops (.scat d a b ac z st red) ∧
        (room → ∃ t c, exec (.scat d a b ac z st red) s = .next t ∧ joined t c (.scat d a b ac z st red))) ∧
      (UseFits p a 0 2 1 al 0 → UseFits p a 1 1 2 al 0 → UseFits p a 2 3 3 4 (4 * n) → UseFits p a 3 9 4 4 (4 * (descWord p a 5 + 1)) →
        stops (.route d a b ac z st) ∧ (room → ∃ t c, exec (.route d a b ac z st) s = .next t ∧ joined t c (.route d a b ac z st))) ∧
      (UseFits p a 0 2 1 so (n * so) → UseFits p a 1 1 2 si (n * si) → UseFits p a 2 1 3 64 64 → UseFits p a 3 1 4 si (n * si) →
        stops (.chain d a b ac fo fi st) ∧
        (room → ∃ t c, exec (.chain d a b ac fo fi st) s = .next t ∧ joined t c (.chain d a b ac fo fi st))))

/-- A block that works, with a command of it (R228, R232). -/
def BlockHas (s : State) (die b : Nat) (c : ECmd) : Prop :=
  (s.blk die b).cmds = [c] ∧ (s.blk die b).hung = false ∧ (s.die die).frozen = false ∧ b < (s.die die).blks.length

/-- One element of a command is left to perform, and nothing of it waits. -/
def LastElement (s : State) (die b : Nat) (c : ECmd) : Prop :=
  BlockHas s die b c ∧ s.engParked c = false ∧ s.engReplay c = none ∧ c.running = true ∧ c.code = 0 ∧ c.n = 1 ∧ c.waiting = [] ∧
  c.ready = [] ∧ c.failed = [] ∧ c.ahead = [] ∧ c.bad = false ∧ s.engCost c - c.paid ≤ Tab.getD s.buckets (1536 + die * 4 + b) 0

/-- A chunk of the command leaves the command as `c'`, and device memory as it is in `v`. -/
def ChunkGives (s v : State) (die b : Nat) (c c' : ECmd) : Prop :=
  (v.die die).blks = (s.die die).blks →
    ∃ t, exec (.engineChunk die b ⟨c.cmd.id, false⟩) s = .next t ∧ (t.blk die b).cmds = [{ c' with paid := 0 }] ∧ t.dm = v.dm

/-- R224, R226 to R229: a command starts once its fork condition holds, a ROUTE with E * C of 2^31 or more, a CHAIN with an invalid
record or one whose record cannot be read (log entry 34) with code 2. A command that is done, or has no element, writes its status
pair, lowers its counter and leaves; its code is 1 where an element failed, and then the error flag is set. -/
def Claim.EngineProgress : Prop :=
  ∀ (s : State) (die b : Nat) (c : ECmd), BlockHas s die b c → s.engParked c = false → s.engReplay c = none →
    (c.running = false → c.n ≠ 0 → s.quiet c.cmd.pid c.cmd.mark = true →
      let starts := fun (u : State) (c' : ECmd) =>
        ∃ t, exec (.engineCommandStart die b) s = .next t ∧ (t.blk die b).cmds = [c'] ∧ t.dm = u.dm
      ((∃ d a n k z st, c.cmd.i = .cpy d a n k z st ∨ c.cmd.i = .gath d a n k z st ∨ ∃ r, c.cmd.i = .scat d a n k z st r) →
        starts s { c with running := true }) ∧
      (∀ d a n k z st, c.cmd.i = .route d a n k z st →
        (1 ≤ c.word 5 → c.word 5 ≤ 65536 → 1 ≤ c.word 6 → c.word 5 * c.word 6 < 2 ^ 31 → starts s { c with running := true }) ∧
        (2 ^ 31 ≤ c.word 5 * c.word 6 → starts s { c with running := true, code := 2 })) ∧
      (∀ d a n k o f st u, c.cmd.i = .chain d a n k o f st → (u.die die).blks = (s.die die).blks →
        (∀ x, s.engRecord c = (u, .ok x) →
          let rec' := (List.range 16).map (fun j => BitVec.ofNat 32 (ofBytes ((x.drop (4 * j)).take 4)))
          (chainOk rec' = true → chainStream rec' = false → starts u { c with running := true, record := rec' }) ∧
          (chainOk rec' = false → starts u { c with running := true, code := 2 })) ∧
        (∀ e, s.engRecord c = (u, .fail e) → starts u { c with running := true, code := 2 }))) ∧
    (∀ d k, engDst c.cmd.i = some d → c.cmd.ac = some k →
      (c.running = true ∧ c.n ≤ c.next ∧ (c.isRoute = true → c.n ≤ c.sent)) ∨ c.n = 0 → c.code = 0 →
      c.waiting = [] → c.ready = [] → s.pane.pid = c.cmd.pid → s.pane.place.live = true → d + 1 < s.pane.s.length →
      k.val < s.pane.ac.length → c.failed.length < 2 ^ 24 →
      ∃ t, exec (.engineCommandComplete die b c.cmd.id) s = .next t ∧ (t.blk die b).cmds = [] ∧
        t.pane.ac.getD k.val 0 = s.pane.ac.getD k.val 0 - 1 ∧
        (c.failed = [] → t.pane.sreg d = 0 ∧ t.pane.sreg (d + 1) = 0xFFFFFFFF ∧ t.pane.acEng = s.pane.acEng) ∧
        (∀ i, i ∈ c.failed → (∀ j ∈ c.failed, i ≤ j) → i < 2 ^ 32 →
          t.pane.sreg d = BitVec.ofNat 32 (2 ^ 28 + c.failed.length) ∧ t.pane.sreg (d + 1) = BitVec.ofNat 32 i ∧
          t.pane.acEng.getLsbD k.val = true))

/-- R224 to R227, R229, R359: the chunk of one element, once its port is paid. CPY moves it; GATH reads it at its index, or writes
zeros for 0xFFFF_FFFF; SCAT writes it, or performs its operation, at its index; ROUTE admits its token to the row that the
expert's count gives, or to a residual row where the expert is full, and copies the row in its second phase; CHAIN writes the chain of its
value. An element whose read is refused or poisoned is recorded as failed, one whose page is absent waits on a page request. -/
def Claim.EngineChunks : Prop :=
  ∀ (s : State) (die b : Nat) (c : ECmd), LastElement s die b c →
    let put := fun (u : State) (off : Nat) (x : List Byte) (op : Option AOp) (c' : ECmd) =>
      ∀ v, u.engWrite c [0] off x op = (v, .ok ()) → ChunkGives s v die b c c'
    let passed := { c with next := 1 }
    (∀ d a n k z st u, c.cmd.i = .cpy d a n k z st → c.next = 0 →
      (∀ x, s.engRead c 1 (c.word 2) (2 ^ z.val) = (u, .ok x) → put u (c.word 1) x none passed) ∧
      (s.engRead c 1 (c.word 2) (2 ^ z.val) = (u, .fail) → ChunkGives s u die b c { passed with failed := [0] }) ∧
      (∀ o g v tag, s.engRead c 1 (c.word 2) (2 ^ z.val) = (u, .absent o [g]) →
        u.sendPage c.cmd.part o g (.blk c.cmd.die (clusterOf c.cmd.core)) = (v, some tag) →
        ChunkGives s v die b c { passed with waiting := [(0, tag)] })) ∧
    (∀ d a n k z st u x, c.cmd.i = .gath d a n k z st → c.next = 0 → s.engRead c 2 (c.word 3) 4 = (u, .ok x) →
      (ofBytes x = 0xFFFFFFFF → put u (c.word 1) (List.replicate (2 ^ z.val) 0) none passed) ∧
      (∀ v y, ofBytes x ≠ 0xFFFFFFFF → u.engRead c 1 (c.word 2 + ofBytes x * 2 ^ z.val) (2 ^ z.val) = (v, .ok y) →
        put v (c.word 1) y none passed)) ∧
    (∀ d a n k z st red u x, c.cmd.i = .scat d a n k z st red → c.next = 0 → s.engRead c 2 (c.word 3) 4 = (u, .ok x) →
      (ofBytes x = 0xFFFFFFFF → ChunkGives s u die b c passed) ∧
      (∀ v y, ofBytes x ≠ 0xFFFFFFFF → u.engRead c 1 (c.word 2) (2 ^ z.val) = (v, .ok y) →
        put v (c.word 1 + ofBytes x * 2 ^ z.val) (if red.isSome then toBytes 4 (BitVec.ofNat 32 (ofBytes y)).toNat else y) red passed)) ∧
    (∀ d a n k z st, c.cmd.i = .route d a n k z st →
      let count := fun (f : Nat → Option Nat) (old : List Byte) => (f (ofBytes old)).map (toBytes 4)
      let E := c.word 5
      let C := c.word 6
      let room := fun n => if n < C then some (n + 1) else none
      let beyond := fun n => some (n + 1)
      (∀ u x, c.next = 0 → c.routes = [] → s.engRead c 2 (c.word 3) 4 = (u, .ok x) →
        let e := ofBytes x
        (e = 0xFFFFFFFF → ChunkGives s u die b c passed) ∧
        (e ≠ 0xFFFFFFFF → E ≤ e → ChunkGives s u die b c { passed with failed := [0] }) ∧
        (∀ v w n, e ≠ 0xFFFFFFFF → e < E → u.engOp c 3 (c.word 4 + 4 * e) (count room) = (v, .ok n) → n < C →
          v.engIdxPut c 0 (e * C + n) = (w, .ok ()) → ChunkGives s w die b c { passed with routes := [(0, e * C + n)] }) ∧
        (∀ v w y n r, e ≠ 0xFFFFFFFF → e < E → u.engOp c 3 (c.word 4 + 4 * e) (count room) = (v, .ok n) → C ≤ n →
          v.engOp c 3 (c.word 4 + 4 * E) (count beyond) = (w, .ok r) →
          w.engIdxPut c 0 (2 ^ 31 + r) = (y, .ok ()) → ChunkGives s y die b c { passed with routes := [(0, E * C + r)] })) ∧
      (∀ u x row, c.next = 1 → c.sent = 0 → c.routes = [(0, row)] → s.engRead c 1 (c.word 2) (2 ^ z.val) = (u, .ok x) →
        put u (c.word 1 + row * 2 ^ z.val) x none { c with sent := 1 })) ∧
    (∀ d a n k o f st u x, c.cmd.i = .chain d a n k o f st → c.next = 0 → c.inPlace = false →
      s.engRead c 1 (c.word 2) (ChFmt.size f) = (u, .ok x) →
      (chainStream c.record = false → put u (c.word 1) (chainOut o (chainVal c.record (chainIn f x) 0)) none passed) ∧
      (∀ v y, chainStream c.record = true → u.engRead c 3 (c.word 4) (ChFmt.size f) = (v, .ok y) →
        put v (c.word 1) (chainOut o (chainVal c.record (chainIn f x) (chainIn f y))) none passed))

/-- R227: a chain without an operation gives its element; the operations come in turn, each on the last result with the
constant of its place or the stream's element, and END stops them; a code past 12 or a reserved bit makes a record invalid. -/
def Claim.ChainRules : Prop :=
  (∀ (r : List Word) (x y : Word),
    let code := fun k => (r.getD k 0).toNat % 256
    let operand := fun k => if bit (r.getD k 0) 8 then y else r.getD (8 + k) 0
    (code 0 = 0 → chainVal r x y = x) ∧
    (code 0 ≠ 0 → code 1 = 0 → chainVal r x y = chainOp (code 0) x (operand 0)) ∧
    (code 0 ≠ 0 → code 1 ≠ 0 → code 2 = 0 → chainVal r x y = chainOp (code 1) (chainOp (code 0) x (operand 0)) (operand 1))) ∧
  (∀ (r : List Word) (k : Nat), r.length = 16 → k < 8 → 12 < (r.getD k 0).toNat % 256 ∨ 512 ≤ (r.getD k 0).toNat → chainOk r = false) ∧
  (∀ x y : Word, chainOp 1 x y = (faddVal false .rn x y).1 ∧ chainOp 2 x y = (fmulVal false .rn x y).1 ∧
    chainOp 3 x y = (fminmaxVal false true x y).1 ∧ chainOp 4 x y = (fminmaxVal false false x y).1) ∧
  (∀ b : List Byte, chainOut .f32 (chainIn .f32 b) = toBytes 4 (ofBytes b % 2 ^ 32))

/-- R231, R232, R388: a hung block starts, runs and completes nothing, and a record names it; its reset ends every command with code 3 and the hang
(HUNG is cleared by RESET: log entry 99): the status pair, the counter and the error flag are those of that code.
A failed die link and a failed mesh stop are recorded; a reset of the stop lets it serve again. -/
def Claim.EngineAndPathFaults : Prop :=
  ∀ (s : State) (die b k : Nat) (c : ECmd),
    ((s.blk die b).hung = true → (∀ turn, exec (.engineChunk die b turn) s = .next s) ∧ exec (.engineCommandStart die b) s = .next s ∧
      exec (.engineCommandComplete die b k) s = .next s) ∧
    (BlockHas s die b c → c.waiting = [] → c.ready = [] →
      ∃ t r, exec (.engineBlockHang die b) s = .next t ∧ (t.blk die b).hung = true ∧ t.records = s.records ++ [r] ∧ r.typ = 0x06 ∧
        r.source = die) ∧
    (b < (s.die die).blks.length →
      ∃ t, exec (.engstatReset die b) s = .next t ∧ (t.blk die b).cmds = [] ∧ (t.blk die b).hung = false ∧ t.dm = s.dm) ∧
    (∀ d ac, (s.blk die b).cmds = [c] → b < (s.die die).blks.length → engDst c.cmd.i = some d → c.cmd.ac = some ac →
      s.pane.pid = c.cmd.pid → s.pane.place.live = true → d + 1 < s.pane.s.length → ac.val < s.pane.ac.length → c.failed.length < 2 ^ 24 →
      ∃ t, exec (.engstatReset die b) s = .next t ∧ t.pane.sreg d = BitVec.ofNat 32 (3 * 2 ^ 28 + c.failed.length) ∧
        (c.failed = [] → t.pane.sreg (d + 1) = 0xFFFFFFFF) ∧
        (∀ i, i ∈ c.failed → (∀ j ∈ c.failed, i ≤ j) → t.pane.sreg (d + 1) = BitVec.ofNat 32 i) ∧
        t.pane.ac.getD ac.val 0 = s.pane.ac.getD ac.val 0 - 1 ∧ t.pane.acEng.getLsbD ac.val = true) ∧
    ((s.die die).links.contains k = false →
      ∃ t r, exec (.dieLinkFailure die k) s = .next t ∧ (t.die die).links = (s.die die).links ++ [k] ∧
        t.records = s.records ++ [r] ∧ r.typ = 0x07 ∧ t.dm = s.dm) ∧
    (b < 4 → (s.die die).cls.length = 4 → (s.cluster (4 * die + b)).failed = false →
      (∃ t r, exec (.meshFlitFailure die ⟨b, none⟩) s = .next t ∧ (t.cluster (4 * die + b)).failed = true ∧
        (t.cluster (4 * die + b)).retry = min ((s.cluster (4 * die + b)).retry + 4) 0xFFFFFFFF ∧
        t.records = s.records ++ [r] ∧ r.typ = 0x07 ∧ r.source = die) ∧
      ∀ j, ∃ t, exec (.meshFlitFailure die ⟨b, some j⟩) s = .next t ∧ (t.cluster (4 * die + b)).failed = false ∧
        (t.cluster (4 * die + b)).retry = min ((s.cluster (4 * die + b)).retry + (j.val + 1)) 0xFFFFFFFF ∧
        t.records = s.records) ∧
    (b < 4 → (s.die die).cls.length = 4 →
      ∃ t, exec (.clstatReset die b) s = .next t ∧ (t.cluster (4 * die + b)).failed = false ∧ t.dm = s.dm)

/-! ### Requests under way (R165 to R180, R219, R220, R230, R244, R261, R262, R277 to R280, R388) -/

/-- A request of the table, under its own number, that has not been cancelled and whose pane has not exited. -/
def Open (s : State) (r : Req) : Prop := Tab.find s.reqs r.rid = some r ∧ r.cancelled = false ∧ r.exited = false

/-- The word of a register k of a reply (R165, R177): poison in a failed lane; the bytes read, extended for .B and .H. -/
def ReplyIs (r : Req) (l : Lane) (k : Nat) (x : Word) : Prop :=
  ((∃ c, l.stage = .failed c) → x = 0x7FFFC0DE) ∧
  (l.stage = .landed → r.kind = .load → r.size = 1 → r.sx = true →
    x = (BitVec.ofNat 8 (ofBytes ((l.got.drop (4 * k)).take 4))).signExtend 32) ∧
  (l.stage = .landed → r.kind = .load → r.size = 2 → r.sx = true →
    x = (BitVec.ofNat 16 (ofBytes ((l.got.drop (4 * k)).take 4))).signExtend 32) ∧
  (l.stage = .landed → r.kind ≠ .load ∨ 4 ≤ r.size ∨ r.sx = false → x = BitVec.ofNat 32 (ofBytes ((l.got.drop (4 * k)).take 4)))

/-- R165, R168, R175, R177: a reply whose lanes are all over writes its registers in its lanes alone, lowers its counter, sets
the counter's error flag where a lane failed, and the request is gone. CLD's reply loads its capability register, null where it
failed, with the tag only where the granule and the word give it (R160). No memory changes. -/
def Obligations.MemoryReplies : Prop :=
  ∀ (s : State) (r : Req) (p : Pane),
    Open s r → s.getPane r.pid = some p → p.pid = r.pid → (∀ l ∈ r.lanes, l.stage = .landed ∨ ∃ c, l.stage = .failed c) →
    (∀ a ∈ r.lanes, ∀ b ∈ r.lanes, a.lane = b.lane → a = b) →
    (∀ d, r.kind = .load ∨ (r.kind = .atomic ∧ s.replyHeld r = false) ∨ r.kind = .tex ∨ r.kind = .hgrid ∨ r.kind = .posrd →
      r.d = some d → ∃ t q, exec (.memoryReply r.rid) s = .next t ∧ t.getPane r.pid = some q ∧ t.dm = s.dm ∧ t.ds = s.ds ∧
        Tab.find t.reqs r.rid = none ∧
        (∀ n, n < p.v.length → (n < d ∨ d + r.regs ≤ n) → ∀ L, L < 32 → q.vreg n L = p.vreg n L) ∧
        (∀ n L, n < p.v.length → L < 32 → (∀ l ∈ r.lanes, l.lane ≠ L) → q.vreg n L = p.vreg n L) ∧
        (∀ l ∈ r.lanes, l.lane < 32 → ∀ k, k < r.regs → d + k < p.v.length → ReplyIs r l k (q.vreg (d + k) l.lane)) ∧
        q.s = p.s ∧ q.p = p.p ∧ q.c = p.c ∧ q.y0 = p.y0 ∧
        (∀ k, r.ac = some k → k.val < p.ac.length → q.ac.getD k.val 0 = p.ac.getD k.val 0 - 1 ∧
          (q.acData.getLsbD k.val = true ↔ p.acData.getLsbD k.val = true ∨ ∃ l ∈ r.lanes, ∃ c, l.stage = .failed c))) ∧
    (∀ l d, r.kind = .cld → r.lanes = [l] → r.d = some d → d < p.c.length → d < 32 →
      ∃ t q, exec (.cldReply r.rid) s = .next t ∧ t.getPane r.pid = some q ∧ t.dm = s.dm ∧ Tab.find t.reqs r.rid = none ∧
        q.creg d = (if l.stage = .landed then ⟨l.gotTag && r.tag, BitVec.ofNat 128 (ofBytes l.got)⟩ else {}) ∧
        bit q.cPend d = false ∧ q.v = p.v ∧
        (∀ k, r.ac = some k → k.val < p.ac.length → q.ac.getD k.val 0 = p.ac.getD k.val 0 - 1))

/-- The only lane of a request. -/
def OneLane (r : Req) (l : Lane) : Prop := r.lanes = [l] ∧ r.left = true

/-- R171, R175, R219, R220, R230, R232, R388: at the port one lane of a load is translated, refused, or held with a page request; it
lands from a line the die holds, over a failed link too, which an uncorrectable error discards, counted, reported and read again from
its home; one of a line the die does not hold is refused where its home lies behind a failed link. A store's is stamped when it is
accepted: its counter falls, its write goes to its home and to the apply queues, and no byte has changed. The answer of a page
request's PASID and PRG index lets the held lanes go on or fails them; without one the entry stays and is reported. -/
def Claim.MemoryPort : Prop :=
  ∀ (s : State) (r : Req) (l : Lane) (o : Obj), Open s r → OneLane r l →
    let die := r.core / 24
    (r.kind = .load → r.space = .dm → r.op ≠ 0x7F → l.stage = .issued → s.stopFailed r.core = false → s.blocked r l = false →
      s.lookupObj die r.part r.obj = (s, some o) →
      (s.transObj o r.part 0 l.addr = .refused →
        ∃ t, exec (.memoryPortAccess ⟨r.rid, false⟩) s = .next t ∧
          Tab.find t.reqs r.rid = some { r with lanes := [{ l with stage := .failed .refused }] } ∧ t.dm = s.dm) ∧
      (∀ pa, s.transObj o r.part 0 l.addr = .ok pa false → s.parkedHere r l = false →
        (∀ e, o.ext (l.addr - o.vbase) = some e → s.dupRead die r.part r.obj o e (l.addr - o.vbase) pa = none) →
        ∃ t, exec (.memoryPortAccess ⟨r.rid, false⟩) s = .next t ∧
          Tab.find t.reqs r.rid = some { r with lanes := [{ l with stage := .ported pa false false }] } ∧ t.dm = s.dm) ∧
      (∀ e, s.transObj o r.part 0 l.addr = .absent e → l.again = true →
        ∃ t, exec (.memoryPortAccess ⟨r.rid, false⟩) s = .next t ∧
          Tab.find t.reqs r.rid = some { r with lanes := [{ l with stage := .failed .unresolved }] }) ∧
      (∀ e u tag, s.transObj o r.part 0 l.addr = .absent e → l.again = false →
        s.sendPage r.part r.obj ((l.addr - o.vbase) / 4096) (.req r.rid) = (u, some tag) →
        ∃ t, exec (.memoryPortAccess ⟨r.rid, false⟩) s = .next t ∧ t.pages = u.pages ∧
          Tab.find t.reqs r.rid = some { r with lanes := [{ l with stage := .held tag }] })) ∧
    (∀ pa, r.kind = .load → r.space = .dm → r.op ≠ 0x7F → l.stage = .ported pa false false → pa < 2 ^ 64 →
      (s.die die).lines.find? (fun x => x.line == pa / 64 && x.key == r.part) = none → s.lineBusy die (pa / 64) = false →
      (s.pathFailed die (pa / 2 ^ 36) = true → ∃ t, exec (.memoryPortAccess ⟨r.rid, false⟩) s = .next t ∧ t.chanQ = s.chanQ ∧
        Tab.find t.reqs r.rid = some { r with lanes := [{ l with stage := .failed .refused }] }) ∧
      (s.pathFailed die (pa / 2 ^ 36) = false → ∃ t y, exec (.memoryPortAccess ⟨r.rid, false⟩) s = .next t ∧ t.chanQ = s.chanQ ++ [y] ∧
        y.kind = .load ∧ y.pa = pa ∧ y.rid = r.rid ∧ y.size = r.size ∧
        Tab.find t.reqs r.rid = some { r with lanes := [{ l with stage := .queued }] })) ∧
    (∀ pa x, r.kind = .load → r.space = .dm → r.op ≠ 0x7F → l.stage = .ported pa false false → pa < 2 ^ 64 →
      (s.die die).lines.find? (fun x => x.line == pa / 64 && x.key == r.part) = some x → s.ownBusy die (pa / 64) = false →
      (∃ t, exec (.memoryPortAccess ⟨r.rid, false⟩) s = .next t ∧ t.dm = s.dm ∧ Tab.find t.reqs r.rid =
        some { r with lanes := [{ l with stage := .landed, got := (x.data.drop (pa % 64)).take r.size,
                                         gotTag := x.tags.contains (pa % 64 / 16) }] }) ∧
      (s.lineBusy die (pa / 64) = false → s.pathFailed die (pa / 2 ^ 36) = false → ∃ t e, exec (.memoryPortAccess ⟨r.rid, true⟩) s = .next t ∧ t.dm = s.dm ∧
        (∀ y ∈ (t.die die).lines, y.line ≠ pa / 64) ∧ (t.die die).dcerr = min ((s.die die).dcerr + 1) 0xFFFFFFFF ∧
        t.records = s.records ++ [e] ∧ e.typ = 0x03 ∧ (∃ y, t.chanQ = s.chanQ ++ [y] ∧ y.kind = .load ∧ y.pa = pa ∧ y.rid = r.rid) ∧
        Tab.find t.reqs r.rid = some { r with lanes := [{ l with stage := .queued }] })) ∧
    (∀ pa k, r.kind = .store → r.space = .dm → r.op ≠ 0x7F → r.accepted = false → l.stage = .ported pa false false → r.ac = some k →
      s.pane.pid = r.pid → k.val < s.pane.ac.length →
      ∃ t x, exec (.storeAcceptance r.rid) s = .next t ∧ Tab.find t.reqs r.rid = some x ∧ x.accepted = true ∧
        t.pane.ac.getD k.val 0 = s.pane.ac.getD k.val 0 - 1 ∧ t.dm = s.dm ∧
        Tab.getD t.issued die 0 = Tab.getD s.issued die 0 + 1 ∧
        Tab.getD (t.die die).clock die 0 = Tab.getD s.issued die 0 + 1 ∧
        (∃ y, t.chanQ = s.chanQ ++ [y] ∧ y.kind = .store ∧ y.pa = pa ∧ y.bytes = l.data ∧ y.rid = r.rid)) ∧
    (∀ tag e, l.stage = .held tag → Tab.find s.pages tag = some e →
      s.pages.find? (fun x => x.2.part == e.part && x.2.prg == e.prg) = some (tag, e) →
      (∃ t, exec (.pageResponse ⟨e.part, e.prg⟩ .success) s = .next t ∧ Tab.find t.pages tag = none ∧
        Tab.find t.reqs r.rid = some { r with lanes := [{ l with stage := .issued, again := true }] }) ∧
      (∀ code, code ≠ .success → ∃ t x q, exec (.pageResponse ⟨e.part, e.prg⟩ code) s = .next t ∧ Tab.find t.pages tag = none ∧
        Tab.find t.reqs r.rid = some q ∧ q.lanes = [{ l with stage := .failed .unresolved }] ∧ (r.accepts = true → q.accepted = true) ∧
        t.records = s.records ++ [x] ∧ x.typ = 0x0B) ∧
      (∃ t x, exec (.pageRequestTimeout tag) s = .next t ∧ t.pages = s.pages ∧ t.reqs = s.reqs ∧
        t.records = s.records ++ [x] ∧ x.typ = 0x06))

/-- R220, R244: a die applies the write at a place of its queue once it may: its source's number is then in the die's clock, the
entry is gone, and a copy of the line the die holds under the key has the bytes. -/
def Claim.WriteApplication : Prop :=
  ∀ (s : State) (die k : Nat) (a : Apply),
    (s.die die).applyQ[k]? = some a →
    ((s.die die).mayApply die k = false → exec (.writeApply die k) s = .next s) ∧
    ((s.die die).mayApply die k = true →
      ∃ t, exec (.writeApply die k) s = .next t ∧ (t.die die).applyQ = (s.die die).applyQ.eraseIdx k ∧ t.dm = s.dm ∧
        (a.src ≠ die → a.sub = false → Tab.getD (t.die die).clock a.src 0 = a.num) ∧
        (∀ x ∈ (t.die die).lines, x.line = a.line → x.key = a.key →
          ∃ y ∈ (s.die die).lines, y.line = a.line ∧ x.data = patch y.data a.off a.bytes))

/-- Device memory, its poison and its tags are as before but for the line of an address. -/
def OtherLines (s t : State) (pa : Nat) : Prop :=
  (∀ a, a / 64 ≠ pa / 64 → t.dm.read a = s.dm.read a) ∧
  (∀ k, k ≠ pa / 64 → (k ∈ t.poisoned ↔ k ∈ s.poisoned)) ∧ (∀ g, g / 4 ≠ pa / 64 → (g ∈ t.tags ↔ g ∈ s.tags))

/-- R245, R261, R262, R264, R267, R277 to R280: the oldest access of a line at its channel, which is not degraded. A load of a sound
line gives its bytes and the granule's tag; a store writes its bytes and clears the tags it touches, on a poisoned line only where it
is full; an operation reads the word and writes the new value, or is refused on a poisoned line. Nothing outside the line changes.
A line of a degraded channel that cannot be rebuilt is poisoned by its read. A parity delta is one exclusive or of the parity line, and of
the TAG field of its sideband, which a degraded parity channel does not get.
That a store to part of a poisoned line is refused and how the events reach a line are the model's reading (log entries 19 and 85). -/
def Claim.HomeChannels : Prop :=
  ∀ (s : State) (c : ChanItem) (r : Req) (l : Lane),
    let g := (s.chanOf c.pa).1
    let ch := (s.chanOf c.pa).2
    let served := bit (s.base g).chdegr ch = false
    let sound := served ∧ c.pa / 64 ∉ s.poisoned ∧ s.keyOk c.part (c.pa / 64) = true
    (s.chanQ = [c] → c.tier1 = false → c.line = c.pa / 64 → c.pa % 64 + c.size ≤ 64 → 0 < c.size → Tab.find s.reqs c.rid = some r →
    r.rid = c.rid → r.lanes = [l] → l.lane = c.lane → c.rid ≠ 0 → Tab.getD s.chanEvs (c.pa / 64) 0 = 0 →
    (c.kind = .load ∨ c.kind = .cld → sound → ∃ t, exec (.channelAccess c.rid c.lane false false false false) s = .next t ∧ t.chanQ = [] ∧ t.dm = s.dm ∧ t.tags = s.tags ∧
      Tab.find t.reqs c.rid = some { r with lanes := [{ l with stage := .landed, got := Mem.readN s.dm c.pa c.size,
                                                               gotTag := decide (c.pa / 16 ∈ s.tags) }] }) ∧
    (c.kind = .load → c.pa / 64 ∈ s.poisoned → ∃ t, exec (.channelAccess c.rid c.lane false false false false) s = .next t ∧ t.dm = s.dm ∧
      Tab.find t.reqs c.rid = some { r with lanes := [{ l with stage := .failed .poisoned }] }) ∧
    (c.kind = .load → s.degradedDead c.pa = true → ∃ t, exec (.channelAccess c.rid c.lane false false false false) s = .next t ∧ t.dm = s.dm ∧ c.pa / 64 ∈ t.poisoned ∧
      Tab.find t.reqs c.rid = some { r with lanes := [{ l with stage := .failed .poisoned }] }) ∧
    (c.kind = .store → c.bytes.length = c.size → sound ∨ (served ∧ c.size = 64) → ∃ t, exec (.channelAccess c.rid c.lane false false false false) s = .next t ∧ OtherLines s t c.pa ∧
      Mem.readN t.dm c.pa c.size = c.bytes ∧ c.pa / 64 ∉ t.poisoned ∧
      (∀ a, a < c.pa ∨ c.pa + c.size ≤ a → t.dm.read a = s.dm.read a) ∧
      (∀ x, c.pa / 16 ≤ x → x ≤ (c.pa + c.size - 1) / 16 → x ∉ t.tags) ∧
      Tab.find t.reqs c.rid = some { r with lanes := [{ l with stage := .landed }] }) ∧
    (c.kind = .store → c.bytes.length = c.size → c.size < 64 → c.pa / 64 ∈ s.poisoned → ∃ t, exec (.channelAccess c.rid c.lane false false false false) s = .next t ∧ t.dm = s.dm ∧
      Tab.find t.reqs c.rid = some { r with lanes := [{ l with stage := .failed .poisoned }] }) ∧
    (c.kind = .rmw → sound → c.size = 4 → ∃ t, exec (.rdxRequest g ch) s = .next t ∧ OtherLines s t c.pa ∧
      Mem.readN t.dm c.pa 4 = aopBytes c.op 4 (Mem.readN s.dm c.pa 4) c.bytes ∧
      Tab.find t.reqs c.rid = some { r with lanes := [{ l with stage := .landed, got := Mem.readN s.dm c.pa 4 }] } ∧
      (r.kind = .atomic → (t.chan g ch).atomics = min ((s.chan g ch).atomics + 1) 0xFFFFFFFF) ∧
      (r.kind = .red → (t.chan g ch).reductions = min ((s.chan g ch).reductions + 1) 0xFFFFFFFF)) ∧
    (c.kind = .rmw → c.pa / 64 ∈ s.poisoned → ∃ t, exec (.rdxRequest g ch) s = .next t ∧ t.dm = s.dm ∧
      (t.chan g ch).refused = min ((s.chan g ch).refused + 1) 0xFFFFFFFF ∧
      Tab.find t.reqs c.rid = some { r with lanes := [{ l with stage := .failed .poisoned }] })) ∧
    (∀ line d, (s.base g).deltas.find? (fun d => d.line == line) = some d →
      let a := parityAddr d.line + d.off
      ∃ t, exec (.parityDelta g line) s = .next t ∧ (t.base g).deltas = (s.base g).deltas.erase d ∧ t.dm = s.dm ∧
        (bit (s.base g).chdegr (State.parityChan (d.line * 64)) = true → t.parity = s.parity) ∧
        (bit (s.base g).chdegr (State.parityChan (d.line * 64)) = false →
          Mem.readN t.parity a d.x.length = xorBytes (Mem.readN s.parity a d.x.length) d.x ∧
          Tab.getD t.parityTags (parityAddr d.line) 0 = Tab.getD s.parityTags (parityAddr d.line) 0 ^^^ d.tags ∧
          (t.chan g (State.parityChan (d.line * 64))).delta = min ((s.chan g (State.parityChan (d.line * 64))).delta + 1) 0xFFFFFFFF ∧
          (t.chan g (State.parityChan (d.line * 64))).writes = min ((s.chan g (State.parityChan (d.line * 64))).writes + 1) 0xFFFFFFFF))

/-- R162, R165, R168, R173, R174, R179, R180: one lane at its own core's slice: a load reads its bytes, a store writes them and
nothing else, an atomic returns the old word. A write that is over frees its entry: with no record where it was performed, with
one of cause 3 that names its lane where it was refused.
The place of the lane and the cause in that record is the model's (log entry 12). -/
def Claim.SliceRequests : Prop :=
  ∀ (s : State) (r : Req) (l : Lane), Open s r → OneLane r l →
    let a := s.dsAddr r l
    (r.space = .sp → a / 2 ^ 24 = r.core / 24 → l.stage = .issued → l.num = 0 → s.sliceBefore r (sliceCore a) = false →
      s.sliceOlder r l = false →
      (r.kind = .load → ∃ t, exec (.dsRequest r.rid) s = .next t ∧ t.ds = s.ds ∧ t.dm = s.dm ∧
        Tab.find t.reqs r.rid = some { r with lanes := [{ l with stage := .landed, got := Mem.readN s.ds a r.size }] }) ∧
      (r.kind = .store → l.data.length = r.size → ∃ t x, exec (.dsRequest r.rid) s = .next t ∧ t.dm = s.dm ∧ Mem.readN t.ds a r.size = l.data ∧
        (∀ b, b < a ∨ a + r.size ≤ b → t.ds.read b = s.ds.read b) ∧
        Tab.find t.reqs r.rid = some x ∧ x.lanes = [{ l with stage := .landed }] ∧ x.accepted = true) ∧
      (r.kind = .atomic → r.size = 4 → ∃ t x, exec (.dsRequest r.rid) s = .next t ∧
        Mem.readN t.ds a 4 = aopBytes r.aop 4 (Mem.readN s.ds a 4) l.data ∧
        Tab.find t.reqs r.rid = some x ∧ x.lanes = [{ l with stage := .landed, got := Mem.readN s.ds a 4 }])) ∧
    (r.kind = .store ∨ r.kind = .red ∨ r.kind = .cst → r.accepted = true → r.peer = none →
      (l.stage = .landed → ∃ t, exec (.storePerform r.rid) s = .next t ∧ Tab.find t.reqs r.rid = none ∧
        t.records = s.records ∧ t.dm = s.dm) ∧
      (l.stage = .failed .refused → r.entry = true → l.mask ≠ 0 →
        ∃ t x, exec (.storePerform r.rid) s = .next t ∧ Tab.find t.reqs r.rid = none ∧ t.records = s.records ++ [x] ∧
          x.typ = 0x02 ∧ x.part = r.part ∧ x.detail = [BitVec.ofNat 32 (r.pkt.toNat * 16 + r.slot.toNat * 4),
            BitVec.ofNat 32 ((r.pkt.toNat * 16 + r.slot.toNat * 4) / 2 ^ 32), BitVec.ofNat 32 r.grid, BitVec.ofNat 32 r.team,
            BitVec.ofNat 32 r.pord, BitVec.ofNat 32 r.op, l.mask, 3, 0]))

/-- R231, R268, R269: a raise of GEN opens; the ports adopt the value once no older access is open, and with no parked write to
replay the raise is complete. An invalidation is acknowledged by a die whose reads of the copy are over; the last
acknowledgement lets the parked writes go on, and is recorded. -/
def Obligations.Generations : Prop :=
  ∀ (s : State) (part die ext : Nat) (l : List Nat),
    ((s.part part).genDone = true → s.tdiLocked part = false →
      ∃ t, exec (.genRaise part) s = .next t ∧ (t.part part).gen = ((s.part part).gen + 1) % 2 ^ 32 ∧
        (t.part part).genDone = false ∧ (t.part part).genCur = (s.part part).genCur ∧ t.dm = s.dm) ∧
    ((s.part part).genDone = false → exec (.genRaise part) s = .next s) ∧
    ((s.part part).genDone = false → (s.part part).genCur ≠ (s.part part).gen → s.translatedOpen part = false →
      ∃ t, exec (.genAdoption part) s = .next t ∧ (t.part part).genCur = (s.part part).gen ∧ t.dm = s.dm ∧
        ((t.part part).genDone = true ↔ ∀ p ∈ s.parkQ, p.part ≠ part) ∧ ∀ p ∈ t.parkQ, p.part = part → p.replay = true) ∧
    (s.inval part ext = some l → l.contains die = true → s.copyReads die part = false → (s.die die).dropped.length < 64 →
      ∃ t, exec (.dupInvalidation die part ext) s = .next t ∧ t.inval part ext = some (l.filter (· != die)) ∧
        (part, ext) ∈ (t.die die).dropped ∧ t.dm = s.dm) ∧
    (s.inval part ext = some [] → (part, ext) ∉ s.invalDone →
      ∃ t x, exec (.dupInvalidationAck part ext) s = .next t ∧ (part, ext) ∈ t.invalDone ∧ t.records = s.records ++ [x] ∧
        x.typ = 0x0D ∧ t.dm = s.dm)

/-! ### Publication and sketches (R270 to R294) -/

/-- A package command of the word at the pane's pc has left: it is in the table under the next number, its counter has risen,
its result's registers are pending; no other register, no vector register and no memory has changed (R273). -/
def CmdSent (s t : State) (i : Instr) (ac : Fin 16) (c : Cmd) : Prop :=
  t.nextRid = s.nextRid + 1 ∧ Tab.find t.cmds s.nextRid = some c ∧ c.i = i ∧ c.id = s.nextRid ∧ c.mark = s.nextRid ∧
  c.pid = s.pane.pid ∧ c.xm = s.pane.xm ∧ c.ac = some ac ∧ c.stage = 0 ∧
  t = { s with pane := { s.pane with ac := t.pane.ac, sPend := t.pane.sPend, xstat := t.pane.xstat }, cmds := t.cmds,
               nextRid := s.nextRid + 1 } ∧
  t.pane.ac = setAt s.pane.ac ac.val (s.pane.ac.getD ac.val 0 + 1)

/-- A capability serves a command that asks for a BASE on `n` bytes and a LEN of at least `n`. -/
def RecordFits (p : Pane) (c : CReg) (need : BitVec 8) (n : Nat) : Prop :=
  CapAdmits p c need ∧ (p.creg c.val).base % n = 0 ∧ n ≤ (p.creg c.val).len

/-- R238, R273, R287, R288: VPIN, VREL, VPUB, SKADD and SKCLR issue whatever XM holds once no fence holds them and their capabilities
serve, with the operands as they stand; a fence or a counter at 255 holds them; an untagged capability traps. SKQRY and SKUPD do
nothing with XM = 0. -/
def Obligations.PublicationAndSketchWords : Prop :=
  ∀ (s : State) (d3 : Option (Fin 62)) (d2 : Option (Fin 63)) (a e : CReg) (b : SOpt) (b2 : Fin 63) (ac : Fin 16)
    (vd : Fin 120) (va vb : VSrc),
    let p := s.pane
    let full := p.ac.getD ac.val 0 = 255
    let serve := RecordFits p a
    let sent := fun (t : State) (c : Cmd) (i : Instr) => CmdSent s t i ac c ∧ t.pane.xstat = p.xstat ∧ c.cap 0 = p.creg a.val
    (s.memMayIssue = false ∨ full →
      (serve 9 256 → exec (.vpin d3 a ac) s = .next (held s)) ∧ (serve 8 256 → exec (.vrel a b ac) s = .next (held s)) ∧
      (serve 10 256 → exec (.vpub d2 a b2 ac) s = .next (held s)) ∧
      (serve 19 64 → RecordFits p e 1 64 → exec (.skadd a e ac) s = .next (held s)) ∧
      (serve 2 64 → exec (.skclr a ac) s = .next (held s))) ∧
    (s.memMayIssue = true → ¬ full →
      (serve 9 256 → ∃ t c, exec (.vpin d3 a ac) s = .next t ∧ sent t c (.vpin d3 a ac)) ∧
      (serve 8 256 → ∃ t c, exec (.vrel a b ac) s = .next t ∧ sent t c (.vrel a b ac) ∧ c.word 0 = BitVec.ofNat 32 (countOf p b)) ∧
      (serve 10 256 → ∃ t c, exec (.vpub d2 a b2 ac) s = .next t ∧ sent t c (.vpub d2 a b2 ac) ∧ c.word 0 = p.sreg b2.val ∧
        c.word 1 = p.sreg (b2.val + 1)) ∧
      (serve 19 64 → RecordFits p e 1 64 → ∃ t c, exec (.skadd a e ac) s = .next t ∧ sent t c (.skadd a e ac) ∧ c.cap 1 = p.creg e.val) ∧
      (serve 2 64 → ∃ t c, exec (.skclr a ac) s = .next t ∧ sent t c (.skclr a ac))) ∧
    (s.memMayIssue = true → (p.creg a.val).tag = false → exec (.vpin d3 a ac) s = .next (takeTrap 0x07 (BitVec.ofNat 32 (a.val * 32)) s) ∧
      exec (.vrel a b ac) s = .next (takeTrap 0x07 (BitVec.ofNat 32 (a.val * 32)) s) ∧
      exec (.vpub d2 a b2 ac) s = .next (takeTrap 0x07 (BitVec.ofNat 32 (a.val * 32)) s) ∧
      exec (.skadd a e ac) s = .next (takeTrap 0x07 (BitVec.ofNat 32 (a.val * 32)) s) ∧
      exec (.skclr a ac) s = .next (takeTrap 0x07 (BitVec.ofNat 32 (a.val * 32)) s)) ∧
    (s.memMayIssue = true → (p.creg a.val).tag = true → (p.creg e.val).tag = false →
      exec (.skadd a e ac) s = .next (takeTrap 0x07 (BitVec.ofNat 32 (e.val * 32)) s)) ∧
    (p.xm = 0 → exec (.skqry vd va a ac) s = .next s ∧ exec (.skupd a va vb) s = .next s) ∧
    (p.xm ≠ 0 → s.memMayIssue = true → RecordFits p a 1 64 → ¬ full →
      ∃ t c, exec (.skqry vd va a ac) s = .next t ∧ CmdSent s t (.skqry vd va a ac) ac c ∧ c.cap 0 = p.creg a.val ∧
        c.lanes = (activeLanes p).map (fun L => (L, [va.val p L])) ∧ t.pane.v = p.v) ∧
    (p.xm ≠ 0 → s.memMayIssue = true → RecordFits p a 17 64 → s.originUsed p.core < 64 →
      ∃ t r, exec (.skupd a va vb) s = .next t ∧ Tab.find t.reqs s.nextRid = some r ∧ r.kind = .skupd ∧ r.entry = true ∧
        r.accepted = false ∧ r.vbase = (p.creg a.val).base ∧ r.extra = ((activeLanes p).map (fun L =>
          [L, (va.val p L).toNat, (vb.val p L).toNat])).flatten ∧ t.pane.ac = p.ac ∧ t.pane.v = p.v ∧ t.dm = s.dm ∧
        (bit t.pane.xstat 4 = true ↔ bit p.xstat 4 = true ∨ ∃ L, Act p L ∧ (vb.val p L) &&& 0x7FFFFFFF > 0x7F800000#32))

/-- The fields of a publication record are in range and valid (R270, R272). -/
def PubValid (r : PubRec) (len : Nat) : Prop :=
  r.cur < 8 ∧ r.slots.length = 8 ∧ 1 ≤ r.next ∧ r.next ≤ 2 ^ 29 - 2 ∧ r.ringoff < 2 ^ 36 ∧ r.rtail < 2 ^ 32 ∧ r.rhead < 2 ^ 32 ∧
  (r.cv = true → (r.slot r.cur).st = 1) ∧
  (∀ p ∈ r.slots, p.root < 2 ^ 56 ∧ p.st < 3 ∧ p.ver < 2 ^ 29 ∧ p.pins < 2 ^ 32 ∧ (p.st ≠ 0 → 1 ≤ p.ver ∧ p.ver ≤ 2 ^ 29 - 2)) ∧
  (r.ringoff ≠ 0 → r.ringoff % 16 = 0 ∧ 256 ≤ r.ringoff ∧ r.ringoff + 1024 ≤ len)

/-- R270, R271, R274, R331: a record's bytes hold it, and what the commands do to a valid record: VPIN counts a pin on the
current version and answers its handle and root; VREL takes back a pin of a live version with the handle's number, else
changes nothing and sets the flag; VPUB installs the root in the lowest free slot as the next version, which becomes current;
a conditional publication does so only while the handle's version is current. -/
def Claim.PublicationRules : Prop :=
  ∀ (r : PubRec) (len : Nat) (h : Word) (root : Nat), PubValid r len → root < 2 ^ 56 →
    let cur := r.slot r.cur
    let j := h.toNat / 2 ^ 29
    let p := r.slot j
    let after := if r.next = 2 ^ 29 - 2 then 1 else r.next + 1
    PubRec.parse (ofBytes r.bytes) len = some r ∧
    (r.cv = true → cur.pins < 0xFFFFFFFF →
      r.perform .pin = (r.setSlot r.cur { cur with pins := cur.pins + 1 },
        [BitVec.ofNat 32 (r.cur * 2 ^ 29 + cur.ver), BitVec.ofNat 32 cur.root, BitVec.ofNat 32 (cur.root / 2 ^ 32)], false)) ∧
    (r.cv = false → r.perform .pin = (r, [0xFFFFFFFF, 0, 0], false)) ∧
    (r.cv = true → cur.pins = 0xFFFFFFFF → r.perform .pin = (r, [0xFFFFFFFF, 0, 0], true)) ∧
    (h = 0xFFFFFFFF → r.perform (.rel h) = (r, [], false)) ∧
    (h ≠ 0xFFFFFFFF → p.st = 1 → p.ver = h.toNat % 2 ^ 29 → 0 < p.pins →
      r.perform (.rel h) = (r.setSlot j { p with pins := p.pins - 1 }, [], false)) ∧
    (h ≠ 0xFFFFFFFF → p.st ≠ 1 ∨ p.ver ≠ h.toNat % 2 ^ 29 ∨ p.pins = 0 → r.perform (.rel h) = (r, [], true)) ∧
    ((∀ k, k < 8 → (r.slot k).st ≠ 0) → r.perform (.pub root) = (r, [0x10000000, 0xFFFFFFFF], true)) ∧
    (∀ k, k < 8 → (r.slot k).st = 0 → (∀ i, i < k → (r.slot i).st ≠ 0) →
      r.perform (.pub root) = ({ r.setSlot k ⟨root, 1, r.next, 0⟩ with next := after, cur := k, cv := true },
        [0, BitVec.ofNat 32 (k * 2 ^ 29 + r.next)], false) ∧
      (r.cv = true → r.cur = j → cur.ver = h.toNat % 2 ^ 29 → r.perform (.cond h root) = r.perform (.pub root))) ∧
    (r.cv = false ∨ r.cur ≠ j ∨ cur.ver ≠ h.toNat % 2 ^ 29 → r.perform (.cond h root) = (r, [7, 0xFFFFFFFF], true))

/-- R272, R273, R274, R275: PUBLICATION_COMMAND performs a command whose fork edge holds at its record's unit, once the die has applied
every write to the record, and the command ends: its result registers, its counter and its error flag; a record that cannot be reached or is invalid gives the failing result. A
slot without pins that is not current retires: it is freed where there is no ring, or left in STATE 2 where the ring is full. -/
def Claim.PublicationCommands : Prop :=
  ∀ (s : State) (c : Cmd) (r : PubRec) (j : Nat) (q : Cap) (v : Via),
    (∀ d a k, Tab.find s.cmds c.id = some c → c.i = .vpin (some d) a k → c.ac = some k → s.cmdReady c = true → s.cmdRefused c = false → s.pane.pid = c.pid → s.pane.place.live = true →
      d.val + 2 < s.pane.s.length → k.val < s.pane.ac.length →
      (∀ u ws err, s.pubUnit c.via (c.cap 0) .pin = .fin u ws err → u.pane = s.pane → ws.length = 3 →
        ∃ t, exec (.publicationCommand c.id) s = .next t ∧ Tab.find t.cmds c.id = none ∧ t.dm = u.dm ∧
          (∀ i, i < 3 → t.pane.sreg (d.val + i) = ws.getD i 0 ∧ t.pane.sPend.getLsbD (d.val + i) = false) ∧
          t.pane.ac.getD k.val 0 = s.pane.ac.getD k.val 0 - 1 ∧
          (t.pane.acEng.getLsbD k.val = true ↔ s.pane.acEng.getLsbD k.val = true ∨ err = true)) ∧
      (s.recordSeen c.via (c.cap 0) = false → exec (.publicationCommand c.id) s = .next s) ∧
      (∀ u e, 256 ≤ (c.cap 0).len → s.recordSeen c.via (c.cap 0) = true → s.unitObj { c.via with home := true } (c.cap 0).obj (c.cap 0).base = (u, .fail e) →
        s.pubUnit c.via (c.cap 0) .pin = .fin (u.forget (.cmd c.id)) [0xFFFFFFFF, 0, 0] true)) ∧
    (r.slots.length = 8 → j < 8 → r.rtail < 2 ^ 32 → r.rhead < 2 ^ 32 →
      (r.ringoff = 0 → s.retire1 v q r j = (s, r.setSlot j { r.slot j with st := 0 }, false)) ∧
      (r.ringoff ≠ 0 → r.rhead + 64 ≤ r.rtail → s.retire1 v q r j = (s, r.setSlot j { r.slot j with st := 2 }, false)) ∧
      (j ∈ r.eligible ↔ (r.slot j).st = 2 ∨ ((r.slot j).st = 1 ∧ (r.slot j).pins = 0 ∧ (r.cv = false ∨ r.cur ≠ j))))

/-- R283 to R286, R289: a counter's sum is exact and clamps at plus or minus 2^31 - 1, which sets SAT; the estimate is the
rounded median; the combiner's sum of a counter is that of the lanes whose key falls on it; the spec's hashes. -/
def Claim.SketchArithmetic : Prop :=
  (∀ (c : Word) (x : Int),
    (-(2 ^ 31 - 1) ≤ c.toInt + x → c.toInt + x ≤ 2 ^ 31 - 1 → (skAdd c x).1.toInt = c.toInt + x ∧ (skAdd c x).2 = false) ∧
    (2 ^ 31 - 1 < c.toInt + x → (skAdd c x).1.toInt = 2 ^ 31 - 1 ∧ (skAdd c x).2 = true) ∧
    (c.toInt + x < -(2 ^ 31 - 1) → (skAdd c x).1.toInt = -(2 ^ 31 - 1) ∧ (skAdd c x).2 = true)) ∧
  (∀ (e : Int) (es : List Int), es.length % 2 = 1 → ∃ m ∈ es, (es.filter (fun x => decide (x < m))).length ≤ es.length / 2 ∧
    (es.filter (fun x => decide (m < x))).length ≤ es.length / 2 ∧
    skEstimate e es = BitVec.ofNat 32 (roundDy F32 .rn false false m e).1) ∧
  (∀ (h : SkHdr) (ls : List (Word × Word)) (j col : Nat), j < h.rows →
    (((skFold h ls).find? (fun x => x.1 == (j, col))).map Prod.snd).getD 0 =
      (ls.map (fun l => match quantise h.e l.2 with
        | none => (0 : Int)
        | some q => if (h.hash l.1 j).1 = col then (if (h.hash l.1 j).2 then -q.1 else q.1) else 0)).sum) ∧
  (∀ h : SkHdr, h = ⟨3, 6, 0, -8⟩ →
    h.hash 1 0 = (38, true) ∧ h.hash 1 1 = (49, true) ∧ h.hash 1 2 = (57, false) ∧ h.hash 2 0 = (13, false) ∧
    h.hash 2 1 = (35, false) ∧ h.hash 2 2 = (50, true) ∧ quantise (-8) 0x3F400000 = some (192, false) ∧
    quantise (-8) 0xBF000000 = some (-128, false) ∧ h.off 0 38 = 0xD8 ∧ h.off 2 50 = 0x308 ∧
    skEstimate (-8) [256, 256, 256] = 0x3F800000)

/-- R282, R288 to R292: the steps of the sketch engine. A SKQRY with an invalid header gives poison in every lane and the flag
ENGINE; one whose lanes have read their rows gives the estimates; SKADD and SKCLR with an invalid header change nothing and set
ENGINE; a SKCLR goes on counter by counter; a SKUPD starts once its header is valid, or fails with cause 3. -/
def Claim.SketchCommands : Prop :=
  ∀ (s u : State) (c : Cmd) (r : Req),
    (Tab.find s.cmds c.id = some c → s.unitFrozen c.skVia (c.cap 0) = false → s.pane.pid = c.pid →
      s.pane.place.live = true →
      (∀ d a e k, c.i = .skqry d a e k → c.ac = some k → k.val < s.pane.ac.length → d.val < s.pane.v.length →
        (c.stage = 0 → s.cmdReady c = true → s.cmdRefused c = false → s.skFirst c.id c.part (c.cap 0).base = true →
          s.skHeader c.skVia (c.cap 0) = (u, .ok none) → u.pane = s.pane →
          ∃ t, exec (.sketchCommand c.id) s = .next t ∧ Tab.find t.cmds c.id = none ∧ t.pane.acEng.getLsbD k.val = true ∧
            t.pane.ac.getD k.val 0 = s.pane.ac.getD k.val 0 - 1 ∧ t.dm = u.dm ∧
            ∀ L, L < 32 → t.pane.vreg d.val L = if bit c.xm L = true then 0x7FFFC0DE else s.pane.vreg d.val L) ∧
        (c.stage ≠ 0 → (∀ l ∈ c.lanes, l.2.length = (SkHdr.ofAux c.aux).rows + 1) →
          (∀ x ∈ c.lanes, ∀ y ∈ c.lanes, x.1 = y.1 → x = y) →
          ∃ t, exec (.sketchCommand c.id) s = .next t ∧ Tab.find t.cmds c.id = none ∧ t.dm = s.dm ∧
            t.pane.acEng = s.pane.acEng ∧ t.pane.ac.getD k.val 0 = s.pane.ac.getD k.val 0 - 1 ∧
            ∀ l ∈ c.lanes, l.1 < 32 → bit c.xm l.1 = true →
              t.pane.vreg d.val l.1 = skLaneResult (SkHdr.ofAux c.aux) l.2)) ∧
      (∀ d a k w h, (c.i = .skclr d k ∧ w = u) ∨ (c.i = .skadd d a k ∧ u.skHeader c.skVia (c.cap 1) = (w, .ok h)) →
        c.ac = some k → k.val < s.pane.ac.length → c.stage = 0 → s.cmdReady c = true → s.cmdRefused c = false →
        s.skFirst c.id c.part (c.cap 0).base = true → s.skHeader c.skVia (c.cap 0) = (u, .ok none) → w.pane = s.pane →
        ∃ t, exec (.sketchCommand c.id) s = .next t ∧ Tab.find t.cmds c.id = none ∧ t.dm = w.dm ∧
          t.pane.acEng.getLsbD k.val = true) ∧
      (∀ d k x, c.i = .skclr d k → c.stage ≠ 0 → c.base < (SkHdr.ofAux c.aux).rows * 2 ^ (SkHdr.ofAux c.aux).logw →
        s.skOp c.skVia .sketch none (c.cap 0) (64 + 4 * c.base) (fun _ => 0) = (u, .ok x) → u.cmds = s.cmds →
        ∃ t, exec (.sketchCommand c.id) s = .next t ∧ Tab.find t.cmds c.id = some { c with base := c.base + 1 } ∧
          t.dm = u.dm)) ∧
    (Tab.find s.cmds r.rid = none → Tab.find s.reqs r.rid = some r → r.kind = .skupd → r.accepted = true →
      r.destAccepted = false → s.unitFrozen (skVia r.rid (r.core / 24) r.part) (r.skCap r.size) = false →
      s.skFirst r.rid r.part r.vbase = true → u.reqs = s.reqs →
      (∀ h, s.skHeader (skVia r.rid (r.core / 24) r.part) (r.skCap r.size) = (u, .ok (some h)) →
        ∃ t, exec (.sketchCommand r.rid) s = .next t ∧
          Tab.find t.reqs r.rid = some { r with destAccepted := true, size := 4, lanes := skOps h r }) ∧
      (s.skHeader (skVia r.rid (r.core / 24) r.part) (r.skCap r.size) = (u, .ok none) →
        ∃ t, exec (.sketchCommand r.rid) s = .next t ∧ Tab.find t.reqs r.rid =
          some { r with destAccepted := true, lanes := r.lanes.map (fun l => { l with stage := .failed .refused }) }))

/-! ### Rays (R295 to R315) -/

/-- The code entry in two uniform registers. -/
def entryOf (p : Pane) (b : Nat) : Nat := (p.sreg b).toNat + (p.sreg (b + 1)).toNat % 2 ^ 24 * 2 ^ 32

/-- R299, R300: RAYCAST with XM = 0 does nothing; with a capability that serves and aligned entries it takes the lowest free
context, which holds what it captured, and its counter rises; a misaligned entry traps with its low word; without a free context
or with its counter at 255 it does not issue.
That the lowest free context is taken is the model's choice (log entry 62). -/
def Obligations.RaycastWord : Prop :=
  ∀ (s : State) (d : CReg) (a : Fin 112) (b : Fin 61) (ac : Fin 16) (cull : Cull),
    let p := s.pane
    let ctxs := (s.core p.core).ctxs
    (p.xm = 0 → exec (.raycast d a b ac cull) s = .next s) ∧
    (p.xm ≠ 0 → s.memMayIssue = true → RecordFits p d 9 256 →
      (entryOf p b.val % 16 ≠ 0 → exec (.raycast d a b ac cull) s = .next (takeTrap 0x04 (p.sreg b.val) s)) ∧
      (entryOf p b.val % 16 = 0 → entryOf p (b.val + 2) % 16 ≠ 0 → exec (.raycast d a b ac cull) s = .next (takeTrap 0x04 (p.sreg (b.val + 2)) s)) ∧
      (entryOf p b.val % 16 = 0 → entryOf p (b.val + 2) % 16 = 0 →
        ((∀ k, k < 32 → (Tab.find ctxs k).isSome = true) → exec (.raycast d a b ac cull) s = .next (held s)) ∧
        (p.ac.getD ac.val 0 = 255 → exec (.raycast d a b ac cull) s = .next (held s)) ∧
        (∀ k, k < 32 → Tab.find ctxs k = none → (∀ j, j < k → (Tab.find ctxs j).isSome = true) → p.ac.getD ac.val 0 ≠ 255 →
          ∃ t x, exec (.raycast d a b ac cull) s = .next t ∧ Tab.find (t.core p.core).ctxs k = some x ∧ x.grid = p.grid ∧ x.cap = p.creg d.val ∧
            x.hit = entryOf p b.val ∧ x.miss = entryOf p (b.val + 2) ∧ x.cull = cull ∧ x.sent = false ∧
            x.rays = (activeLanes p).map (fun L => (L, (List.range 9).map (fun i => p.vreg (a.val + i) L))) ∧
            t.pane.ac = setAt p.ac ac.val (p.ac.getD ac.val 0 + 1) ∧ t.pane.v = p.v ∧ t.dm = s.dm)))

/-- A coordinate of the vertex k of a triangle, in units of 2^-149. -/
def vertex (tri : List Word) (k i : Nat) : Int := fix32 (tri.getD (3 * k + i) 0)

/-- R297, R298, R301, R302, R303, R310: a message is 96 bytes. A ray with a NaN, an infinite origin or direction, no direction, a
negative TMIN or TMAX below TMIN is invalid. A candidate solves the triangle's equation exactly, inside the triangle and not
before TMIN; a ray that reaches a finite box within an unbounded TMAX hits it; NaN boxes are hit and inverted ones are not. A
hit is accepted by (t, PRIM). The reorder stage gives the first record in callback order. -/
def Obligations.RayRules : Prop :=
  (∀ m : RayMsg, m.bytes.length = 96) ∧
  (∀ ray : List Word, (isNan32 (ray.getD 3 0) = true ∨ isNan32 (ray.getD 7 0) = true ∨
      (∃ k, k < 7 ∧ k ≠ 3 ∧ isFin32 (ray.getD k 0) = false) ∨
      (fix32 (ray.getD 4 0) = 0 ∧ fix32 (ray.getD 5 0) = 0 ∧ fix32 (ray.getD 6 0) = 0) ∨ lt32 (ray.getD 3 0) 0 = true ∨
      lt32 (ray.getD 7 0) (ray.getD 3 0) = true) ↔ rayInvalid ray = true) ∧
  (∀ (ray tri : List Word) (h : TriHit), triTest ray tri = some h →
    0 < h.den ∧ h.u + h.v ≤ h.den ∧ fix32 (ray.getD 3 0) * h.den ≤ h.t * 2 ^ 149 ∧
    ∀ i, i < 3 → (h.den : Int) * fix32 (ray.getD i 0) + h.t * fix32 (ray.getD (4 + i) 0) =
      h.den * vertex tri 0 i + h.u * (vertex tri 1 i - vertex tri 0 i) + h.v * (vertex tri 2 i - vertex tri 0 i)) ∧
  (∀ (ray box : List Word) (n : Int) (d : Nat), 0 < d → box.length = 6 → ray.getD 7 0 = 0x7F800000 →
    isFin32 (ray.getD 3 0) = true → (∀ x ∈ box, isFin32 x = true) → fix32 (ray.getD 3 0) * d ≤ n * 2 ^ 149 →
    (∀ a, a < 3 → lt32 (box.getD (a + 3) 0) (box.getD a 0) = false ∧
      fix32 (box.getD a 0) * d ≤ fix32 (ray.getD a 0) * d + n * fix32 (ray.getD (4 + a) 0) ∧
      fix32 (ray.getD a 0) * d + n * fix32 (ray.getD (4 + a) 0) ≤ fix32 (box.getD (a + 3) 0) * d) → boxHit ray box = true) ∧
  (∀ ray box : List Word, (∃ x ∈ box, isNan32 x = true) → boxHit ray box = true ∧ boxNear ray box = (ray.getD 3 0).toNat) ∧
  (∀ ray box : List Word, (∀ x ∈ box, isNan32 x = false) → (∃ a, a < 3 ∧ lt32 (box.getD (a + 3) 0) (box.getD a 0) = true) →
    boxHit ray box = false) ∧
  (∀ (r : RayRec) (h : TriHit) (prim tr : Word), tr = BitVec.ofNat 32 (roundQ F32 false h.t h.den) →
    ((tKey tr < tKey r.tmax ∨ (tKey tr = tKey r.tmax ∧ (r.hit = false ∨ prim.toNat < r.prim.toNat))) →
      r.accept .none h prim = { r with tmax := tr, prim := prim, u := roundQ F16 false h.u h.den, v := roundQ F16 false h.v h.den,
                                       hit := true, back := h.back }) ∧
    (tKey r.tmax < tKey tr ∨ (tKey tr = tKey r.tmax ∧ r.hit = true ∧ r.prim.toNat ≤ prim.toNat) → r.accept .none h prim = r) ∧
    (h.back = true → r.accept .back h prim = r) ∧ (h.back = false → r.accept .front h prim = r)) ∧
  (∀ (c : Core) (f : RayFin), c.nextFin = some f → f ∈ c.reorder ∧ ∀ x ∈ c.reorder, x.before f = false)

/-- R300: the dispatch of a cast. A pin that fails frees the context and ends the command with the error flag; else the context
holds the handle, and a valid ray goes as a message to the stack of the root treelet. -/
def Claim.RayDispatch : Prop :=
  ∀ (s : State) (core k : Nat) (x : RayCtx) (c : Cmd),
    Tab.find (s.core core).ctxs k = some x → Tab.find s.cmds x.cmd = some c → c.id = x.cmd → x.sent = false → x.flying = [] →
    s.cmdReady c = true → s.cmdRefused c = false →
    (∀ t ws a, s.pubUnit c.via x.cap .pin = .fin t ws true → c.ac = some a → t.pane = s.pane → s.pane.pid = c.pid →
      s.pane.place.live = true → a.val < s.pane.ac.length →
      ∃ u, exec (.raycastDispatch core k) s = .next u ∧ Tab.find (u.core core).ctxs k = none ∧ Tab.find u.cmds c.id = none ∧
        u.pane.acEng.getLsbD a.val = true ∧ u.pane.ac.getD a.val 0 = s.pane.ac.getD a.val 0 - 1) ∧
    (∀ t t2 t3 h lo hi pa tr n L ws e, s.pubUnit c.via x.cap .pin = .fin t [h, lo, hi] false → h ≠ 0xFFFFFFFF →
      (t.pkgAt c.via x.cap 0 true).2 = .ok (pa, false) → x.cap.base ≤ lo.toNat + hi.toNat * 2 ^ 32 →
      t.tableHead (pa / 2 ^ 36) x.part x.cap (lo.toNat + hi.toNat * 2 ^ 32 - x.cap.base) = (t2, .ok (tr, n)) →
      x.rays = [(L, ws)] → rayInvalid (RayRec.cast core k L ws).words = false →
      (t2.modCtx core k (fun y => { y with handle := h, sent := true, left := y.rays.length, bad := false })).treelet
        (pa / 2 ^ 36) x.part x.cap (lo.toNat + hi.toNat * 2 ^ 32 - x.cap.base) n tr = (t3, .ok e) →
      Tab.find (t3.core core).ctxs k = some { x with handle := h, sent := true, left := 1, bad := false } →
      ∃ u m y, exec (.raycastDispatch core k) s = .next u ∧ Tab.find (u.core core).ctxs k = some y ∧ y.sent = true ∧
        y.handle = h ∧ y.left = 1 ∧ y.flying = [L] ∧
        (u.base e.stack).trv.inbox = (t3.base e.stack).trv.inbox ++ [(pa / 2 ^ 36, m)] ∧ m.treelet = tr ∧ m.handle = h ∧
        m.ray = RayRec.cast core k L ws ∧ u.dm = t3.dm)

/-- R305 to R308, R313, R314: the traversal unit. With an empty ring a message joins its key's queue, or binds the lowest free one, or
enters the ring where its queue is full; with a full ring it waits and the ring is reported full once. A batch is the first 32 rays of
the fullest queue, of the lowest treelet among equals; its rays are traversed one by one in the queue's order, a ray whose table cannot
be read leaves with FAULT, and one record is sent when the batch ends. Hangs are
reported; a reset finishes every ray of the batch, the queues and the ring; TRVRING is written only with the ring empty. -/
def Claim.TraversalUnit : Prop :=
  ∀ (s : State) (g : Nat) (m : RayMsg) (src : Nat) (value : BitVec 64),
    let t := (s.base g).trv
    (∀ k, t.inbox[k]? = some (src, m) → (∀ e ∈ t.inbox.take k, e.1 ≠ src) → t.spill = [] →
      (∀ q l, t.queues.find? (fun q => q.2.any (fun x => x.sameKey m)) = some (q, l) →
        (l.length < t.qdepth → ∃ u, exec (.rayMessageArrival g k) s = .next u ∧ (u.base g).trv.inbox = t.inbox.eraseIdx k ∧
          Tab.getD (u.base g).trv.queues q [] = Tab.getD t.queues q [] ++ [m] ∧
          (∀ j, j ≠ q → Tab.getD (u.base g).trv.queues j [] = Tab.getD t.queues j []) ∧ (u.base g).trv.spill = [] ∧ u.dm = s.dm) ∧
        (t.qdepth ≤ l.length → 0 < t.rsize → ∃ u, exec (.rayMessageArrival g k) s = .next u ∧
          (u.base g).trv.inbox = t.inbox.eraseIdx k ∧ (u.base g).trv.queues = t.queues ∧ (u.base g).trv.spill = [m] ∧
          (u.base g).trv.spilled = min (t.spilled + 1) 0xFFFFFFFF)) ∧
      (∀ j, (∀ q ∈ t.queues, ∀ x ∈ q.2, x.sameKey m = false) → j < 256 → Tab.find t.queues j = none →
        (∀ i, i < j → (Tab.find t.queues i).isSome = true) →
        ∃ u, exec (.rayMessageArrival g k) s = .next u ∧ (u.base g).trv.inbox = t.inbox.eraseIdx k ∧
          Tab.getD (u.base g).trv.queues j [] = [m] ∧ (∀ i, i ≠ j → Tab.getD (u.base g).trv.queues i [] = Tab.getD t.queues i []) ∧
          (u.base g).trv.spill = [] ∧ u.dm = s.dm)) ∧
    (t.inbox = [(src, m)] → t.spill ≠ [] → t.rsize ≤ t.spill.length → t.full = false →
      ∃ u r, exec (.rayMessageArrival g 0) s = .next u ∧ (u.base g).trv.inbox = [(src, m)] ∧ (u.base g).trv.full = true ∧
        u.records = s.records ++ [r] ∧ r.typ = 0x0C) ∧
    (∀ k q, t.run = none → t.outq.length < 256 → (s.base g).frozen = false → t.spill = [] → (k, q) ∈ t.queues →
      (∀ x ∈ t.queues, x = (k, q) ∨ x.2.length < q.length ∨
        (x.2.length = q.length ∧ ((q.head?).map RayMsg.treelet).getD 0 < ((x.2.head?).map RayMsg.treelet).getD 0)) →
      ∃ u, exec (.trvBatchStart g) s = .next u ∧ (u.base g).trv.run = some (q.take 32) ∧
        (u.base g).trv.left = 0 ∧ Tab.getD (u.base g).trv.queues k [] = q.drop 32 ∧
        (∀ j, j ≠ k → Tab.getD (u.base g).trv.queues j [] = Tab.getD t.queues j []) ∧
        (u.base g).trv.batches = min (t.batches + 1) 0xFFFFFFFF ∧ u.dm = s.dm) ∧
    (∀ k q, t.queues = [(k, q)] → t.outq.length < 256 → t.run.isSome = true →
      exec (.trvBatchStart g) s = .next s) ∧
    (∀ v e ms, t.run = some ms → ms[t.left]? = some m → t.bad = none → t.hung = false →
      s.tableHead g m.part m.cap m.root = (v, .error e) → (v.base g).trv = t → v.time = s.time →
      ∃ u f, exec (.trvBatchEnd ⟨g, []⟩) s = .next u ∧ (u.base g).trv.outq = t.outq ++ [f] ∧ f.fault = true ∧ f.inv = false ∧
        f.ray = m.ray ∧ f.handle = m.handle ∧ f.ts = s.time ∧ f.stack = g ∧
        (t.left + 1 < ms.length → (u.base g).trv.run = some ms ∧ (u.base g).trv.left = t.left + 1 ∧ u.records = v.records) ∧
        (t.left + 1 = ms.length → (u.base g).trv.run = none ∧ ∃ r, u.records = v.records ++ [r] ∧ r.typ = 0x08)) ∧
    (∀ bad, t.run.isNone = true ∨ t.hung = true → exec (.trvBatchEnd ⟨g, bad⟩) s = .next s) ∧
    (t.run.isSome = true → t.hung = false → (s.base g).frozen = false →
      ∃ u r, exec (.trvHang g) s = .next u ∧ (u.base g).trv.hung = true ∧ u.records = s.records ++ [r] ∧ r.typ = 0x06) ∧
    (∃ u, exec (.trvReset g) s = .next u ∧ (u.base g).trv.run = none ∧ (u.base g).trv.queues = [] ∧
      (u.base g).trv.spill = [] ∧ (u.base g).trv.hung = false ∧ u.dm = s.dm ∧
      (u.base g).trv.outq.length = t.outq.length + ((t.run.getD []).drop t.left).length + (Tab.vals t.queues).flatten.length + t.spill.length) ∧
    (t.spill = [] → ∃ u, exec (.trvringWrite g value) s = .next u ∧ (u.base g).trv.rsize = value.toNat % 2 ^ 24 ∧
      (u.base g).trv.rbase = value.toNat / 2 ^ 24 % 2 ^ 20) ∧
    (t.spill ≠ [] → exec (.trvringWrite g value) s = .next s)

/-- R309 to R311, R314: a final record enters its core's reorder stage, where no pane waits to form and there is room, and stays
while no horizon lets it go; a horizon of the earliest record still waiting is sent to every core, never lowers what the core has, and lets a record below all of them go: one whose entry
is 0 leaves no thread. A context whose rays, threads and panes are over is released with its pin. -/
def Claim.CallbackOrder : Prop :=
  ∀ (s : State) (core g k : Nat) (f : RayFin) (x : RayCtx),
    let c := s.core core
    ((s.base g).trv.outq.find? (fun f => f.ray.core == core) = some f → c.reorder.length < 512 → c.forming = [] →
      (∀ y ∈ c.reorder ++ [f], c.below y.ts = false) →
      ∃ t, exec (.rayFinalRecord core g) s = .next t ∧ (t.core core).reorder = c.reorder ++ [f] ∧
        (t.base g).trv.outq = (s.base g).trv.outq.erase f ∧ (t.core core).bins = c.bins ∧ t.dm = s.dm) ∧
    (c.forming ≠ [] ∨ 512 ≤ c.reorder.length → exec (.rayFinalRecord core g) s = .next s) ∧
    (Tab.find s.cores core = some c →
      ∃ t h, exec (.horizonSend g) s = .next t ∧ Tab.find (t.core core).horIn g = some h ∧ h ≤ s.time ∧
        (∀ y ∈ (s.base g).trv.outq, y.ray.core = core → h ≤ y.ts) ∧ t.dm = s.dm) ∧
    (∀ h, Tab.find c.horIn g = some h → c.reorder = [] →
      ∃ t, exec (.horizon g core) s = .next t ∧ Tab.find (t.core core).horIn g = none ∧
        Tab.find (t.core core).horizons g = some (max h (Tab.getD c.horizons g 0)) ∧ t.dm = s.dm) ∧
    (∀ h, Tab.find c.horIn g = some h → c.reorder = [f] → Tab.find c.ctxs f.ray.ctx = some x → f.ts < h →
      (if f.ray.hit then x.hit else x.miss) = 0 → (∀ j, j < 16 → j ≠ g → f.ts < Tab.getD c.horizons j 0) →
      ∃ t, exec (.horizon g core) s = .next t ∧ (t.core core).reorder = [] ∧ (t.core core).bins = c.bins ∧
        Tab.find (t.core core).ctxs f.ray.ctx = some { x with left := x.left - 1 }) ∧
    (∀ u ws err, Tab.find c.ctxs k = some x → x.sent = true → x.left = 0 → x.held = 0 → x.panes = 0 → x.flying = [] →
      Tab.find s.cmds x.cmd = none → s.callbacksQuiet x.pids = true → s.homeDone (s.die (core / 24)).clock = true →
      s.pubUnit { who := .ray core k, die := core / 24, part := x.part } x.cap (.rel x.handle) = .fin u ws err →
      ∃ t, exec (.rayContextRelease core k) s = .next t ∧ Tab.find (t.core core).ctxs k = none ∧ t.dm = u.dm) ∧
    ((s.die (core / 24)).frozen = false →
      ∃ t r, exec (.horizonTimeout core g) s = .next t ∧ t.records = s.records ++ [r] ∧ r.typ = 0x06 ∧ t.dm = s.dm)

/-! ### Filtering, attention mass and eviction (R316 to R337) -/

/-- R327: ATMASS is a reduction with .FADD on the counters of the lanes' token references: lanes of one counter are folded in
ascending order, and it needs the right D and every counter inside LEN. R333: POSRD sends its handles and positions. -/
def Claim.AttentionWords : Prop :=
  ∀ (s : State) (d : CReg) (a b : VSrc) (v : Fin 120) (h : Fin 119) (ac : Fin 16),
    let p := s.pane
    let c := p.creg d.val
    let counter := fun L => 512 * ((a.val p L).toNat / 64) + 4 * ((a.val p L).toNat % 64)
    let same := fun L => (activeLanes p).filter (fun k => counter k == counter L)
    let w : Via := { who := .cmd s.nextRid, die := p.core / 24, part := p.part, busB := true }
    (p.xm = 0 → exec (.atmass d a b) s = .next s ∧ exec (.posrd v d h ac) s = .next s) ∧
    (p.xm ≠ 0 → CanSend s {} none true → CapAdmits p d 0x10 → (∀ L, Act p L → counter L + 4 ≤ c.len) →
      ∃ t r, exec (.atmass d a b) s = .next t ∧ Sent s t r {} (a.stale p || b.stale p) ∧ r.kind = .red ∧ r.space = .dm ∧
        r.obj = c.obj ∧ r.ac = none ∧ r.entry = true ∧ r.aop = .fadd ∧
        r.lanes.map (fun l => l.lane) = (activeLanes p).filter (fun L => (same L).headD 0 == L) ∧
        ∀ l ∈ r.lanes, l.addr = c.base + counter l.lane ∧ (∀ k, k < 32 → (bit l.mask k = true ↔ k ∈ same l.lane)) ∧
          l.data = toBytes 4 (((same l.lane).tail.foldl (fun x k => aopVal .fadd x (b.val p k) 0) (b.val p l.lane)).toNat)) ∧
    (p.xm ≠ 0 → s.memMayIssue = true → c.tag = false →
      exec (.atmass d a b) s = .next (takeTrap 0x07 (BitVec.ofNat 32 (d.val * 32)) s)) ∧
    (p.xm ≠ 0 → CanSend s {} (some ac) false → RecordFits p d 1 256 → s.eveFull (s.eveOf w c) = false →
      ∃ t r, exec (.posrd v d h ac) s = .next t ∧ Sent s t r {} false ∧ r.kind = .posrd ∧ r.obj = c.obj ∧ r.ac = some ac ∧
        r.d = some v.val ∧ r.vbase = c.base ∧ r.entry = false ∧ r.lanes = (activeLanes p).map (fun L =>
          { lane := L, addr := c.base, mask := (1 : Word) <<< L,
            data := toBytes 4 (p.vreg h.val L).toNat ++ toBytes 4 (p.vreg (h.val + 1) L).toNat })) ∧
    (p.xm ≠ 0 → s.memMayIssue = true → RecordFits p d 1 256 → s.eveFull (s.eveOf w c) = true →
      exec (.posrd v d h ac) s = .next (held s))

/-- R238, R328, R329: EVICT traps on a reserved descriptor bit, is held by a fence, a pending capability, a full engine or a counter
at 255, and else captures its capability and descriptor; its status pair is pending. -/
def Claim.EvictWord : Prop :=
  ∀ (s : State) (d : Option (Fin 63)) (a : Fin 57) (ac : Fin 16) (cr : CReg),
    let p := s.pane
    let w := fun k => p.sreg (a.val + k)
    let legal := (w 0).toNat < 32 ∧ (w 3).toNat < 32 ∧ w 6 = 0 ∧ w 7 = 0
    let g := s.eveOf { who := .cmd s.nextRid, die := p.core / 24, part := p.part, busB := true } (p.creg cr.val)
    (w 0).toNat % 32 = cr.val →
    (s.memMayIssue = false ∨ bit p.cPend cr.val = true → exec (.evict d a ac) s = .next (held s)) ∧
    (s.memMayIssue = true → bit p.cPend cr.val = false → ¬ legal → exec (.evict d a ac) s = .next (takeTrap 0x03 s.word s)) ∧
    (s.memMayIssue = true → bit p.cPend cr.val = false → legal → RecordFits p cr 11 256 →
      (s.eveFull g = true ∨ p.ac.getD ac.val 0 = 255 → exec (.evict d a ac) s = .next (held s)) ∧
      (s.eveFull g = false → p.ac.getD ac.val 0 ≠ 255 →
        ∃ t c, exec (.evict d a ac) s = .next t ∧ CmdSent s t (.evict d a ac) ac c ∧ c.cap 0 = p.creg cr.val ∧ (∀ k, k < 8 → c.word k = w k) ∧ c.base = g ∧
          t.pane.xstat = p.xstat ∧ ∀ k, k < 64 → (t.pane.sPend.getLsbD k = true ↔ p.sPend.getLsbD k = true ∨
            ∃ r : Fin 63, d = some r ∧ (k = r.val ∨ k = r.val + 1))))

/-- R330, R331: what EVICT decides of a token, and what it writes. A token is dead where its mass is below the threshold, ordered, and
its position lies before the window; a survivor's mass is that of the old page times 2 to the minus DECAY, rounded once; a conditional
publication into a record without a free slot gives code 4. -/
def Claim.EvictionArithmetic : Prop :=
  (∀ (th w m p : Word) (next : Nat), tokenDead th w next m p = true ↔ FCondMeans false .lt m th ∧ p.toNat + w.toNat < next) ∧
  (∀ (m : Word) (n : Nat),
    (IsFinite F32 m.toNat → ∃ fl, RoundedTo F32 .rn false (bit m 31) (numOf F32 false m.toNat) (-149 - n) ((decay m n).toNat, fl)) ∧
    ((m &&& 0x7FFFFFFF).toNat = 0x7F800000 → decay m n = m) ∧
    (0x7F800000 < (m &&& 0x7FFFFFFF).toNat → decay m n = 0x7FC00000)) ∧
  (∀ (r : PubRec) (h : Word) (root : Nat), r.slots.length = 8 → r.cv = true → r.cur = h.toNat / 2 ^ 29 →
    (r.slot r.cur).ver = h.toNat % 2 ^ 29 → (∀ k, k < 8 → (r.slot k).st ≠ 0) →
    r.perform (.cond h root) = (r, [4, 0xFFFFFFFF], true))

/-- R330: the steps of an EVICT. The pin, whose failure gives code 2; the page list, which is malformed for code 2 too; each slot's mass
and position, which keep the token or count it dead; each survivor copied to its place in the output pages with its position and its
decayed mass; at last the unused slots and the page list. A read or write that fails ends it with code 5. -/
def Claim.EvictionPages : Prop :=
  ∀ (s u v : State) (c : Cmd) (d : Option (Fin 63)) (a : Fin 57) (ac : Fin 16),
    Tab.find s.cmds c.id = some c → c.i = .evict d a ac → (s.base c.base).eveHung = false →
    let e := c.ev
    let out := (c.word 4).toNat
    let n := e.keep.length
    let np := (n + 63) / 64
    let size := 512 + 64 * e.tsz
    let page := fun k => out + 512 * ((64 + 8 * np + 511) / 512) + k * size
    let steps := fun (w : State) (c' : Cmd) => ∃ t, exec (.evictPerform c.id) s = .next t ∧ Tab.find t.cmds c.id = some c' ∧ t.dm = w.dm ∧
      t.pane = w.pane
    (c.stage = 0 → s.cmdReady c = true → s.cmdRefused c = false → c.base ≠ 16 → s.eveTurn c.base c.id false = true → u.cmds = s.cmds →
      (∀ h lo hi, s.pubUnit c.eveVia (c.cap 0) .pin = .fin u [h, lo, hi] false → h ≠ 0xFFFFFFFF →
        steps u { c with stage := 1, ev := { e with handle := h, root := lo.toNat + hi.toNat * 2 ^ 32, listed := false } }) ∧
      (∀ ws err, s.pubUnit c.eveVia (c.cap 0) .pin = .fin u ws err → err = true ∨ ws.getD 0 0 = 0xFFFFFFFF →
        steps u { c with stage := 6, ev := { e with code := 2 } })) ∧
    (c.stage = 1 → e.listed = false → u.cmds = s.cmds →
      (∀ l, s.pageList c.eveVia (c.cap 0) e.root = (u, .ok (some l)) →
        steps u { c with ev := { e with listed := true, pages := l.pages, tsz := l.tsz, nextpos := l.nextpos } }) ∧
      (s.pageList c.eveVia (c.cap 0) e.root = (u, .ok none) → steps u { c with stage := 6, ev := { e with code := 2 } }) ∧
      (∀ x, s.pageList c.eveVia (c.cap 0) e.root = (u, .fail x) → steps u { c with stage := 6, ev := { e with code := 5 } })) ∧
    (∀ off count m p, c.stage = 1 → e.listed = true → e.pages[e.k]? = some (off, count) → 0 < count →
      let slot := c.aux.getD 0 0
      let mass := BitVec.ofNat 32 (ofBytes m)
      let pos := BitVec.ofNat 32 (ofBytes p)
      let last := count ≤ slot + 1
      s.pkgRead c.eveVia (c.cap 0) (off + 4 * slot) 4 false = (u, .ok m) →
      u.pkgRead c.eveVia (c.cap 0) (off + 256 + 4 * slot) 4 false = (v, .ok p) → v.cmds = s.cmds →
      steps v { c with
        aux := [if last then 0 else slot + 1]
        ev := { e with
          k := if last then e.k + 1 else e.k
          dead := if tokenDead (c.word 1) (c.word 2) e.nextpos mass pos = true then e.dead + 1 else e.dead
          keep := if tokenDead (c.word 1) (c.word 2) e.nextpos mass pos = true then e.keep else e.keep ++ [(off, slot, mass, pos)] } }) ∧
    (c.stage = 1 → e.listed = true → e.pages.length ≤ e.k → 0 < e.dead → out % 512 = 0 → 256 ≤ out →
      out + 512 * ((64 + 8 * np + 511) / 512) + np * size ≤ (c.cap 0).len →
      512 * ((64 + 8 * np + 511) / 512) + np * size ≤ (c.word 5).toNat →
      (∀ x ∈ (e.root - (c.cap 0).base, 64 + 8 * e.pages.length) :: e.pages.map (fun q => (q.1, size)),
        page np ≤ x.1 ∨ x.1 + x.2 ≤ out) →
      steps s { c with stage := 3, ev := { e with k := 0 } }) ∧
    (∀ off slot mass pos b, c.stage = 3 → e.keep[e.k]? = some (off, slot, mass, pos) →
      s.pkgRead c.eveVia (c.cap 0) (off + 512 + slot * e.tsz) e.tsz false = (u, .ok b) →
      let put := u.evictWrite c [(page (e.k / 64) + 512 + e.k % 64 * e.tsz, b), (page (e.k / 64) + 256 + 4 * (e.k % 64), toBytes 4 pos.toNat),
        (page (e.k / 64) + 4 * (e.k % 64), toBytes 4 (decay mass ((c.word 3).toNat % 32)).toNat)]
      (put = (v, .ok ()) → v.cmds = s.cmds → steps v { c with ev := { e with k := e.k + 1 } }) ∧
      (∀ x, put = (v, .fail x) → v.cmds = s.cmds → steps v { c with stage := 6, ev := { e with code := 5 } })) ∧
    (c.stage = 3 → n ≤ e.k → steps s { c with stage := 4 }) ∧
    (c.stage = 4 → v.cmds = s.cmds →
      let last := page (np - 1)
      let rest := if n % 64 = 0 then [] else [(last + 4 * (n % 64), List.replicate (4 * (64 - n % 64)) (0 : Byte)),
        (last + 256 + 4 * (n % 64), List.replicate (4 * (64 - n % 64)) (0xFF : Byte))]
      let list := toBytes 64 (0x4B560000 + np * 2 ^ 32 + e.tsz * 2 ^ 64 + e.nextpos * 2 ^ 96) ++
        ((List.range np).map (fun i => toBytes 8 (page i + (if i + 1 = np then n - 64 * (np - 1) else 64) * 2 ^ 40))).flatten
      (s.evictWrite c (rest ++ [(out, list)]) = (v, .ok ()) → steps v { c with stage := 5 }) ∧
      (∀ x, s.evictWrite c (rest ++ [(out, list)]) = (v, .fail x) → steps v { c with stage := 6, ev := { e with code := 5 } })) ∧
    (∀ (w x y : State) off b ws, w.evictWrite c [] = (w, .ok ()) ∧
      (w.evictWrite c ws = (x, .ok ()) → x.pkgWrite c.eveVia (c.cap 0) off b false = (y, .ok ()) →
        w.evictWrite c (ws ++ [(off, b)]) = (y, .ok ())))

/-- R330 to R332: EVICT_PERFORM's decisions and its end, and CONDITIONAL_PUBLICATION. With no dead token the code is 1, with a
misaligned output 2, with too small an output or one that meets the record 3, and nothing is written; the end releases the pin and
gives the status pair, the counter and the error flag. -/
def Claim.EvictionSteps : Prop :=
  ∀ (s u : State) (c : Cmd) (d : Fin 63) (a : Fin 57) (k : Fin 16) (ws : List Word) (err : Bool),
    Tab.find s.cmds c.id = some c → c.i = .evict (some d) a k → c.ac = some k → (s.base c.base).eveHung = false →
    let outOff := (c.word 4).toNat
    let np := (c.ev.keep.length + 63) / 64
    let need := 512 * ((64 + 8 * np + 511) / 512) + np * (512 + 64 * c.ev.tsz)
    let ends := fun (code : Nat) => ∃ t, exec (.evictPerform c.id) s = .next t ∧
      Tab.find t.cmds c.id = some { c with stage := 6, ev := { c.ev with code := code } } ∧ t.dm = s.dm ∧ t.pane = s.pane
    (c.stage = 1 → c.ev.listed = true → c.ev.pages.length ≤ c.ev.k →
      (c.ev.dead = 0 → ends 1) ∧ (0 < c.ev.dead → outOff % 512 ≠ 0 → ends 2) ∧
      (0 < c.ev.dead → outOff % 512 = 0 → (c.word 5).toNat < need ∨ (c.cap 0).len < outOff + need ∨ outOff < 256 → ends 3)) ∧
    (c.stage = 6 → ((c.ev.handle = 0xFFFFFFFF ∧ u = s) ∨
        (c.ev.handle ≠ 0xFFFFFFFF ∧ s.pubUnit c.eveVia (c.cap 0) (.rel c.ev.handle) = .fin u ws err)) → u.pane = s.pane → u.cmds = s.cmds →
      s.pane.pid = c.pid → s.pane.place.live = true → d.val + 1 < s.pane.s.length → k.val < s.pane.ac.length →
      ∃ t, exec (.evictPerform c.id) s = .next t ∧ Tab.find t.cmds c.id = none ∧ t.dm = u.dm ∧
        t.pane.sreg d.val = BitVec.ofNat 32 (c.ev.code * 2 ^ 28 +
          (if c.ev.code ∈ [0, 1, 3, 4, 7] then c.ev.keep.length % 2 ^ 24 else 0)) ∧
        t.pane.sreg (d.val + 1) = (if c.ev.code = 0 then c.ev.out else 0xFFFFFFFF) ∧
        t.pane.ac.getD k.val 0 = s.pane.ac.getD k.val 0 - 1 ∧
        (t.pane.acEng.getLsbD k.val = true ↔ s.pane.acEng.getLsbD k.val = true ∨ 2 ≤ c.ev.code)) ∧
    (c.stage = 5 → s.quietSys c.pid c.mark = true → u.cmds = s.cmds →
      s.pubUnit c.eveVia (c.cap 0) (.cond c.ev.handle ((c.cap 0).base + outOff)) = .fin u ws err →
      ∃ t, exec (.conditionalPublication c.id) s = .next t ∧ t.dm = u.dm ∧ t.pane = u.pane ∧
        ∃ e, e = { c.ev with code := (ws.getD 0 0).toNat, out := ws.getD 1 0xFFFFFFFF } ∧
          Tab.find t.cmds c.id = some { c with stage := 6, ev := e })

/-- R333, R335: POSRD_PERFORM with an invalid record gives poison in every lane with the flag ENGINE; a handle that is not live
gives poison in its lane; EVE_HANG marks a hung engine once, which then performs nothing; EVE_RESET clears the mark and gives a queued POSRD poison. -/
def Claim.EvictionEngine : Prop :=
  ∀ (s u : State) (r : Req) (b : List Byte) (g : Nat),
    let c : Cap := ⟨true, BitVec.ofNat 128 (r.vbase + r.extra.getD 0 0 * 2 ^ 56 + r.part * 2 ^ 104 + r.obj * 2 ^ 112)⟩
    (Tab.find s.reqs r.rid = some r → Tab.find s.cmds r.rid = none → r.kind = .posrd → r.cancelled = false → r.left = true →
      r.lanes ≠ [] → (∀ l ∈ r.lanes, l.stage = .issued) → s.quiet r.pid r.rid = true →
      s.homeDone (s.die (r.core / 24)).clock = true → s.stopFailed r.core = false → r.eve ≠ 16 →
      s.eveTurn r.eve r.rid false = true → s.pkgRead r.posVia c 0 256 true = (u, .ok b) →
      PubRec.parse (ofBytes b) c.len = none →
      ∃ t q, exec (.posrdPerform r.rid) s = .next t ∧ Tab.find t.reqs r.rid = some q ∧ q.tag = true ∧ t.dm = u.dm ∧
        q.lanes.map (fun l => (l.lane, l.stage, l.got)) =
          r.lanes.map (fun l => (l.lane, .landed, toBytes 4 0x7FFFC0DE))) ∧
    (∀ (p : PubRec) (l : Lane), (p.slot (bits (wordOfNat (ofBytes (l.data.take 4))) 29 3)).st ≠ 1 →
      s.posLane r c (some p) l = (s, .word 0x7FFFC0DE true)) ∧
    (∀ id w, (s.base g).eveHung = true → s.eveTurn g id w = false) ∧
    (s.eveQueue g ≠ [] → (s.base g).eveHung = false → (s.base g).frozen = false →
      ∃ t, exec (.eveHang g) s = .next t ∧ (t.base g).eveHung = true ∧ t.dm = s.dm ∧ t.cmds = s.cmds ∧ t.reqs = s.reqs) ∧
    (∃ t, exec (.eveReset g) s = .next t ∧ (t.base g).eveHung = false) ∧
    (Tab.find s.reqs r.rid = some r → Tab.find s.cmds r.rid = none → s.eveQueue g = [r.rid] →
      ∃ t q, exec (.eveReset g) s = .next t ∧ Tab.find t.reqs r.rid = some q ∧ q.tag = true ∧
        q.lanes.map (fun l => (l.lane, l.stage, l.got)) = r.lanes.map (fun l => (l.lane, .landed, toBytes 4 0x7FFFC0DE)))

/-- A weighted sum of values of a format, the weights over 2^wl, as R69 and R319 have it: a NaN, or infinities of both signs, give the
NaN of the result's format; an infinity gives itself; else the exact sum is rounded once. -/
def SumIs (fin out : Fmt) (wl : Nat) (ts : List (Nat × Nat)) (p : Nat) : Prop :=
  let mag := fun (x : Nat) => x % 2 ^ (fin.eb + fin.fb)
  let neg := fun (x : Nat) => x / 2 ^ (fin.eb + fin.fb) % 2 = 1
  let special := (2 ^ fin.eb - 1) * 2 ^ fin.fb
  let plus := ∃ t ∈ ts, mag t.2 = special ∧ ¬ neg t.2
  let minus := ∃ t ∈ ts, mag t.2 = special ∧ neg t.2
  let bad := (∃ t ∈ ts, special < mag t.2) ∨ (plus ∧ minus)
  (bad → p = out.nanPat) ∧ (¬ bad → plus → p = out.infPat false) ∧ (¬ bad → minus → p = out.infPat true) ∧
  (¬ bad → ¬ plus → ¬ minus → ∃ fl, RoundedTo out .rn false (ts.all (fun t => t.2 / 2 ^ (fin.eb + fin.fb) % 2 == 1) && !ts.isEmpty)
    (ts.map (fun t => (t.1 : Int) * numOf fin false t.2)).sum (1 - (2 ^ (fin.eb - 1) - 1 : Int) - fin.fb - wl) (p, fl))

/-- The F32 pattern nearest to n / d, the even one of two (R63, RN). -/
def NearestF32 (n d p : Nat) : Prop :=
  p ≤ F32.maxPat ∧ ∀ q, q ≤ F32.maxPat →
    let far := fun (x : Nat) => ((magOf F32 x * d : Int) - n * 2 ^ 149).natAbs
    far p ≤ far q ∧ (far p = far q → p ≠ q → p % 2 = 0)

/-- R318, R319: a result register of TEX from the weighted texels: a channel that the format lacks is 0. -/
def TexWord (fmt c : Nat) (ts : List (Nat × List Byte)) (w : Word) : Prop :=
  let chan := fun (off n : Nat) => ts.map (fun t => (t.1, ofBytes ((t.2.drop off).take n)))
  match fmt with
  | 0 => if c < 4 then NearestF32 ((chan c 1).map (fun t => t.1 * t.2)).sum (255 * 65536) w.toNat else w = 0
  | 1 => if c < 2 then SumIs F16 F32 16 (chan (2 * c) 2) w.toNat else w = 0
  | 2 => if c < 4 then SumIs F16 F32 16 (chan (2 * c) 2) w.toNat else w = 0
  | _ => if c < 1 then SumIs F32 F32 16 (chan 0 4) w.toNat else w = 0

/-- An index and the whole part and the 1/256ths of a coordinate less a half (R319): x in units of 2^-150. -/
def HalfSplit (x i : Int) (f : Nat) : Prop :=
  i * 2 ^ 150 ≤ x ∧ f < 256 ∧ f * 2 ^ 150 ≤ (x - i * 2 ^ 150) * 256 ∧ (x - i * 2 ^ 150) * 256 < (f + 1) * 2 ^ 150

/-- R319: what a lane of TEX reads and gives. Coordinates that are not finite give zeros. Else the terms are the nearest texel or the
two by two of a bilinear sample whose weight is not 0; a texel beyond the capability's extent is zeros; a read that fails is the
lane's failure. -/
def Claim.TexLanes : Prop :=
  ∀ (s : State) (r : Req) (d : TexDesc) (stack : Nat) (l : Lane) (i j : Int) (f g : Nat),
    let a := coordOf l 0
    let b := coordOf l 1
    let clamp := r.extra.getD 0 0 == 1
    let n := r.extra.getD 2 1
    let runs := fun (ts : List (Nat × Nat × Nat)) => ∀ u x,
      s.fltReads r (r.extra.getD 3 0) stack (texSize d.fmt) (ts.map (fun t => (d.toff + t.2.1 * d.pitch + t.1 * texSize d.fmt, t.2.2))) = (u, x) →
        (∀ e, x = .error e → s.texLane r d stack l = (u, .error e)) ∧
        (∀ xs, x = .ok xs → ∃ ws, s.texLane r d stack l = (u, .ok ws) ∧ ws.length = n ∧ ∀ c, c < n → TexWord d.fmt c xs (ws.getD c 0))
    (isFin32 a = false ∨ isFin32 b = false → s.texLane r d stack l = (s, .ok (List.replicate n 0))) ∧
    (isFin32 a = true → isFin32 b = true → d.fmt < 4 →
      (r.extra.getD 1 0 ≠ 1 → i * 2 ^ 149 ≤ fix32 a * d.w → fix32 a * d.w < (i + 1) * 2 ^ 149 → j * 2 ^ 149 ≤ fix32 b * d.h →
        fix32 b * d.h < (j + 1) * 2 ^ 149 → runs [(texAddr clamp i d.w, texAddr clamp j d.h, 65536)]) ∧
      (r.extra.getD 1 0 = 1 → HalfSplit (2 * fix32 a * d.w - 2 ^ 149) i f → HalfSplit (2 * fix32 b * d.h - 2 ^ 149) j g →
        runs ([(texAddr clamp i d.w, texAddr clamp j d.h, (256 - f) * (256 - g)),
          (texAddr clamp (i + 1) d.w, texAddr clamp j d.h, f * (256 - g)), (texAddr clamp i d.w, texAddr clamp (j + 1) d.h, (256 - f) * g),
          (texAddr clamp (i + 1) d.w, texAddr clamp (j + 1) d.h, f * g)].filter (fun t => decide (t.2.2 ≠ 0)))))

/-- R321: what a lane of HGRID reads and gives, level by level: the corners of its cell whose weight is not 0, by the hash, and two
features a register. -/
def Claim.GridLanes : Prop :=
  ∀ (s u v : State) (r : Req) (d : HgDesc) (stack k : Nat) (l : Lane) (ws : List Word) (i : Nat → Int) (f : Nat → Nat),
    let at_ := fun (n : Nat) => { r with extra := n :: r.extra.tail }
    let c := fun a => coordOf l a
    let n := d.res.getD k 1
    let per := if d.f4 then 2 else 1
    let on := fun (m a : Nat) => m / 2 ^ a % 2
    let axis := fun (m a : Nat) => BitVec.ofInt 32 (i a + on m a)
    let hash := fun m => (axis m 0 ^^^ (axis m 1 * 0x8DA6B343) ^^^ (axis m 2 * 0xD8163841)).toNat % d.tsize
    let weight := fun m => ((List.range 3).map (fun a => if on m a = 1 then f a else 65536 - f a)).foldl (· * ·) 1
    let corners := ((List.range 8).filter (fun m => decide (weight m ≠ 0))).map (fun m => (hash m, weight m))
    let es := if d.f4 then 8 else 4
    ((∃ a, a < 3 ∧ isFin32 (c a) = false) → s.hgLane (at_ k) d stack l = (s, .ok (List.replicate (k * per) 0))) ∧
    ((∀ a, a < 3 → isFin32 (c a) = true) → s.hgLane (at_ 0) d stack l = (s, .ok []) ∧
      (∀ e, s.hgLane (at_ k) d stack l = (u, .error e) → s.hgLane (at_ (k + 1)) d stack l = (u, .error e)) ∧
      (s.hgLane (at_ k) d stack l = (u, .ok ws) →
        (∀ a, a < 3 → i a * 2 ^ 149 ≤ fix32 (c a) * n ∧ f a < 65536 ∧ f a * 2 ^ 149 ≤ (fix32 (c a) * n - i a * 2 ^ 149) * 65536 ∧
          (fix32 (c a) * n - i a * 2 ^ 149) * 65536 < (f a + 1) * 2 ^ 149) →
        let reads := u.fltReads (at_ (k + 1)) (r.extra.getD 2 0) stack es
          (corners.map (fun x => (d.toff + (k * d.tsize + x.1) * es, x.2)))
        (∀ e, reads = (v, .error e) → s.hgLane (at_ (k + 1)) d stack l = (v, .error e)) ∧
        (∀ xs, reads = (v, .ok xs) → ∃ w, s.hgLane (at_ (k + 1)) d stack l = (v, .ok (ws ++ w)) ∧ w.length = per ∧ ∀ q, q < 2 * per →
          SumIs F16 F16 48 (xs.map (fun x => (x.1, ofBytes ((x.2.drop (2 * q)).take 2))))
            ((w.getD (q / 2) 0).toNat / 2 ^ (16 * (q % 2)) % 65536))))

/-- R322: reads in turn: one beyond the extent is zeros, one that fails ends them, else the bytes are those of the object's place at its
home. -/
def Claim.FilterReads : Prop :=
  ∀ (s u v : State) (r : Req) (len stack n off w : Nat) (ts : List (Nat × Nat)) (xs : List (Nat × List Byte)) (b : List Byte)
    (ps : List (Nat × Bool × Nat)) (x : Cause),
    s.fltReads r len stack n [] = (s, .ok []) ∧
    (len < off + n → s.fltRead r len stack off n = (s, .outside)) ∧
    (off + n ≤ len → s.pkgPlaces r.fltVia (r.fltCap len) off n true = (u, .ok ps) →
      ((∀ p ∈ ps, p.1 / 2 ^ 36 = stack) → u.readPlaces r.fltVia ps = (v, .ok b) → s.fltRead r len stack off n = (v, .ok b)) ∧
      ((∀ p ∈ ps, p.1 / 2 ^ 36 = stack) → u.readPlaces r.fltVia ps = (v, .fail x) → s.fltRead r len stack off n = (v, .fail x)) ∧
      ((∃ p ∈ ps, p.1 / 2 ^ 36 ≠ stack) → s.fltRead r len stack off n = (u, .fail .refused))) ∧
    (off + n ≤ len → s.pkgPlaces r.fltVia (r.fltCap len) off n true = (u, .fail x) → s.fltRead r len stack off n = (u, .fail x)) ∧
    (s.fltReads r len stack n ts = (u, .ok xs) →
      (∀ y, u.fltRead r len stack off n = (v, .ok y) → s.fltReads r len stack n (ts ++ [(off, w)]) = (v, .ok (xs ++ [(w, y)]))) ∧
      (u.fltRead r len stack off n = (v, .outside) →
        s.fltReads r len stack n (ts ++ [(off, w)]) = (v, .ok (xs ++ [(w, List.replicate n 0)]))) ∧
      (u.fltRead r len stack off n = (v, .fail x) → s.fltReads r len stack n (ts ++ [(off, w)]) = (v, .error (.fail x))))

/-- Lanes in turn, each with its words or its failure. -/
def LanesGo (f : State → Lane → State × Except FRead (List Word)) : State → List Lane → State → List Lane → Prop
  | s, [], t, ks => t = s ∧ ks = []
  | s, l :: ls, t, ks => ∃ u x k kr, f s l = (u, x) ∧ LanesGo f u ls t kr ∧ ks = k :: kr ∧
      ((∃ ws, x = .ok ws ∧ k = { l with stage := .landed, got := (ws.map (fun (w : Word) => toBytes 4 w.toNat)).flatten }) ∨
       (∃ c, x = .error (.fail c) ∧ k = { l with stage := .failed c }))

/-- R217, R316 to R322: FILTER_REQUEST over a failed mesh stop is refused; it waits for what the die's clock names at its home; with an
invalid descriptor, or one outside a tier-0 extent, it gives poison in every register of every lane with the flag ENGINE; with one that
cannot be read every lane fails; else each lane gets its results, as Claim.TexLanes and Claim.GridLanes give them, or its own
failure. -/
def Claim.FilterRequests : Prop :=
  ∀ (s u v w : State) (r : Req) (ps : List (Nat × Bool × Nat)) (b : List Byte) (ls : List Lane) (x : Cause),
    let c := r.fltCap (r.extra.getD (if r.kind = .tex then 3 else 2) 0)
    let ends := fun (t : State) (tag : Bool) (ls : List Lane) => ∃ y q, exec (.filterRequest r.rid) s = .next y ∧
      Tab.find y.reqs r.rid = some q ∧ q.tag = tag ∧ q.lanes = ls ∧ y.dm = t.dm
    let poison := r.lanes.map (fun l => { l with stage := .landed, got := (List.replicate r.regs (toBytes 4 0x7FFFC0DE)).flatten })
    let failed := fun e => r.lanes.map (fun l => { l with stage := .failed e })
    let stack := (ps.headD (0, false, 0)).1 / 2 ^ 36
    Tab.find s.reqs r.rid = some r → r.cancelled = false → r.left = true → r.kind = .tex ∨ r.kind = .hgrid →
    (∀ l ∈ r.lanes, l.stage = .issued) →
    (s.stopFailed r.core = true → ends s false (failed .refused)) ∧
    (s.stopFailed r.core = false → s.homeDone (s.die (r.core / 24)).clock = false → exec (.filterRequest r.rid) s = .next s) ∧
    (s.stopFailed r.core = false → s.fltWaits r = false →
      (s.pkgPlaces r.fltVia c 0 64 false = (u, .fail x) → ends u false (failed x)) ∧
      (s.pkgPlaces r.fltVia c 0 64 false = (u, .ok ps) → u.oneExtent r.fltVia c ps = false → ends u true poison) ∧
      (s.pkgPlaces r.fltVia c 0 64 false = (u, .ok ps) → u.oneExtent r.fltVia c ps = true →
        (u.readPlaces r.fltVia ps = (v, .fail x) → ends v false (failed x)) ∧
        (u.readPlaces r.fltVia ps = (v, .ok b) →
          (r.kind = .tex → TexDesc.parse (ofBytes b) = none → ends v true poison) ∧
          (r.kind = .hgrid → HgDesc.parse (ofBytes b) (r.extra.getD 0 1) (r.extra.getD 1 0 == 1) = none → ends v true poison) ∧
          (∀ d, r.kind = .tex → TexDesc.parse (ofBytes b) = some d → LanesGo (fun s l => s.texLane r d stack l) v r.lanes w ls →
            ends w false ls) ∧
          (∀ d, r.kind = .hgrid → HgDesc.parse (ofBytes b) (r.extra.getD 0 1) (r.extra.getD 1 0 == 1) = some d →
            LanesGo (fun s l => s.hgLane r d stack l) v r.lanes w ls → ends w false ls))))

/-- R217, R316 to R322: the filtering units: the requests, their lanes' results and their reads; a descriptor that breaks a rule of its
table is invalid (a wrong MAGIC too: the model's choice, log entry 106); a coordinate wraps or is clamped into its dimension; the weights of
a bilinear sample sum to 2^16 and those of a level's corners to 2^48. -/
def Obligations.Filtering : Prop :=
  Claim.FilterRequests ∧ Claim.TexLanes ∧ Claim.GridLanes ∧ Claim.FilterReads ∧
  (∀ x : Nat, (x % 8 ≥ 4 ∨ x / 2 ^ 3 % 2 ^ 13 ≠ 0 ∨ x / 2 ^ 16 % 2 ^ 16 ≠ 0x5458 ∨ x / 2 ^ 136 % 2 ^ 376 ≠ 0 → TexDesc.parse x = none) ∧
    (∀ d, TexDesc.parse x = some d → d.fmt = x % 8 ∧ d.w = x / 2 ^ 32 % 2 ^ 16 + 1 ∧ d.h = x / 2 ^ 48 % 2 ^ 16 + 1 ∧
      d.pitch = x / 2 ^ 64 % 2 ^ 32 ∧ d.toff = x / 2 ^ 96 % 2 ^ 40 ∧ d.pitch % texSize d.fmt = 0 ∧ d.w * texSize d.fmt ≤ d.pitch ∧
      d.toff % texSize d.fmt = 0)) ∧
  (∀ (clamp : Bool) (i : Int) (n : Nat), 0 < n → texAddr clamp i n < n ∧
    (0 ≤ i → i < n → texAddr clamp i n = i.toNat) ∧ (i < 0 → texAddr true i n = 0) ∧ (n ≤ i → texAddr true i n = n - 1) ∧
    texAddr false (i + n) n = texAddr false i n) ∧
  (∀ (d : TexDesc) (clamp lin : Bool) (u v : Word), ((texTerms d clamp lin u v).map (fun t => t.2.2)).sum = 65536) ∧
  (∀ (n tsize : Nat) (x y z : Word), 0 < tsize → ((hgCorners n tsize [x, y, z]).map (fun t => t.2)).sum = 2 ^ 48 ∧
    ∀ t ∈ hgCorners n tsize [x, y, z], t.1 < tsize)

/-! ### Launch, queues, tenants, the context switch (R349 to R361) -/

/-- R238, R357: LAUNCH is held by a fence, traps on a misaligned record, does nothing but clear its predicate and set LNEST at DEPTH 10, does not issue with
a full child table or counter, and else sets its predicate, takes a child entry and sends its command. EVSIG sends one reduction
for the counter and amount of its operands.
The detail of that trap and the form of EVSIG's reduction are the model's reading (log entries 45 and 56). -/
def Claim.LaunchWords : Prop :=
  ∀ (s : State) (pd : PReg) (a : Fin 63) (ac : Fin 16) (x y : SOpt),
    let p := s.pane
    let addr := (p.sreg a.val).toNat + (p.sreg (a.val + 1)).toNat % 2 ^ 24 * 2 ^ 32
    (s.memMayIssue = false → exec (.launch pd a ac) s = .next (held s)) ∧
    (s.memMayIssue = true →
    (addr % 256 ≠ 0 → exec (.launch pd a ac) s = .next (takeTrap 0x08 (BitVec.ofNat 32 (a.val % 32 * 32)) s)) ∧
    (addr % 256 = 0 → p.depth = 10 → ∃ t, exec (.launch pd a ac) s = .next t ∧
      t = { s with pane := { p with p := t.pane.p, xstat := t.pane.xstat } } ∧ PredIs p t.pane pd 0 ∧
      ∀ k, k < 32 → (bit t.pane.xstat k = true ↔ bit p.xstat k = true ∨ k = 7)) ∧
    (addr % 256 = 0 → p.depth ≠ 10 → 4096 ≤ s.children ∨ p.ac.getD ac.val 0 = 255 → exec (.launch pd a ac) s = .next (held s)) ∧
    (addr % 256 = 0 → p.depth ≠ 10 → s.children < 4096 → p.ac.getD ac.val 0 ≠ 255 →
      ∃ t c, exec (.launch pd a ac) s = .next t ∧ Tab.find t.cmds s.nextRid = some c ∧ c.i = .launch pd a ac ∧ c.id = s.nextRid ∧ c.base = addr ∧
        c.grid = p.grid ∧ c.pid = p.pid ∧ c.ac = some ac ∧
        t = { s with pane := { p with ac := t.pane.ac, p := t.pane.p, sPend := t.pane.sPend }, cmds := t.cmds,
                     nextRid := s.nextRid + 1, children := s.children + 1 } ∧
        t.pane.ac = setAt p.ac ac.val (p.ac.getD ac.val 0 + 1) ∧ t.pane.sPend = p.sPend ∧ PredIs p t.pane pd 0xFFFFFFFF)) ∧
    (CanSend s {} none true → ∃ t r, exec (.evsig x y) s = .next t ∧ Sent s t r {} false ∧ r.kind = .sig ∧ r.ac = none ∧
      r.entry = true ∧ r.lanes = [{ lane := 0, addr := (x.val p).toNat, data := toBytes 4 (y.val p).toNat, mask := 1 }])

/-- A TLP through a TDI's MMIO space that does not reach a register of a partition (R375, R393): that TDI is another, or it is in RUN
and the TLP comes without IDE. -/
def Barred (s : State) (part : Nat) (ide : Bool) (tdi : Option Nat) : Prop :=
  ∃ p, tdi = some p ∧ (p ≠ part ∨ (ide = false ∧ (s.part p).tdi = 2))

/-- R351, R353 to R356, R375, R393: the queues and the dispatcher. A tail more than the ring's size ahead stops its queue; a host write sets
a counter; through a TDI's space neither is taken for another partition, nor without IDE while it is in RUN; an invalid head record is passed over; a valid one that is the next choice becomes a live grid and the head moves, as
does the oldest child grid's; a team is placed whole with a scratchpad of zeros and idle barriers.
That die 0 reads the records, which grid number comes next, where a scratchpad lies and the cause codes of a TDI's record are the
model's (log entries 52, 23, 27 and 70). -/
def Claim.Dispatcher : Prop :=
  ∀ (s t : State) (n gid core off : Nat) (tail : Tlp 32) (v : Tlp 64) (g : Grid),
    let q := Tab.getD s.queues n {}
    let w := Tab.getD s.ctrs n {}
    (n < 32768 → ¬ Barred s q.part tail.ide tail.tdi → ∃ u, exec (.wqtailWrite n tail) s = .next u ∧ u = { s with queues := u.queues } ∧
      Tab.find u.queues n = some { q with tail := tail.value, clock := mergeClock q.clock s.hostClock,
                                          err := q.err || decide (2 ^ q.logsz < (tail.value - q.head).toNat) } ∧
      ∀ m, m ≠ n → Tab.find u.queues m = Tab.find s.queues m) ∧
    (n < 32768 → Barred s q.part tail.ide tail.tdi → exec (.wqtailWrite n tail) s = .next s) ∧
    (n < 65535 → ¬ Barred s w.owner v.ide v.tdi → ∃ u, exec (.eventCounterWrite n v) s = .next u ∧ u = { s with ctrs := u.ctrs } ∧
      Tab.find u.ctrs n = some { w with value := v.value, clock := mergeClock w.clock s.hostClock } ∧
      ∀ m, m ≠ n → Tab.find u.ctrs m = Tab.find s.ctrs m) ∧
    (n < 65535 → Barred s w.owner v.ide v.tdi → exec (.eventCounterWrite n v) s = .next s) ∧
    (n < 32768 → Tab.find s.queues n = some q → s.queueOpen q = true →
      (s.readHead n q = (t, .bad) → t.queues = s.queues →
        ∃ u, exec (.gridStart n) s = .next u ∧ Tab.find u.queues n = some { q with head := q.head + 1 } ∧ u.grids = t.grids) ∧
      (s.readHead n q = (t, .ok g) → t.queues = s.queues → s.nextStart = some (false, n) →
        ∃ u x, exec (.gridStart n) s = .next u ∧ Tab.find u.queues n = some { q with head := q.head + 1 } ∧
          Tab.find u.grids t.nextGrid = some x ∧ x.started = true ∧ x.entry = g.entry ∧ x.nteam = g.nteam ∧ x.prio = g.prio ∧
          u.nextGrid = t.nextGrid + 1 ∧ u.dm = t.dm)) ∧
    (s.nextStart = some (true, gid) → Tab.find s.grids gid = some g →
      ∃ u x, exec (.gridStart (32768 + gid)) s = .next u ∧ Tab.find u.grids gid = some x ∧ x.started = true ∧ x.entry = g.entry ∧
        gid ∉ u.accepted ∧ u.children = s.children - 1 ∧ u.queues = s.queues) ∧
    (Tab.find s.grids gid = some g → g.started = true → g.placed < g.nteam → s.teamWaits g.part g.prio (some gid) none = false →
      s.nextCore g = some core → s.scratchAt core g.scratch = some off →
      ∃ u x, exec (.teamPlacement gid) s = .next u ∧ u.team gid g.placed = some x ∧ x.home = some core ∧ x.part = g.part ∧
        x.scratch = g.scratch ∧ x.bars = List.replicate 16 {} ∧ u.dm = s.dm ∧
        ∀ b, b < g.scratch → Mem.read u.ds (sliceBase core + off + b) = 0)

/-- R352, R357, R358: LAUNCH_ACCEPT makes a grid of the parent's partition, priority and DEPTH + 1 wait in acceptance order, or
refuses it with the error flag, and the counter falls; a grid that may retire leaves and its counter advances by SIGINC.
The number of a grid and when EVSIG's reductions are over are the model's reading (log entries 23 and 56). -/
def Claim.LaunchAndRetirement : Prop :=
  ∀ (s u : State) (c : Cmd) (pd : PReg) (a : Fin 63) (k : Fin 16) (g x : Grid) (gid : Nat),
    (Tab.find s.cmds c.id = some c → c.i = .launch pd a k → c.ac = some k → s.cmdReady c = true → s.cmdRefused c = false → Tab.find s.grids c.grid = some g →
      s.pane.pid = c.pid → s.pane.place.live = true → k.val < s.pane.ac.length → u.pane = s.pane → u.cmds = s.cmds →
      (s.readLaunch { c.via with again := true, hold := true } c.base g.prio (g.depth + 1) (some c.grid) = (u, .bad) →
        ∃ t, exec (.launchAccept c.core c.id) s = .next t ∧ Tab.find t.cmds c.id = none ∧ t.children = u.children - 1 ∧
          t.grids = u.grids ∧ t.pane.acEng.getLsbD k.val = true ∧
          t.pane.ac.getD k.val 0 = s.pane.ac.getD k.val 0 - 1) ∧
      (s.readLaunch { c.via with again := true, hold := true } c.base g.prio (g.depth + 1) (some c.grid) = (u, .ok x) →
        ∃ t y, exec (.launchAccept c.core c.id) s = .next t ∧ Tab.find t.cmds c.id = none ∧
          Tab.find t.grids u.nextGrid = some y ∧ y = { x with clock := y.clock } ∧ t.accepted = u.accepted ++ [u.nextGrid] ∧
          t.children = u.children ∧ t.pane.acEng = s.pane.acEng ∧ t.pane.ac.getD k.val 0 = s.pane.ac.getD k.val 0 - 1)) ∧
    (Tab.find s.grids gid = some g → s.mayRetire gid g = true →
      ∃ t, exec (.gridRetirement gid) s = .next t ∧ Tab.find t.grids gid = none ∧ t.dm = s.dm ∧ t.pane = s.pane ∧
        (g.sigctr = 0xFFFF → t.ctrs = s.ctrs) ∧
        (g.sigctr ≠ 0xFFFF → (Tab.getD t.ctrs g.sigctr {}).value = (Tab.getD s.ctrs g.sigctr {}).value + BitVec.ofNat 64 g.siginc ∧
          ∀ n, n ≠ g.sigctr → Tab.find t.ctrs n = Tab.find s.ctrs n))

/-- R216, R359, R360: the bandwidth tick fills no bucket above 65,536 and empties none; a switch makes every pane of its core leave, and
stops with ERR and a record at the first that lacks a save record, with those before it gone; it ends when the core is empty, where
the cluster's last core writes its barriers to their block, from whose bytes they come back (their layout is the model's, log entry 12); PART is written only while PART = 0 and
BUSY = 0 and loads the spawn timer and a slice of zeros.
The order in which a switch takes the panes, and the zeros of the slice, are the model's reading (log entries 50, 29 and 51). -/
def Claim.SharesAndSwitches : Prop :=
  ∀ (s : State) (core : Nat) (w : BitVec 8),
    let c := s.core core
    let formed := (List.range 16).foldl (fun s b => s.formBin core b)
      (s.modCore core (fun c => { c.settleBins s.cycle false with busy := true, out := true }))
    let leaving := (formed.corePanes core).filter (fun p => p.inCore && !p.moving)
    (s.lastBand < s.cycle / 1024 → ∃ t, exec .bandwidthTick s = .next t ∧ t = { s with buckets := t.buckets, lastBand := s.cycle / 1024 } ∧
      ∀ b, Tab.getD s.buckets b 0 ≤ 65536 → Tab.getD s.buckets b 0 ≤ Tab.getD t.buckets b 0 ∧ Tab.getD t.buckets b 0 ≤ 65536) ∧
    (c.part ≠ 0 → c.busy = false →
      (∀ u, leaving.foldlM State.leaveOne formed = some u → exec (.contextSwitchOut core) s = .next u) ∧
      (∀ u p qs ps, leaving = ps ++ p :: qs → ps.foldlM State.leaveOne formed = some u → u.leaveOne p = none →
        ∃ t r, exec (.contextSwitchOut core) s = .next t ∧ (t.core core).err = true ∧ (t.core core).busy = false ∧
          (t.core core).out = false ∧ t.records = u.records ++ [r] ∧ r.typ = 0x09 ∧ t.panes = u.panes)) ∧
    (c.out = true → s.coreEmpty core = true → s.homeTeams core = [] →
      (s.clusterRuns core c.part = true →
        ∃ t, exec (.contextSwitchComplete core) s = .next t ∧
          t = { s with cores := t.cores, answered := t.answered, parkQ := t.parkQ } ∧
          t.core core = { c with part := 0, busy := false, out := false, timer := 0 }) ∧
      (∀ u, s.clusterRuns core c.part = false → s.clLoading (core / 6) c.part = false → (s.part c.part).clbV = true →
        s.writeVA (switchVia core c.part) (s.clBlock core c.part) ((s.clBars (core / 6) c.part).flatMap Bar.bytes) = (u, .ok ()) →
        u.core core = c → ∃ t, exec (.contextSwitchComplete core) s = .next t ∧ t.dm = u.dm ∧
          Tab.find (t.cluster (core / 6)).sets c.part = none ∧ core / 6 ∈ (t.part c.part).clbSaved ∧
          t.core core = { c with part := 0, busy := false, out := false, timer := 0 })) ∧
    (∀ bs : List Bar, bs.length = 16 → (∀ b ∈ bs, b.phase < 2 ^ 32 ∧ b.grid < 2 ^ 32 ∧ b.count < 2 ^ 16 ∧ b.last = 0 ∧ b.past = [] ∧
        ∀ n, b.total = some n → n < 65535) →
      (List.range 16).map (fun k => Bar.ofBytes (((bs.flatMap Bar.bytes).drop (16 * k)).take 16)) = bs) ∧
    (core < 1536 → w ≠ 0 → c.part = 0 → c.busy = false →
      ∃ t, exec (.corectxPartWrite core w) s = .next t ∧ t.core core = { c with part := w.toNat, timer := (s.part w.toNat).spn } ∧
        (∀ b, b < 524288 → Mem.read t.ds (sliceBase core + b) = 0) ∧ t.dm = s.dm) ∧
    (core < 1536 → c.part ≠ 0 ∨ c.busy = true ∨ w = 0 → exec (.corectxPartWrite core w) s = .next s)

/-! ### The fabric and collectives (R362 to R373, R379) -/

/-- R362 to R365: what a flit, an idle flit, a window, a retry request, a sealed message and a message to send do to their port and
session. A bad CRC asks for a retry; a flit out of its link order changes nothing; a reserved one is counted and does no more;
another brings its event. A flit resent 8 times fails the link, and the requests that have not crossed it are refused. A message beyond the window is
counted; one that fails its tag or number ends its session; one of link management on virtual lane 4 is for the SPDM responder (the
model's choice of session 0: log entry 40); one to send waits for its window, and is then sealed under the session's number at the
receiving port.
The parameters of the CRC, the repeated flit, the numbers after training and the retry flit are the model's (log entry 38), one message
for each flit too (log entry 65), and a payload is open (log entry 40). -/
def Obligations.Flits : Prop :=
  ∀ (s : State) (k vl n lack : Nat) (f : Flit),
    let p := s.port k
    let h := FlitHead.parse (ofBytes (f.bytes.take 32))
    let resent := (p.acked lack).unacked
    p.up = true →
    exec (.idleFlit k) s = .next s ∧
    (vl < 8 → n ≤ 1024 → ∃ t, exec (.windowUpdate k vl n) s = .next t ∧ (p.sendQ = [] → t = { s with ports := t.ports } ∧
      t.port k = { p with txWin := setAt p.txWin vl n, txUsed := setAt p.txUsed vl 0 })) ∧
    (p.failed = false → f.bytes.length = 256 →
      (flitCrcOk f = false → ∃ t, exec (.flitReceive k f) s = .next t ∧ t = { s with ports := t.ports } ∧
        (t.port k).reqOut = true ∧ (t.port k).expect = p.expect ∧ (t.port k).lseq = (p.lseq + 1) % 65536 ∧
        ∃ b, (t.port k).unacked = p.unacked ++ [⟨p.lseq, 0, b, none⟩] ∧ b.length = 256 ∧ (FlitHead.parse (ofBytes (b.take 32))).kind = 3 ∧
          (p.lack < 65536 → (FlitHead.parse (ofBytes (b.take 32))).lack = p.lack)) ∧
      (flitCrcOk f = true → h.lseq ≠ p.expect → exec (.flitReceive k f) s = .next s) ∧
      (flitCrcOk f = true → h.lseq = p.expect → h.rsv = true ∨ 4 ≤ h.kind → ∃ t, exec (.flitReceive k f) s = .next t ∧
        t = { s with ports := t.ports } ∧ t.port k = { p with expect := (p.expect + 1) % 65536, lack := h.lseq, reqOut := false,
                                                              dropped := min (p.dropped + 1) 0xFFFFFFFF }) ∧
      (flitCrcOk f = true → h.lseq = p.expect → h.rsv = false → h.kind < 4 → ∃ t x, exec (.flitReceive k f) s = .next t ∧
        t.agenda = s.agenda ++ [x] ∧ (h.kind = 0 → x = .idleFlit k) ∧ (h.kind = 1 → x = .sealedMessage k f) ∧
        (h.kind = 2 → x = .windowUpdate k h.wvl h.win) ∧ (h.kind = 3 → x = .linkRetryRequest k h.lack) ∧
        (p.sendQ = [] → t = { s with ports := t.ports, agenda := t.agenda } ∧ (t.port k).expect = (p.expect + 1) % 65536 ∧
          (t.port k).lack = h.lseq ∧ (t.port k).dropped = p.dropped ∧ (t.port k).unacked = (p.acked h.lack).unacked ∧
          (h.kind ≠ 2 → (t.port k).txWin = setAt p.txWin h.wvl h.win)))) ∧
    (p.failed = false →
      ((∀ x ∈ resent, x.resent < 8) → ∃ t, exec (.linkRetryRequest k lack) s = .next t ∧ t = { s with ports := t.ports } ∧
        (t.port k).unacked = resent.map (fun x => { x with resent := x.resent + 1 }) ∧
        (t.port k).retry = min (p.retry + resent.length) 0xFFFFFFFF ∧ (t.port k).failed = false) ∧
      ((∃ x ∈ resent, 8 ≤ x.resent) → ∃ t, exec (.linkRetryRequest k lack) s = .next t ∧ (t.port k).failed = true ∧ t.dm = s.dm ∧
        ∀ x ∈ resent, ∀ rid lane q, x.req = some (rid, lane) → Tab.find t.reqs rid = some q → ∀ l ∈ q.lanes, l.lane = lane →
          l.stage ≠ .queued)) ∧
    (p.rxWin.getD h.vl 0 ≤ p.rxUsed.getD h.vl 0 → ∃ t r, exec (.sealedMessage k f) s = .next t ∧ t.sessions = s.sessions ∧
      (t.port k).dropped = min (p.dropped + 1) 0xFFFFFFFF ∧ t.records = s.records ++ [r] ∧ r.typ = 0x07) ∧
    (p.rxUsed.getD h.vl 0 < p.rxWin.getD h.vl 0 → h.session = 0 → h.vl = 4 → ∃ t, exec (.sealedMessage k f) s = .next t ∧
      t = { s with ports := t.ports, spdm := { s.spdm with via := some k } }) ∧
    (p.rxUsed.getD h.vl 0 < p.rxWin.getD h.vl 0 → h.session ≠ 0 ∨ h.vl ≠ 4 →
      ((∀ x ∈ s.sessions, x.port = k → x.num = h.session → x.failed = true) → ∃ t, exec (.sealedMessage k f) s = .next t ∧
        t = { s with ports := t.ports } ∧ (t.port k).authfail = min (p.authfail + 1) 0xFFFFFFFF) ∧
      (∀ x, s.sessions.find? (fun x => x.num == h.session && x.port == k) = some x → x.failed = false →
        let good := h.seq = x.rxSeq + 1 ∧ (Config.sealOpen x.key (nonceOf x.num (s.dirIn x) h.seq) f.bytes).isSome = true
        ∃ t, exec (.sealedMessage k f) s = .next t ∧
          (good → t = { s with ports := t.ports, sessions := t.sessions } ∧
            ∀ y ∈ t.sessions, y.num = x.num → y.port = x.port → y.rxSeq = h.seq) ∧
          (¬ good → t.dm = s.dm ∧ (t.port k).authfail = min (p.authfail + 1) 0xFFFFFFFF ∧
            ∀ y ∈ t.sessions, y.num = x.num → y.port = x.port → y.failed = true))) ∧
    (∀ (x : Session) (msg : List Nat) (req : Option (Nat × Nat)), x.port = k → p.sendQ = [] →
      (p.txWin.getD vl 0 ≤ p.txUsed.getD vl 0 →
        (s.sendFlit x vl msg req).port k = { p with sendQ := [⟨x.num, vl, Config.message msg, req⟩] }) ∧
      (p.txUsed.getD vl 0 < p.txWin.getD vl 0 → x.num ≠ 0 →
        s.sessions.find? (fun y => y.num == x.num && y.port == k && !y.failed && decide (y.txSeq < 2 ^ 64 - 1)) = some x →
        ∃ b, ((s.sendFlit x vl msg req).port k).unacked = p.unacked ++ [⟨p.lseq, 0, b, req⟩] ∧
          let g := FlitHead.parse (ofBytes (b.take 32))
          g.kind = 1 ∧ g.vl = vl % 8 ∧ g.session = x.rnum % 65536 ∧ g.seq = x.txSeq + 1))

/-- R220, R366, R367: a peer's request that has no object, is misaligned, passes the object's end or is not translated is answered
with CAUSE 3 and writes nothing; one that reaches its object enters the write order with its package's number and stamp, stands at its
channel and is acknowledged (log entry 64 numbers the packages); an acknowledgement and a failure report bring a request's lanes to their end; a report that comes after the acknowledgement has freed the
entry is recorded too (log entry 64). -/
def Obligations.PeerRequests : Prop :=
  ∀ (s t u : State) (r : PeerReq) (q : Req) (o : Obj) (pa : Nat) (t1 : Bool) (e : Cause) (x : Session) (lanes : BitVec 32),
    let n := r.size.bytes
    let die := 4 * (x.port / 2)
    let v : Via := { who := .peer x.port, die := die, part := r.part, write := true }
    (s.route r.part r.peer r.ppart = some x → n ≤ r.data.length → s.pmFresh r = true →
      (s.lookupObj die r.part r.obj = (t, none) → ∃ w, exec (.pmRequest r) s = .next w ∧ w.ackOut = t.ackOut ++ [(r, some 3)] ∧ w.dm = t.dm) ∧
      (s.lookupObj die r.part r.obj = (t, some o) →
        (r.off % n ≠ 0 ∨ o.len < r.off + n →
          ∃ w, exec (.pmRequest r) s = .next w ∧ w.ackOut = t.ackOut ++ [(r, some 3)] ∧ w.dm = t.dm) ∧
        (r.off % n = 0 → r.off + n ≤ o.len →
          (t.unitObj v r.obj (o.vbase + r.off) = (u, .fail e) →
            ∃ w, exec (.pmRequest r) s = .next w ∧ w.ackOut = u.ackOut ++ [(r, some 3)] ∧ w.dm = u.dm) ∧
          (t.unitObj v r.obj (o.vbase + r.off) = (u, .ok (pa, t1)) →
            ∃ w c a, exec (.pmRequest r) s = .next w ∧ w.ackOut = u.ackOut ++ [(r, none)] ∧ w.dm = u.dm ∧
              w.chanQ = u.chanQ ++ [c] ∧ c.pa = pa ∧ c.tier1 = t1 ∧ c.part = r.part ∧ c.num = r.num ∧ c.die = 128 + r.peer ∧
              (r.red = none → c.kind = .store ∧ c.bytes = r.data.take n) ∧
              (∀ op, r.red = some op → c.kind = .rmw ∧ c.op = op ∧ c.bytes = r.data) ∧
              w.ref.applyQ = u.ref.applyQ ++ [a] ∧ a.src = 128 + r.peer ∧ a.num = r.num ∧ a.stamp = r.stamp ∧ a.done = false)))) ∧
    (Tab.find s.reqs q.rid = some q → q.space = .pm → q.accepted = true →
      (∃ w x, exec (.pmAck q.rid) s = .next w ∧ w = { s with reqs := w.reqs } ∧ Tab.find w.reqs q.rid = some x ∧
        x.destAccepted = true ∧ (∀ l ∈ x.lanes, l.stage ≠ .queued) ∧ x.lanes.map (fun l => l.lane) = q.lanes.map (fun l => l.lane)) ∧
      (∀ cause, cause = 2 ∨ cause = 3 → ∃ w x, exec (.pmFailureReport q.rid lanes cause) s = .next w ∧
        w = { s with reqs := w.reqs } ∧ Tab.find w.reqs q.rid = some x ∧
        (∀ l ∈ x.lanes, bit lanes l.lane = true → l.isFailed = true) ∧ x.lanes.map (fun l => l.lane) = q.lanes.map (fun l => l.lane))) ∧
    (∀ cause l, cause = 2 ∨ cause = 3 → Tab.find s.reqs q.rid = none → Tab.find s.pmDone q.rid = some q → q.rid < s.nextRid → q.lanes = [l] →
      l.stage = .landed → bit lanes l.lane = true → l.mask ≠ 0 →
      ∃ w x, exec (.pmFailureReport q.rid lanes cause) s = .next w ∧ w.records = s.records ++ [x] ∧ x.typ = 0x02 ∧ x.part = q.part ∧
        x.detail[6]? = some l.mask ∧ x.detail[7]? = some (BitVec.ofNat 32 cause) ∧ w.dm = s.dm)

/-- R238, R369, R371: COLL is held by a fence or a pending capability, traps on a descriptor out of range with the word as detail, is held by a full
counter or base die, and else captures its capabilities and descriptor. -/
def Claim.CollWord : Prop :=
  ∀ (s : State) (op : CollOp) (d : Option (Fin 63)) (a : Fin 57) (ac : Fin 16),
    let p := s.pane
    let w := fun k => p.sreg (a.val + k)
    let cr := fun k => (w 0).toNat / 32 ^ k % 32
    let cap := fun k => p.creg (cr k)
    let off := fun k => (w k).toNat
    let count := (w 4).toNat
    let legal := (w 0).toNat < 2 ^ 20 ∧ w 7 = 0 ∧ 1 ≤ (w 5).toNat ∧ (w 5).toNat ≤ 0x0FFFFFFF ∧ (w 6).toNat ≤ 63 ∧
      (op ≠ .bcast → w 6 = 0) ∧ (if op = .skadd then count = 0 else 1 ≤ count ∧ count ≤ 2 ^ 24)
    let serves := (∀ k, k < 4 → (cap k).tag = true ∧ (cap k).key = p.part ∧ (cap k).rights.getLsbD (if k < 2 then 0 else 1) = true) ∧
      off 3 % 4 = 0 ∧ (op = .skadd → ((cap 1).base + off 1) % 64 = 0 ∧ ((cap 2).base + off 2) % 64 = 0) ∧
      64 ≤ (cap 0).len ∧ off 1 + 4 * count ≤ (cap 1).len ∧ off 2 + 4 * count ≤ (cap 2).len ∧ off 3 + 4 ≤ (cap 3).len
    let g := s.collBase { who := .cmd s.nextRid, die := p.core / 24, part := p.part } (cap 2) (off 2)
    let full := p.ac.getD ac.val 0 = 255 ∨ (g < 16 ∧ 64 ≤ ((Tab.vals s.colls).filter (fun c => c.base == g)).length)
    (s.memMayIssue = false ∨ (∃ k, k < 4 ∧ bit p.cPend (cr k) = true) → exec (.coll op d a ac) s = .next (held s)) ∧
    (s.memMayIssue = true → (∀ k, k < 4 → bit p.cPend (cr k) = false) →
      (¬ legal → exec (.coll op d a ac) s = .next (takeTrap 0x03 s.word s)) ∧
      (legal → serves → full → exec (.coll op d a ac) s = .next (held s)) ∧
      (legal → serves → ¬ full → ∃ t c, exec (.coll op d a ac) s = .next t ∧ Tab.find t.colls s.nextRid = some c ∧ c.cmd.i = .coll op d a ac ∧
        c.cmd.id = s.nextRid ∧ c.cmd.pid = p.pid ∧ c.cmd.ac = some ac ∧ c.base = g ∧ c.started = false ∧ c.code = 0 ∧
        (∀ k, k < 4 → c.cap k = cap k) ∧ (∀ k, k < 8 → c.cmd.word k = w k) ∧
        t = { s with pane := { p with ac := t.pane.ac, sPend := t.pane.sPend }, colls := t.colls, nextRid := s.nextRid + 1 } ∧
        t.pane.ac = setAt p.ac ac.val (p.ac.getD ac.val 0 + 1)))

/-- R370 to R373: the steps of a collective. An invalid group record gives code 2, an unreadable one code 1; a rank that owns a
chunk not sends its elements to the owner, with its partition, its group and what this rank has seen; a contribution before its COLL
is kept, one that disagrees gives code 2, a result is written to the destination. Every rank contributes to every chunk before its result
goes out; of a broadcast a rank other than the root sends its parameters and what it has seen alone (log entry 105).
The order of the contributions and the codes of a record and a bound found late are the model's reading (log entry 67). -/
def Claim.CollSteps : Prop :=
  ∀ (s u : State) (c : Coll) (m : CollMsg) (b : List Byte),
    let id := c.cmd.id
    let heard := { c with clock := mergeClock c.clock m.clock }
    (Tab.find s.colls id = some c → c.code = 0 → (s.base c.base).frozen = false → u.colls = s.colls →
      (c.started = false → s.cmdReady c.cmd = true → s.collElder c = false → s.cmdRefused c.cmd = false → c.base ≠ 16 →
        (s.groupRecord c = (u, .ok none) → ∃ t, exec (.collStart id) s = .next t ∧ t = { u with colls := t.colls } ∧
          Tab.find t.colls id = some { c with code := 2 }) ∧
        (∀ e, s.groupRecord c = (u, .fail e) → ∃ t, exec (.collStart id) s = .next t ∧ t = { u with colls := t.colls } ∧
          Tab.find t.colls id = some { c with code := 1 }) ∧
        (∀ ranks me, s.groupRecord c = (u, .ok (some (ranks, me))) → c.fits ranks.length = true → u.collTwin c ranks = false →
          (∀ r ∈ ranks.zipIdx, r.2 = me ∨ (u.route c.cmd.part r.1.1 r.1.2).isSome = true) → isSkadd c.op = false →
          ∃ t, exec (.collStart id) s = .next t ∧ t.dm = u.dm ∧
            Tab.find t.colls id = some { c with started := true, ranks := ranks, myrank := me, hdr := [], sat := 0 })) ∧
      (c.started = true → c.next < c.chunks → c.op ≠ .bcast ∨ c.myrank = c.root →
        s.pkgRead c.cmd.viaB (c.cap 1) (c.off 1 + c.pad + 192 * c.next) (4 * c.chunkLen c.next) false = (u, .ok b) →
        c.next % c.ranks.length ≠ c.myrank →
        ∃ t x, exec (.collStart id) s = .next t ∧ t.dm = u.dm ∧ Tab.find t.colls id = some { c with next := c.next + 1 } ∧
          t.collOut = u.collOut ++ [(c.next % c.ranks.length, x)] ∧ x.tag = c.tag ∧ x.rank = c.myrank ∧ x.chunk = c.next ∧
          x.result = false ∧ x.group = c.ranks ∧ x.dest = (c.ranks.getD (c.next % c.ranks.length) (0, 0)).2 ∧
          x.clock = mergeClock c.clock (u.die c.cmd.die).clock ∧ x.elems.length = c.chunkLen c.next ∧
          ∀ k, k < c.chunkLen c.next → x.elems.getD k 0 = BitVec.ofNat 32 (ofBytes ((b.drop (4 * k)).take 4))) ∧
      (c.started = true → c.next < c.chunks → c.op = .bcast → c.myrank ≠ c.root → c.next % c.ranks.length ≠ c.myrank →
        ∃ t x, exec (.collStart id) s = .next t ∧ t.dm = s.dm ∧ Tab.find t.colls id = some { c with next := c.next + 1 } ∧
          t.collOut = s.collOut ++ [(c.next % c.ranks.length, x)] ∧ x.tag = c.tag ∧ x.rank = c.myrank ∧ x.chunk = c.next ∧
          x.op = .bcast ∧ x.count = (c.cmd.word 4).toNat ∧ x.root = c.root ∧ x.group = c.ranks ∧ x.elems = [] ∧
          x.clock = mergeClock c.clock (s.die c.cmd.die).clock)) ∧
    (∀ k fold rs, Tab.find c.folds k = some (fold, rs) → (c.whole k = true ↔ ∀ r, r < c.ranks.length → r ∈ rs)) ∧
    ((∀ x ∈ Tab.vals s.colls, x.hears m = false) →
      exec (.collContribution m) s = .next { s with collEarly := s.collEarly ++ [m] }) ∧
    (c.hears m = true → c.started = true ∧ c.cmd.part = m.dest ∧ c.tag = m.tag ∧ c.ranks = m.group ∧
      c.ranks[m.rank]? = some (m.pkg, m.part)) ∧
    ((Tab.vals s.colls).find? (fun x => x.hears m) = some c → Tab.find s.colls id = some c → c.code = 0 →
      (c.agrees m = false ∨ c.chunks ≤ m.chunk → ∃ t, exec (.collContribution m) s = .next t ∧ t = { s with colls := t.colls } ∧
        Tab.find t.colls id = some { heard with code := 2 }) ∧
      (c.agrees m = true → m.chunk < c.chunks → m.result = true → m.chunk ∉ c.got → c.op ≠ .gath →
        (s.modColl id (fun c => { c with clock := mergeClock c.clock m.clock })).pkgWrite c.cmd.viaB (c.cap 2)
          (c.off 2 + c.pad + 192 * m.chunk) ((m.elems.take (c.chunkLen m.chunk)).map (fun x => toBytes 4 x.toNat)).flatten false =
            (u, .ok ()) → Tab.find u.colls id = some heard →
        ∃ t, exec (.collContribution m) s = .next t ∧ t.dm = u.dm ∧
          Tab.find t.colls id = some { heard with got := c.got ++ [m.chunk], sat := c.sat ||| bits (m.header.getD 3 0) 0 7 }))

/-- R373: a collective ends with its completion word, its status pair, its counter and, for a code other than 0, the error flag; a
timeout is reported once; a reset of the link engines gives its collectives code 3. -/
def Claim.CollEnds : Prop :=
  ∀ (s u : State) (c : Coll) (op : CollOp) (d : Fin 63) (a : Fin 57) (k : Fin 16) (g : Nat),
    let id := c.cmd.id
    (Tab.find s.colls id = some c → c.cmd.i = .coll op (some d) a k → c.cmd.ac = some k → s.quietSys c.cmd.pid c.cmd.mark = true →
      (s.die c.cmd.die).covers c.clock = true → (c.code = 2 → c.sends = false) →
      (c.code ≠ 0 ∨ (c.started = true ∧ (∀ j, j < c.chunks → j ∈ c.got) ∧ c.chunks ≤ c.next ∧ op ≠ .skadd)) →
      s.pkgWrite c.cmd.viaB (c.cap 3) (c.off 3) (toBytes 4 (c.code * 2 ^ 28 + c.tag)) false = (u, .ok ()) →
      u.pane = s.pane → s.pane.pid = c.cmd.pid → s.pane.place.live = true → d.val + 1 < s.pane.s.length → k.val < s.pane.ac.length →
      ∃ t, exec (.collComplete id) s = .next t ∧ Tab.find t.colls id = none ∧ t.dm = u.dm ∧
        t.pane.sreg d.val = BitVec.ofNat 32 (c.code * 2 ^ 28) ∧ t.pane.sreg (d.val + 1) = BitVec.ofNat 32 c.tag ∧
        t.pane.ac.getD k.val 0 = s.pane.ac.getD k.val 0 - 1 ∧
        (t.pane.acEng.getLsbD k.val = true ↔ s.pane.acEng.getLsbD k.val = true ∨ c.code ≠ 0)) ∧
    (Tab.find s.colls id = some c → c.started = true → c.warned = false → c.code = 0 → (s.base c.base).frozen = false →
      ∃ t, exec (.collTimeout id) s = .next t ∧ Tab.find t.colls id = some { c with warned := true } ∧ t.dm = s.dm) ∧
    ((∀ x ∈ Tab.vals s.colls, x.base ≠ g) → exec (.lnkengReset g) s = .next s) ∧
    ((Tab.vals s.colls).filter (fun x => x.base == g) = [c] → Tab.find s.colls id = some c → s.quietSys c.cmd.pid c.cmd.mark = false →
      ∃ t, exec (.lnkengReset g) s = .next t ∧ Tab.find t.colls id = some { c with code := 3 } ∧ t.dm = s.dm)

/-! ### The host, power and the control registers (R368, R375 to R378, R385 to R394) -/

/-- What an SPDM or TDISP request leaves: one response more, and nothing changed but the responder. -/
def said (s : State) (r : List Byte) (f : Spdm → Spdm) : State := { s with spdm := { f s.spdm with out := s.spdm.out ++ [r] } }

/-- R376, R377: the SPDM responder. GET_VERSION begins the connection; each later request is answered in its phase and with ERROR
outside it; slot 0 is the only one; in recovery mode there is no identity to show, no digest and no key exchange. A request that came on
virtual lane 4 of a port is answered there (shown of GET_VERSION; the phases, the codes and the clear messages of session 0 are the
model's: log entries 40 and 41). -/
def Claim.SpdmResponder : Prop :=
  ∀ (s : State) (offer : List Nat) (slot off len idx part : Nat) (sign : Bool) (b : List Byte),
    let x := s.spdm
    let err := said s [0x7F] id
    (∀ k, x.via = some k →
      exec .getVersion s = .next ((said s [0x04, 0x13] (fun x => { x with phase := 1, algs := [], script := [], session := none, via := none })).queueMsg k ⟨0, 4, [0x04, 0x13], none⟩)) ∧
    (x.via = none →
    exec .getVersion s = .next (said s [0x04, 0x13] (fun x => { x with phase := 1, algs := [], script := [], session := none })) ∧
    (x.phase = 1 → exec .getCapabilities s = .next (said s [0x61] (fun x => { x with phase := 2 }))) ∧ (x.phase ≠ 1 → exec .getCapabilities s = .next err) ∧
    (x.phase = 2 → (∀ a ∈ [1, 2, 3, 4], a ∈ offer) →
      exec (.negotiateAlgorithms offer) s = .next (said s [0x63, 1, 2, 3, 4] (fun x => { x with phase := 3, algs := [1, 2, 3, 4] }))) ∧
    (x.phase ≠ 2 ∨ (∃ a ∈ [1, 2, 3, 4], a ∉ offer) → exec (.negotiateAlgorithms offer) s = .next err) ∧
    (x.phase < 3 → exec .getDigests s = .next err ∧ exec (.getCertificate slot off len) s = .next err ∧ exec (.challenge slot b) s = .next err ∧
      exec (.getMeasurements idx sign b) s = .next err ∧ exec (.keyExchange b) s = .next err) ∧
    (3 ≤ x.phase → s.recovery = true → exec .getDigests s = .next (said s [0x01] id) ∧ exec (.getCertificate slot off len) s = .next err ∧ exec (.challenge slot b) s = .next err ∧
      exec (.getMeasurements idx true b) s = .next err ∧ exec (.keyExchange b) s = .next err) ∧
    (3 ≤ x.phase → slot ≠ 0 → exec (.getCertificate slot off len) s = .next err ∧ exec (.challenge slot b) s = .next err) ∧
    (3 ≤ x.phase → 5 < idx → idx ≠ 255 → exec (.getMeasurements idx sign b) s = .next err) ∧
    (3 ≤ x.phase → s.recovery = false →
      exec .getDigests s = .next (said s (0x01 :: Config.cryptoBytes 1 []) id) ∧
      exec (.getCertificate 0 off len) s = .next (said s (0x02 :: ((Config.cryptoBytes 2 []).drop off).take len) id) ∧
      exec (.challenge 0 b) s = .next (said s (0x03 :: Config.cryptoBytes 3 (x.script ++ b)) id) ∧
      exec (.getMeasurements 0 false b) s = .next (said s [0x60, 5] id) ∧
      (1 ≤ idx → idx ≤ 5 → exec (.getMeasurements idx false b) s = .next (said s (0x60 :: s.block idx) id)) ∧
      exec (.keyExchange b) s = .next (said s (0x64 :: Config.cryptoBytes 5 (x.script ++ b)) (fun x => { x with phase := 4, script := x.script ++ b }))) ∧
    (x.phase ≠ 4 → exec (.finish part b none) s = .next err) ∧
    (x.phase = 4 → exec (.finish part b none) s = .next { s with spdm := if Config.cryptoVerify 1 x.script b = true
      then { x with phase := 5, session := some part, out := x.out ++ [[0x65]] } else { x with phase := 3, out := x.out ++ [[0x7F]] } }) ∧
    (x.session = some part → exec (.endSession part) s = .next (said s [0x6C] (fun x => { x with phase := 3, session := none }))) ∧
    (x.session ≠ some part → exec (.endSession part) s = .next err) ∧
    (x.session = none → exec (.ideKm b) s = .next err ∧ exec (.lockInterface part) s = .next err ∧ exec (.startInterface part) s = .next err ∧ exec (.stopInterface part) s = .next err) ∧
    (x.session.isSome = true → exec (.ideKm b) s = .next (said s [0x7E] (fun x => { x with ide := x.ide ++ [b] }))))

/-- R364, R375, R376: a FINISH between two packages installs a session with no number received or sent only for an enabled partition
in RUN whose peer's is in RUN; LOCK, START and STOP move a TDI through its states, with a report bound to the interface (its layout is log entry 41's), and are refused elsewhere; STOP leaves zeros under key 0 in the
partition's extents and a new key.
That STOP clears the valid device objects under key 0 is the model's reading (log entry 76). -/
def Claim.Interfaces : Prop :=
  ∀ (s : State) (part pkg pp port num : Nat) (run : Bool) (b : List Byte),
    let p := s.part part
    let report := fun (t : State) => (0x7E : Byte) :: (toBytes 12 part ++ [BitVec.ofNat 8 (t.part part).tdi] ++ Config.cryptoBytes 21 (t.tdiConfig part))
    s.spdm.via = none →
    let tdi := 1 ≤ part ∧ part ≤ 255 ∧ p.en = true ∧ s.recovery = false
    (s.spdm.phase = 4 → ∃ t, exec (.finish part b (some ⟨pkg, pp, port, run, num⟩)) s = .next t ∧
      (Config.cryptoVerify 1 s.spdm.script b = true → p.en = true → p.tdi = 2 → run = true → port < 32 → ∃ x ∈ t.sessions,
        x.part = part ∧ x.peer = pkg ∧ x.ppart = pp ∧ x.port = port ∧ x.txSeq = 0 ∧ x.rxSeq = 0 ∧ x.failed = false ∧ x.key = s.nextSeq ∧ x.rnum = num) ∧
      (Config.cryptoVerify 1 s.spdm.script b = false ∨ p.en = false ∨ p.tdi ≠ 2 ∨ run = false ∨ 32 ≤ port → t.sessions = s.sessions)) ∧
    (s.spdm.session.isSome = true →
      (tdi → p.tdi = 0 → ∃ t, exec (.lockInterface part) s = .next t ∧ t.part part = { p with tdi := 1 } ∧ t.dm = s.dm ∧
        t.spdm.out = s.spdm.out ++ [report t]) ∧
      (¬ (tdi ∧ p.tdi = 0) → exec (.lockInterface part) s = .next (said s [0x7F] id)) ∧
      (tdi → p.tdi = 1 → ∃ t, exec (.startInterface part) s = .next t ∧ t.part part = { p with tdi := 2 } ∧ t.dm = s.dm ∧
        t.spdm.out = s.spdm.out ++ [report t]) ∧
      (¬ (tdi ∧ p.tdi = 1) → exec (.startInterface part) s = .next (said s [0x7F] id)) ∧
      (tdi → p.tdi ≠ 0 → ∃ t, exec (.stopInterface part) s = .next t ∧ t.part part = { p with tdi := 0 } ∧
        t.spdm.out = s.spdm.out ++ [report t] ∧ Tab.getD t.keyGen part 0 = Tab.getD s.keyGen part 0 + 1 ∧
        (∀ r ∈ s.partRuns part, ∀ a, r.1 ≤ a → a < r.1 + r.2 → Mem.read t.dm a = 0) ∧
        (∀ a, (∀ r ∈ s.partRuns part, a < r.1 ∨ r.1 + r.2 ≤ a) → Mem.read t.dm a = Mem.read s.dm a) ∧
        (∀ r ∈ s.tierRuns part true, ∀ a, r.1 ≤ a → a < r.1 + r.2 → Mem.read t.hm a = 0) ∧
        ∀ a, (∀ r ∈ s.tierRuns part true, a < r.1 ∨ r.1 + r.2 ≤ a) → Mem.read t.hm a = Mem.read s.hm a) ∧
      (tdi → p.tdi = 0 → exec (.stopInterface part) s = .next (said s (report s) id)) ∧
      (¬ tdi → exec (.stopInterface part) s = .next (said s [0x7F] id)))

/-- R146, R159, R242, R244, R368: a host write inside one line that its key opens, or of a whole line, stores its bytes and no others
and takes its granules' tags; what the host does next comes after it. A 64-byte request of a host access that is served reads or
stores its bytes, one that is turned away or times out is refused with nothing stored; the others wait. That the host's write names
its key and goes through die 0 is the model's reading (log entry 42). -/
def Obligations.HostAccesses : Prop :=
  (∀ (s : State) (key addr : Nat) (b : List Byte),
    let ch := s.chanOf addr
    0 < b.length → addr % 64 + b.length ≤ 64 → (∀ i, i < b.length → s.tier0Ok (addr + i) = true) → s.chanQ = [] → s.dm.wf = true →
    bit (s.base ch.1).chdegr ch.2 = false → Tab.getD s.chanEvs (addr / 64) 0 = 0 →
    b.length = 64 ∨ (addr / 64 ∉ s.poisoned ∧ s.keyOk key (addr / 64) = true) →
    ∃ t, exec (.hostWrite ⟨key, addr⟩ b) s = .next t ∧ t.hm = s.hm ∧ t.pane = { s.pane with watch := t.pane.watch } ∧ t.keyOk key (addr / 64) = true ∧
      (∀ a, Mem.read t.dm a = if addr ≤ a ∧ a < addr + b.length then b.getD (a - addr) 0 else Mem.read s.dm a) ∧
      (∀ g ∈ t.tags, g < addr / 16 ∨ (addr + b.length - 1) / 16 < g) ∧
      t.hostClock = mergeClock s.hostClock (t.die 0).clock) ∧
  (∀ (s : State) (r : Req) (l m : Lane) (st : CplStatus),
    let k : HostBlock := ⟨r.rid, l.pa / 64⟩
    Tab.find s.reqs r.rid = some r → r.hostLane = true → r.cancelled = false → s.hostBefore r k.blk = false → l.stage = .queued →
    (r.kind = .load ∨ r.kind = .cld → r.lanes = [l] → ∃ t, exec (.hostCompletion k .ok) s = .next t ∧ t.hm = s.hm ∧ Tab.find t.reqs r.rid =
      some { r with lanes := [{ l with stage := .landed, got := Mem.readN s.hm l.pa r.size }], destAccepted := true,
                    clock := mergeClock r.clock (Tab.getD s.hmClock k.blk []) }) ∧
    (r.kind = .load → r.lanes = [l, m] → m.stage = .queued → m.pa / 64 ≠ k.blk →
      ∃ t x, exec (.hostCompletion k .ok) s = .next t ∧ t.hm = s.hm ∧ Tab.find t.reqs r.rid = some x ∧ x.destAccepted = false ∧
        x.lanes = [{ l with stage := .landed, got := Mem.readN s.hm l.pa r.size }, m]) ∧
    (r.kind = .store ∨ r.kind = .cst → r.lanes = [l] →
      ∃ t, exec (.hostCompletion k .ok) s = .next t ∧ t.hm = Mem.writeN s.hm l.pa l.data ∧ t.dm = s.dm ∧
        Tab.find t.reqs r.rid = some { r with lanes := [{ l with stage := .landed }], destAccepted := true }) ∧
    (r.lanes = [l] →
      (∃ t, exec (.hostCompletionTimeout k) s = .next t ∧ t.hm = s.hm ∧ t.dm = s.dm ∧ Tab.find t.reqs r.rid =
        some { r with lanes := [{ l with stage := .failed .refused }], destAccepted := true }) ∧
      (st ≠ .ok → exec (.hostCompletion k st) s = exec (.hostCompletionTimeout k) s)))

/-- R265, R377, R378, R389, R391, R392: power, temperature, pane commands and the lifetime record: TMAX is that of the hottest island
reported (log entry 43), each island counts its seconds in the bin of its temperature, and an export writes the counts with their
signature (their layout is log entry 31's).
What a power-on keeps, and what the flush adds, are the model's reading (log entries 77 and 69). -/
def Obligations.PowerAndThermal : Prop :=
  ∀ (s : State) (o : BootOutcome) (core grid team pord island temp depth u : Nat) (p : Pane),
    (s.powered = false → ∃ t, exec (.powerOn o) s = .next t ∧ t.powered = true ∧ t.recovery = !(o.pufOk && o.rsaOk && o.slhOk) ∧
      t.dm = [] ∧ t.tags = [] ∧ t.panes = [] ∧ t.hm = s.hm ∧ t.images = o.images ∧ t.roms = o.roms ∧ t.pkgNo = o.pkg ∧
      t.parityOn = (if o.rsaOk && o.slhOk then o.parity else State.reset.parityOn) ∧
      t.macOn = (if o.rsaOk && o.slhOk then o.mac else State.reset.macOn) ∧ t.life.flash = s.life.flash) ∧
    (∃ t, exec .powerLoss s = .next t ∧ t.powered = false ∧ t.dm = [] ∧ t.hm = s.hm ∧ t.life.ram = s.life.flash ∧
      t.life.flash = s.life.flash) ∧
    ((s.core core).cmdBusy = true → exec (.panecmdExit core grid team pord) s = .next s ∧
      ((s.core core).cmdGrid.toNat ≠ grid ∨ (s.core core).cmdTeam.toNat ≠ team ∨ (s.core core).cmdPord ≠ pord →
        exec (.panecmdResume core grid team pord) s = .next s)) ∧
    (s.cmdTarget core grid team pord = none → (s.core core).cmdBusy = false → exec (.panecmdExit core grid team pord) s = .next s ∧
      ∃ t, exec (.panecmdResume core grid team pord) s = .next t ∧ t = { s with cores := t.cores } ∧ (t.core core).cmdBusy = false) ∧
    (s.cmdTarget core grid team pord = some p → (s.core core).cmdBusy = false → s.getPane p.pid = some p →
      exec (.panecmdExit core grid team pord) s = .next (s.endPane p.pid) ∧
      (∀ w, p.place = .parked (.host false w) → ∃ t, exec (.panecmdResume core grid team pord) s = .next t ∧
        t.getPane p.pid = some { p with place := .ready } ∧ t.dm = s.dm)) ∧
    (islandUnit island = some u →
      let x := s.therm u
      let hot := fun (t : State) => t.temps = Tab.set s.temps island temp ∧ (t.therm u).2.2 = x.2.2 ∧ t.dm = s.dm ∧
        (∀ i ∈ unitIslands u ++ [1104 + u], Tab.getD t.temps i 0 ≤ (t.therm u).2.1) ∧
        ∃ i ∈ unitIslands u ++ [1104 + u], Tab.getD t.temps i 0 = (t.therm u).2.1
      (x.2.2.2 ≤ temp → ∃ t r, exec (.thermalWarning island temp) s = .next t ∧ hot t ∧ (t.therm u).1 = x.1 ∧
        t.records = s.records ++ [r] ∧ r.typ = 0x0A ∧ r.source = u) ∧
      (x.2.2.1 ≤ temp → ∃ t r, exec (.thermalFreeze island temp) s = .next t ∧ hot t ∧ (t.therm u).1 = true ∧
        t.records = s.records ++ [r] ∧ r.typ = 0x0A ∧ r.source = u)) ∧
    (u < 80 → ∃ t, exec (.thermThaw u temp) s = .next t ∧
      t.therm u = (if temp < (s.therm u).2.2.2 then false else (s.therm u).1, temp, (s.therm u).2.2)) ∧
    (island < 1104 → depth < 8 → ∃ t, exec (.droop island depth) s = .next t ∧ t = { s with life := t.life } ∧
      t.life.flash = s.life.flash) ∧
    (∃ t, exec .lifetimeFlush s = .next t ∧ t = { s with life := t.life } ∧ t.life.flash = t.life.ram) ∧
    (∃ t, exec .orderlyShutdown s = .next t ∧ t = { s with life := t.life } ∧ t.life.flash = s.life.ram ∧ t.life.ram = s.life.ram) ∧
    exec .lifectlGo s = .next { s with life := { s.life with busy := true } } ∧
    (s.life.busy = true →
      exec (.lifetimeExportDone false) s = .next { s with life := { s.life with busy := false, err := true } } ∧
      ∃ t, exec (.lifetimeExportDone true) s = .next t ∧ t.life = { s.life with busy := false } ∧
        let counts := (s.life.flash.map (fun e => toBytes 4 e.1 ++ toBytes 4 e.2)).flatten
        t.hm = Mem.writeN s.hm s.life.addr (counts ++ Config.cryptoBytes 6 counts) ∧ t.dm = s.dm) ∧
    (∀ i b, i < 1104 → b < 26 → Tab.getD s.lifeSecond.life.ram (3 * 2 ^ 20 + 26 * i + b) 0 =
      if b = min 25 (Config.islandTemp s.time i / 5) then min (Tab.getD s.life.ram (3 * 2 ^ 20 + 26 * i + b) 0 + 1) 0xFFFFFFFF
      else Tab.getD s.life.ram (3 * 2 ^ 20 + 26 * i + b) 0)

/-- A register word written with `w`, in a TLP under IDE, reads as `x` afterwards. -/
def WrittenReads (s : State) (off : Nat) (w x : Word) : Prop :=
  ∃ t, exec (.registerWrite off false ⟨w.setWidth 64, true, none⟩) s = .next t ∧ t.bar0 off = x ∧ t.dm = s.dm ∧ t.pane = s.pane

/-- R4, R5, R150, R216, R349, R354, R375, R386, R391 to R394: writes of the control registers. Reserved bits stay 0, RO fields keep
their value, ranges are clamped, offsets that no table names are ignored, and a write to the frozen state of a locked TDI is not
performed and leads to ERROR; a TLP without IDE to a queue through the space of a TDI in RUN is rejected, and that space holds no other
register. LINK_TRAINING brings a port up, advertises the first windows, and refuses the requests that had not crossed (log entry 38). -/
def Obligations.ControlWrites : Prop :=
  ∀ (s : State) (p q k : Nat) (w : Word) (v : Tlp 64) (off : Nat) (wide : Bool),
    (regAt off = none → exec (.registerWrite off false v) s = .next s) ∧ (off % 4 ≠ 0 → exec (.registerWrite off wide v) s = .next s) ∧
    (1 ≤ p → p ≤ 255 → s.tdiLocked p = false →
      WrittenReads s (0x8000 + 8 * p) w (w &&& 0x80000000) ∧ WrittenReads s (0x8004 + 8 * p) w (w &&& 0xFFFFFF00) ∧
      (∀ d, d < 64 → WrittenReads s (0x1000800 + 0x100000 * d + 8 * p) w (w &&& 0xFFFFFFE1))) ∧
    (1 ≤ p → p ≤ 255 →
      WrittenReads s (0xC000 + 8 * p) w (if (w &&& 0xFFFF) < 64#32 then 64 else w &&& 0xFFFF) ∧
      WrittenReads s (0xB800 + 8 * p) w (w &&& 0xFFFFFF01)) ∧
    (p ≤ 255 → WrittenReads s (0x9000 + 32 * p) w (w &&& 0xFFFFFFC1) ∧ ((Tab.getD s.rings p {}).base < 2 ^ 56 → WrittenReads s (0x9008 + 32 * p) w (w &&& 0x1F)) ∧
      WrittenReads s (0x9014 + 32 * p) w (s.bar0 (0x9014 + 32 * p))) ∧
    (q < 32768 → (Tab.getD s.queues q {}).en = false → WrittenReads s (0x200000 + 32 * q) w (w &&& 0xFFFFFF00)) ∧
    (q < 32768 → WrittenReads s (0x200008 + 32 * q) w w ∧ WrittenReads s (0x20000C + 32 * q) w (s.bar0 (0x20000C + 32 * q))) ∧
    (q < 32768 → k < 5 → Barred s (Tab.getD s.queues q {}).part v.ide v.tdi →
      exec (.registerWrite (0x200000 + 32 * q + 4 * k) false v) s = .next s) ∧
    (v.tdi.isSome = true → 1 ≤ p → p ≤ 255 → exec (.registerWrite (0x8000 + 8 * p) false v) s = .next s ∧
      exec (.registerWrite 0x18 false v) s = .next s) ∧
    WrittenReads s 0x18 w (w &&& 0xFFFFFFC0) ∧ WrittenReads s 0x1C w (w &&& 0x00FFFFFF) ∧
    (k < 64 → ∀ i, i < 12 → WrittenReads s (0x1000100 + 0x100000 * k + 8 * i) w
      ((if w &&& 0x30000 = 0x30000 then 0x10000 else w &&& 0x30000) +
        (if (w &&& 0xFFF) < 1800#32 then 1800 else if 2100#32 < (w &&& 0xFFF) then 2100 else w &&& 0xFFF))) ∧
    (1 ≤ p → p ≤ 255 → s.tdiLocked p = true → w &&& 0x80000000 ≠ (s.bar0 (0x8000 + 8 * p)) →
      ∃ t, exec (.registerWrite (0x8000 + 8 * p) false ⟨w.setWidth 64, v.ide, none⟩) s = .next t ∧ t.part p = { s.part p with tdi := 3 } ∧
        t.dm = s.dm) ∧
    (k < 32 → ∃ t, exec (.linkTraining k) s = .next t ∧ (t.port k).up = true ∧ (t.port k).failed = false ∧ (t.port k).lseq = 5 ∧
      (t.port k).expect = 0 ∧ (t.port k).lack = 65535 ∧ (t.port k).unacked.map (fun x =>
        let h := FlitHead.parse (ofBytes (x.bytes.take 32))
        (x.lseq, h.kind, h.wvl, h.win)) = (List.range 5).map (fun i => (i, 2, i, 1024)) ∧
      (∀ x ∈ (s.port k).unacked, ∀ rid lane q, x.req = some (rid, lane) → Tab.find t.reqs rid = some q → ∀ l ∈ q.lanes, l.lane = lane →
        l.stage ≠ .queued) ∧ t.sessions = s.sessions ∧ t.dm = s.dm)

/-! ### The machine as a whole -/

/-- A step that was asked for is exec of it. A turn in which the packet at a resident pane's pc, buffered or fetched, decodes to
an instruction whose registers the pane has and which are not pending runs exactly that instruction; its group then ends, or, where
the word is held, no word of it takes effect (R29 to R31, R36). A word that decodes to none traps with the word as its detail. -/
def Obligations.StepRunsDecoded : Prop :=
  (∀ (s : State) (i : Instr) (rest : List Instr), s.agenda = i :: rest → step s = exec i { s with agenda := rest }) ∧
  (∀ (s b : State) (c : Nat) (p : Pane) (k : Packet) (slot : BitVec 2) (w : Word) (rest : List (BitVec 2 × Word)) (i : Instr),
    let g : State := { ({ s with cursor := s.cursor + 1 } : State).checkOut p.pid with issue := .go }
    let v := b.atWord slot w k.sill rest
    s.agenda = [] → s.powered = true → s.turns[s.cursor / 4]? = some c →
    s.slotPane c (8 * (s.cursor % 4) + s.cycle % 8) = some p → s.mayTurn p = true →
    (∀ e, g.pane.stack.head? = some e → e.kind ≠ .loop) →
    ((g.pane.ibuf = some k ∧ k.addr = pcPkt g.pane.pc ∧ b = g) ∨
      ((∀ j, g.pane.ibuf = some j → j.addr ≠ pcPkt g.pane.pc) ∧
        ∃ f, g.readPacket g.pane.fetchVia (pcPkt g.pane.pc) = (f, .ok k) ∧ b = onPane (fun p => { p with ibuf := some k }) f)) →
    k.bad = false → packetDetail k.w0.toNat k.w1.toNat k.w2.toNat = 0 → k.from (pcSlot b.pane.pc).toNat = (slot, w) :: rest →
    wChain w.toNat = false ∨ rest = [] → decodeWord w.toNat k.sill = .ok i → b.pane.countOk i = true → b.pane.namesPending i = false →
    step s = match exec i v with
      | .next t => (match t.issue with
          | .held => .next (b.rollback t)
          | .ended => .next t.boundary
          | .go => .next (finishGroup b v t).boundary)
      | r => r) ∧
  (∀ s : State, (decodeWord s.word.toNat s.sill = .error .illegalInstruction → s.runWord = .next (takeTrap 0x01 s.word s)) ∧
    (decodeWord s.word.toNat s.sill = .error .illegalOperand → s.runWord = .next (takeTrap 0x03 s.word s)))

/-- The spec's own examples of encodings decode to the instructions they stand for (a sanity check on a few words). -/
def Obligations.DecodedExamples : Prop :=
  decodeWord 0x3F823C00 0x0000010B = .ok (.launch 2 30 4) ∧
  decodeWord 0x3F801024 0x0000000C = .ok (.evsig (.reg 8) (.reg 9)) ∧
  decodeWord 0x3F9E5000 0x0000008D = .ok (.coll .sumF32 (some 30) 40 2) ∧
  decodeWord 0x3F85142C 0x00000008 = .ok (.atmass 5 (.reg 10) (.reg 11))

/-- Every well-formed instruction word (the constructors before packetFetch) has an encoding, and decoding it gives the instruction
back, with every operand at every value that the encoding admits; an event, from packetFetch on, has none (R28, R34 to R47, R163). -/
def Obligations.EncodeDecode : Prop :=
  ∀ i : Instr,
    (i.ctorIdx < (Instr.packetFetch 0).ctorIdx → i.wf = true → ∃ w x, encode i = some (w, x) ∧ w < 2 ^ 32 ∧ decodeWord w x = .ok i) ∧
    ((Instr.packetFetch 0).ctorIdx ≤ i.ctorIdx → encode i = none)

/-- Every step keeps the three memories in their one form: addresses rising, no listed byte 0. -/
def Obligations.StepsKeepMemory : Prop :=
  ∀ s t : State, MemOk s → step s = .next t → MemOk t

/-- What reset leaves: memories with nothing listed, and the values that the register tables of R150, R216, R349, R353, R354, R360,
R386, R391, R393 and R394 give. -/
def Obligations.ResetValues : Prop :=
  let r := State.reset
  MemOk r ∧ (∀ a, Mem.read r.dm a = 0) ∧ r.cycle = 0 ∧ r.children = 0 ∧ r.grids = [] ∧ r.panes = [] ∧
  (∀ p, 1 ≤ p → p ≤ 255 → r.bar0 (0x8000 + 8 * p) = 0 ∧ r.bar0 (0x8004 + 8 * p) = 0 ∧ r.bar0 (0xB000 + 8 * p) = 0 ∧
    r.bar0 (0xB004 + 8 * p) = 2 ∧ r.bar0 (0xC000 + 8 * p) = 2048 ∧ r.bar0 (0xB800 + 8 * p) = 0 ∧ (r.part p).tdi = 0) ∧
  (∀ q k, q < 32768 → k < 5 → r.bar0 (0x200000 + 32 * q + 4 * k) = 0) ∧
  (∀ n k, n < 65535 → k < 4 → r.bar0 (0x100000 + 16 * n + 4 * k) = 0) ∧
  (∀ d, d < 64 → (r.die d).frozen = false ∧ (r.die d).tcrit = 110 ∧ (r.die d).twarn = 100 ∧
    (∀ i, i < 12 → r.bar0 (0x1000100 + 0x100000 * d + 8 * i) = 0x10000 + 1800) ∧
    ∀ c, c < 24 → r.bar0 (0x1008000 + 0x100000 * d + 0x400 * c) = 0) ∧
  (∀ k, k < 8 → r.bar0 (0x9000 + 4 * k) = 0)

/-! ### The statements made of several claims -/

/-- Integer add, subtract, multiply and divide words: results, latches, flags, frame. -/
def Obligations.IntegerArithmetic : Prop :=
  Claim.IntegerAddSub ∧ Claim.IntegerMultiply ∧ Claim.IntegerDivide

/-- Minimum, maximum, moves, selects and integer compares: results and frame. -/
def Obligations.MovesAndCompares : Prop :=
  Claim.MinMaxAndMoves ∧ Claim.IntegerCompares

/-- Logic, shift, bit-field and uniform words: results and frame. -/
def Obligations.LogicAndUniformWords : Prop :=
  Claim.LogicWords ∧ Claim.UniformWords

/-- FSET and FCLASS: what each condition means on ordered operands and on NaNs, the classes, the invalid flag. -/
def Obligations.FloatComparesAndClasses : Prop :=
  Claim.FloatCompares ∧ Claim.FloatClasses

/-- NaNs, invalid operations, minimum and maximum, rounding modes, and the exact values that the floating words and CVT round. -/
def Obligations.FloatRules : Prop :=
  Claim.FloatNans ∧ Claim.FloatInvalid ∧ Claim.FloatMinMax ∧ Claim.RoundingModes ∧ Claim.FloatOverflow ∧ Claim.Rounding ∧ Claim.FloatValues ∧
    Claim.HalfValues ∧ Claim.CvtValues

/-- Branch, call and return words: targets, entries, traps. -/
def Obligations.BranchesAndCalls : Prop :=
  Claim.Branches ∧ Claim.Calls

/-- SPLIT, JOIN and BRK: entries, masks, mismatches. -/
def Obligations.SplitJoinBreak : Prop :=
  Claim.Split ∧ Claim.Join ∧ Claim.Break

/-- LOOP and the end of a pass of its body. -/
def Obligations.Loops : Prop :=
  Claim.Loop ∧ Claim.LoopPass

/-- The XM words and the predicate words: encodings and effects. -/
def Obligations.MaskAndPredicateWords : Prop :=
  Claim.MaskWords ∧ Claim.PredicateWords

/-- CSR reads and writes, NOP, EXIT, YIELD and TRAP.HOST. -/
def Obligations.ControlWords : Prop :=
  Claim.ControlRegisters ∧ Claim.NopAndExit ∧ Claim.YieldAndHostTrap

/-- TRAP, BKPT and RTT. -/
def Obligations.TrapWordsAndReturn : Prop :=
  Claim.SoftwareTraps ∧ Claim.ReturnFromTrap

/-- Cross-lane words: shuffles, votes, matches, reorders, folds and scans. -/
def Obligations.CrossLaneWords : Prop :=
  Claim.CrossLane ∧ Claim.LaneRedistribution ∧ Claim.LaneFolds

/-- Load and store words at issue: the request each sends, and nothing else. -/
def Obligations.LoadAndStoreWords : Prop :=
  Claim.LoadWords ∧ Claim.StoreWords

/-- Atomics and reductions at issue: operands, the combiner. -/
def Obligations.AtomicAndReductionWords : Prop :=
  Claim.AtomicWords ∧ Claim.ReductionWords

/-- CLD, CST and the derivation of capabilities, which never widens one. -/
def Obligations.CapabilityWords : Prop :=
  Claim.CapabilityLoadStore ∧ Claim.CapabilityDerivation

/-- WAITAC, FENCE and WAITMEM: when they complete, wait or trap. -/
def Obligations.WaitWords : Prop :=
  Claim.WaitsAndFences ∧ Claim.MemoryWaits

/-- Team and cluster barriers: arrivals, phases, waits. -/
def Obligations.Barriers : Prop :=
  Claim.TeamBarriers ∧ Claim.ClusterBarriers

/-- SPAWN, its bins and the panes they form. -/
def Obligations.Spawning : Prop :=
  Claim.Spawns ∧ Claim.SpawnedPanes

/-- Packet fetches, loop refetches, stack spills and refills, and an entry as bytes. -/
def Obligations.FetchAndStackAccess : Prop :=
  Claim.FetchAndStackAccess ∧ Claim.EntryBytes

/-- Matrix words at issue, and the records they read. -/
def Obligations.MatrixWordsAndRecords : Prop :=
  Claim.MatrixWords ∧ Claim.MatrixRecords

/-- Steps of a matrix unit on tiles, and the exact sums behind them. -/
def Obligations.MatrixTiles : Prop :=
  Claim.MatrixTileSteps ∧ Claim.MatrixArithmetic

/-- MXQ, MXRD, MXST and MXCLR units, MXFENCE, WAITMB. -/
def Obligations.MatrixUnits : Prop :=
  Claim.MatrixOperations ∧ Claim.MatrixBatches

/-- Engine commands: start, chunks of CPY, GATH, SCAT, ROUTE and CHAIN, the chain's operations, completion, hangs, resets, failed links. -/
def Obligations.EngineSteps : Prop :=
  Claim.EngineProgress ∧ Claim.EngineChunks ∧ Claim.ChainRules ∧ Claim.EngineAndPathFaults

/-- Translation at the memory port, acceptance of stores, page responses, writes applied in causal order. -/
def Obligations.MemoryPortAndApply : Prop :=
  Claim.MemoryPort ∧ Claim.WriteApplication

/-- Accesses at the home channels, reductions, parity, and requests to slices. -/
def Obligations.HomesAndSlices : Prop :=
  Claim.HomeChannels ∧ Claim.SliceRequests

/-- What publication commands do to a record; sketch hashes, sums and estimates. -/
def Obligations.PublicationAndSketchRules : Prop :=
  Claim.PublicationRules ∧ Claim.SketchArithmetic

/-- Publication and sketch commands at their units. -/
def Obligations.PublicationAndSketchCommands : Prop :=
  Claim.PublicationCommands ∧ Claim.SketchCommands

/-- The steps of ray traversal, from dispatch to release, with faults, hangs and resets. -/
def Obligations.RaySteps : Prop :=
  Claim.RayDispatch ∧ Claim.TraversalUnit ∧ Claim.CallbackOrder

/-- ATMASS, POSRD and EVICT at issue. -/
def Obligations.AttentionAndEvictWords : Prop :=
  Claim.AttentionWords ∧ Claim.EvictWord

/-- Eviction: its decisions, its end, the conditional publication, POSRD, hangs and resets. -/
def Obligations.EvictionSteps : Prop :=
  Claim.EvictionArithmetic ∧ Claim.EvictionPages ∧ Claim.EvictionSteps ∧ Claim.EvictionEngine

/-- LAUNCH, EVSIG, the acceptance of child grids and retirement. -/
def Obligations.LaunchWordsAndRetirement : Prop :=
  Claim.LaunchWords ∧ Claim.LaunchAndRetirement

/-- Queues, event counters, grid starts, placement, bandwidth shares and context switches. -/
def Obligations.QueuesAndSwitches : Prop :=
  Claim.Dispatcher ∧ Claim.SharesAndSwitches

/-- COLL at issue, its steps and its ends. -/
def Obligations.Collectives : Prop :=
  Claim.CollWord ∧ Claim.CollSteps ∧ Claim.CollEnds

/-- The SPDM responder and the states of a TDI. -/
def Obligations.SpdmAndInterfaces : Prop :=
  Claim.SpdmResponder ∧ Claim.Interfaces
end

