-- ==== Sys2Proof/Laws/Control.lean ====
section
/-! SUPPORT. What the shared operations of the control words do, said once: pc arithmetic, selectors, a push and a pop with room,
taking a trap with room, and a wait whose condition holds. -/

namespace Sys2Proof.Machine

theorem mkPc_zero (x : BitVec 52) : mkPc x 0 = x.setWidth 56 <<< 4 := by
  unfold mkPc
  have : (BitVec.setWidth 56 (0 : BitVec 2)) <<< 2 = (0 : BitVec 56) := by decide
  rw [this]; exact BitVec.or_zero

theorem pcPkt_mkPc (x : BitVec 52) : pcPkt (x.setWidth 56 <<< 4) = x := by
  apply BitVec.eq_of_toNat_eq
  have := x.isLt
  simp only [pcPkt, BitVec.toNat_setWidth, BitVec.toNat_ushiftRight, BitVec.toNat_shiftLeft, Nat.shiftLeft_eq, Nat.shiftRight_eq_div_pow]
  omega

theorem target_eq (p : Pane) (off : BitVec 20) : p.target off = branchTarget p off := by
  unfold Pane.target; rw [mkPc_zero]; rfl

theorem preg_of_seven (p : Pane) (sel : PReg) (h : sel.val = 7) : p.preg sel.val = 0xFFFFFFFF := by rw [h]; rfl

theorem selLanes_eq (p : Pane) (sel : PReg) :
    p.selLanes sel = if sel.val = 7 then p.xm else p.xm &&& p.preg sel.val := by
  unfold Pane.selLanes
  split
  · rename_i h; rw [preg_of_seven p sel h]; exact BitVec.and_allOnes
  · rfl

/-- A word's push where there is room (R22). -/
theorem pushEntry_room (e : Entry) (s : State) (h : HasRoom s.pane) :
    pushEntry e s = (onPane (fun p => { p with stack := e :: p.stack, deep := p.deep + 1 }) s, true) := by
  obtain ⟨h1, h2, h3⟩ := h
  unfold pushEntry
  simp only [h1]
  rw [if_neg (by simp), if_neg (by unfold Pane.cap; omega), if_neg (by omega)]

theorem popReady_ok (n : Nat) (s : State) (h : CanPop s.pane n) : popReady n s = (s, true) := by
  obtain ⟨h1, h2⟩ := h
  unfold popReady
  simp only [h1]
  rw [if_neg (by simp), if_neg (by omega)]

/-- A pop where no refill is due (R21, R22). -/
theorem popThen_ok (n : Nat) (e : Entry) (k : State → State) (s : State) (h : CanPop s.pane n) (he : e.slot ≠ 3) :
    popThen n e k s = k s := by
  unfold popThen; rw [popReady_ok n s h]; simp only [if_neg he]

theorem trapvec_eq (p : Pane) :
    p.trapvec = p.trapvecH.toNat % 2 ^ 24 * 2 ^ 32 + p.trapvecL.toNat / 16 * 16 := by
  unfold Pane.trapvec bits; have := p.trapvecL.isLt; omega

/-- A trap with room for its entry enters at once (R128). -/
theorem takeTrap_room (c : BitVec 8) (d : Word) (s : State) (h : TrapRoom s.pane) : takeTrap c d s = s.enterTrap c d := by
  obtain ⟨h1, h2⟩ := h
  unfold takeTrap; rw [if_neg (by unfold Pane.cap; omega), if_neg (by omega)]

/-- A wait completes on a turn that begins with it and finds its condition (R31). -/
theorem waitFor_ok (cond : State → Bool) (f : State → State) (s : State) (h : s.pane.wait = .begun) (hc : cond s = true) :
    waitFor cond f s = .next (f (onPane (fun p => { p with wait := .none }) s)) := by
  unfold waitFor; rw [if_pos ⟨h, hc⟩]

theorem waitFor_begin (cond : State → Bool) (f : State → State) (s : State) (h : s.pane.wait ≠ .begun) :
    waitFor cond f s = .next (ended (onPane (fun p => { p with wait := .begun }) s)) := by
  unfold waitFor; rw [if_neg (fun e => h e.1)]

end Sys2Proof.Machine
end

