-- ==== Sys2Proof/Laws/Mem.lean ====
section
/-! SUPPORT. Memory: a read after a write, and that every operation keeps the canonical form. -/

namespace Sys2Proof.Machine

/-- Nothing is listed at or below the bound of a canonical list. -/
theorem Mem.read_below (m : Mem) (l j : Nat) (h : Mem.wfFrom (some l) m = true) (hj : j ≤ l) : Mem.read m j = 0 := by
  induction m generalizing l with
  | nil => rfl
  | cons d q ih =>
      obtain ⟨i, x⟩ := d
      unfold Mem.wfFrom at h
      simp at h
      unfold Mem.read
      rw [if_neg (by omega)]
      exact ih i h.2 (by omega)

theorem Mem.read_writeFrom (m : Mem) (lo : Option Nat) (a k : Nat) (b : Byte) (h : Mem.wfFrom lo m = true) :
    (m.write a b).read k = if k = a then b else m.read k := by
  induction m generalizing lo with
  | nil =>
      unfold Mem.write
      by_cases hb : b = 0
      · rw [if_pos hb]; subst hb; simp [Mem.read]
      · rw [if_neg hb]; unfold Mem.read
        by_cases e : a = k
        · rw [if_pos e, if_pos e.symm]
        · rw [if_neg e, if_neg (fun h => e h.symm)]; rfl
  | cons c r ih =>
      obtain ⟨i, x⟩ := c
      have hr : Mem.wfFrom (some i) r = true := by
        unfold Mem.wfFrom at h; simp at h; exact h.2
      unfold Mem.write
      by_cases h1 : a < i
      · rw [if_pos h1]
        by_cases hb : b = 0
        · rw [if_pos hb]
          by_cases e : k = a
          · subst e; rw [if_pos rfl, hb]
            unfold Mem.read; rw [if_neg (by omega)]
            exact Mem.read_below r i k hr (by omega)
          · rw [if_neg e]
        · rw [if_neg hb]
          conv_lhs => unfold Mem.read
          by_cases e : a = k
          · rw [if_pos e, if_pos e.symm]
          · rw [if_neg e, if_neg (fun h => e h.symm)]
      · rw [if_neg h1]
        by_cases h2 : a = i
        · subst h2
          rw [if_pos rfl]
          by_cases hb : b = 0
          · rw [if_pos hb]
            by_cases e : k = a
            · subst e; rw [if_pos rfl, hb]; exact Mem.read_below r k k hr (le_refl _)
            · rw [if_neg e]; conv_rhs => unfold Mem.read
              rw [if_neg (fun h => e h.symm)]
          · rw [if_neg hb]
            unfold Mem.read
            by_cases e : a = k
            · rw [if_pos e, if_pos e.symm]
            · rw [if_neg e, if_neg (fun h => e h.symm), if_neg e]
        · rw [if_neg h2]
          unfold Mem.read
          by_cases e : i = k
          · subst e; rw [if_pos rfl, if_pos rfl, if_neg (fun h => h2 h.symm)]
          · rw [if_neg e, if_neg e]; exact ih (some i) hr

/-- A read after a write. -/
theorem Mem.read_write (m : Mem) (a k : Nat) (b : Byte) (h : m.wf = true) :
    (m.write a b).read k = if k = a then b else m.read k :=
  Mem.read_writeFrom m none a k b h

theorem Mem.wfFrom_write (m : Mem) (lo : Option Nat) (a : Nat) (b : Byte) (h : Mem.wfFrom lo m = true)
    (hlo : ∀ l, lo = some l → l < a) : Mem.wfFrom lo (m.write a b) = true := by
  induction m generalizing lo with
  | nil =>
      unfold Mem.write
      by_cases hb : b = 0
      · rw [if_pos hb]; rfl
      · rw [if_neg hb]
        have hb' : (b != 0) = true := by simpa using hb
        unfold Mem.wfFrom
        rw [hb']
        cases lo with
        | none => rfl
        | some l => simp [hlo l rfl, Mem.wfFrom]
  | cons c r ih =>
      obtain ⟨i, x⟩ := c
      unfold Mem.write
      by_cases h1 : a < i
      · rw [if_pos h1]
        by_cases hb : b = 0
        · rw [if_pos hb]; exact h
        · rw [if_neg hb]
          have hb' : (b != 0) = true := by simpa using hb
          have h3 : Mem.wfFrom (some a) ((i, x) :: r) = true := by
            unfold Mem.wfFrom at h ⊢
            simp at h ⊢
            exact ⟨⟨h1, h.1.2⟩, h.2⟩
          unfold Mem.wfFrom
          rw [hb', h3]
          cases lo with
          | none => rfl
          | some l => simp [hlo l rfl]
      · rw [if_neg h1]
        by_cases h2 : a = i
        · subst h2
          rw [if_pos rfl]
          by_cases hb : b = 0
          · rw [if_pos hb]
            unfold Mem.wfFrom at h
            simp at h
            have hr := h.2
            cases r with
            | nil => simp [Mem.wfFrom]
            | cons d q =>
                obtain ⟨j, y⟩ := d
                unfold Mem.wfFrom at hr ⊢
                simp at hr
                cases lo with
                | none => simp; exact ⟨hr.1.2, hr.2⟩
                | some l => have := hlo l rfl; simp; exact ⟨⟨by omega, hr.1.2⟩, hr.2⟩
          · rw [if_neg hb]
            have hb' : (b != 0) = true := by simpa using hb
            unfold Mem.wfFrom at h ⊢
            simp only [Bool.and_eq_true] at h ⊢
            exact ⟨⟨h.1.1, hb'⟩, h.2⟩
        · rw [if_neg h2]
          unfold Mem.wfFrom at h ⊢
          simp at h
          simp only [Bool.and_eq_true]
          refine ⟨?_, ih (some i) h.2 (by rintro l ⟨⟩; omega)⟩
          refine ⟨h.1.1, ?_⟩
          simpa using h.1.2

/-- A write keeps the canonical form. -/
theorem Mem.wf_write (m : Mem) (a : Nat) (b : Byte) (h : m.wf = true) : (m.write a b).wf = true :=
  Mem.wfFrom_write m none a b h (by simp)

theorem Mem.wf_writeN (m : Mem) (a : Nat) (bs : List Byte) (h : m.wf = true) : (m.writeN a bs).wf = true := by
  induction bs generalizing m a with
  | nil => exact h
  | cons b r ih => exact ih (m.write a b) (a + 1) (Mem.wf_write m a b h)

theorem Mem.wfFrom_mono (m : Mem) (lo : Option Nat) (l : Nat) (h : Mem.wfFrom (some l) m = true)
    (hl : ∀ k, lo = some k → k ≤ l) : Mem.wfFrom lo m = true := by
  cases m with
  | nil => rfl
  | cons c r =>
      obtain ⟨i, x⟩ := c
      unfold Mem.wfFrom at h ⊢
      cases lo with
      | none => simp_all
      | some k => have := hl k rfl; simp at h ⊢; exact ⟨⟨by omega, h.1.2⟩, h.2⟩

theorem Mem.wfFrom_filter (m : Mem) (lo : Option Nat) (p : Host.Cell → Bool) (h : Mem.wfFrom lo m = true) :
    Mem.wfFrom lo (m.filter p) = true := by
  induction m generalizing lo with
  | nil => exact h
  | cons c r ih =>
      obtain ⟨i, x⟩ := c
      unfold Mem.wfFrom at h
      simp at h
      rw [List.filter_cons]
      split
      · unfold Mem.wfFrom
        simp only [Bool.and_eq_true]
        exact ⟨⟨h.1.1, by simpa using h.1.2⟩, ih (some i) h.2⟩
      · refine Mem.wfFrom_mono _ lo i (ih (some i) h.2) ?_
        rintro k rfl
        have := h.1.1
        simp at this; omega

/-- Clearing a run keeps the canonical form. -/
theorem Mem.wf_clear (m : Mem) (a n : Nat) (h : m.wf = true) : (m.clear a n).wf = true :=
  Mem.wfFrom_filter m none _ h

/-- A byte outside the written run reads as before. -/
theorem Mem.read_writeN_ne (m : Mem) (a k : Nat) (bs : List Byte) (h : m.wf = true) (hk : k < a ∨ a + bs.length ≤ k) :
    (m.writeN a bs).read k = m.read k := by
  induction bs generalizing m a with
  | nil => rfl
  | cons b r ih =>
      simp only [List.length_cons] at hk
      show Mem.read (Mem.writeN (Mem.write m a b) (a + 1) r) k = _
      rw [ih _ _ (Mem.wf_write m a b h) (by omega), Mem.read_write m a k b h, if_neg (by omega)]

/-- A byte inside the written run reads as written. -/
theorem Mem.read_writeN (m : Mem) (a k : Nat) (bs : List Byte) (h : m.wf = true) (hk : k < bs.length) :
    (m.writeN a bs).read (a + k) = bs.getD k 0 := by
  induction bs generalizing m a k with
  | nil => simp at hk
  | cons b r ih =>
      show Mem.read (Mem.writeN (Mem.write m a b) (a + 1) r) (a + k) = _
      have hw := Mem.wf_write m a b h
      cases k with
      | zero =>
          rw [Mem.read_writeN_ne _ _ _ _ hw (by omega), Mem.read_write m a _ b h]; simp
      | succ k =>
          have : a + (k + 1) = a + 1 + k := by omega
          rw [this, ih _ _ _ hw (by simpa using hk)]; simp

theorem Mem.length_readN (m : Mem) (a n : Nat) : (m.readN a n).length = n := by
  induction n generalizing a with
  | zero => rfl
  | succ n ih => simp [Mem.readN, ih]

end Sys2Proof.Machine
end

