-- ==== Sys2Proof/Laws/Operands.lean ====
section
/-! SUPPORT. What the shared operations of the register words do, said once: a bit of a mask, a vector register set in
some lanes, a latch write, and the results of the X pipe, the Y pipe, the uniform words and the compares. -/

namespace Sys2Proof.Machine

theorem length_setAt {α : Type} (l : List α) (k : Nat) (x : α) : (setAt l k x).length = l.length := by
  induction l generalizing k with
  | nil => rfl
  | cons y r ih => cases k <;> simp [setAt, ih]

theorem getD_setAt {α : Type} (l : List α) (k n : Nat) (x d : α) :
    (setAt l k x).getD n d = if k = n ∧ n < l.length then x else l.getD n d := by
  induction l generalizing k n with
  | nil => simp [setAt]
  | cons y r ih => cases k <;> cases n <;> simp only [setAt, List.getD_cons_zero, List.getD_cons_succ, ih, List.length_cons] <;> simp

theorem bit_zero (k : Nat) : bit 0 k = false := by simp [bit]

theorem bit_zero' (k : Nat) : bit 0#32 k = false := by simp [bit]

theorem bit_or (x y : Word) (k : Nat) : bit (x ||| y) k = (bit x k || bit y k) := by simp [bit]

theorem foldl_mask (f : Nat → Bool) (n : Nat) (hn : n ≤ 32) (m : Word) (k : Nat) (hk : k < 32) :
    bit ((List.range n).foldl (fun m i => if f i then m ||| ((1 : Word) <<< i) else m) m) k =
      (bit m k || (decide (k < n) && f k)) := by
  induction n with
  | zero => simp
  | succ n ih =>
      rw [List.range_succ, List.foldl_append]
      simp only [List.foldl_cons, List.foldl_nil]
      by_cases e : k = n
      · subst e
        have h1 : decide (k < k) = false := by simp
        have h2 : decide (k < k + 1) = true := by simp
        split
        · rename_i h; rw [bit_or, ih (by omega), h1, h2, h]; simp [bit, hk]
        · rename_i h; rw [ih (by omega), h1, h2]; simp [h]
      · have h1 : decide (k < n + 1) = decide (k < n) := by simp; omega
        have h2 : bit ((1 : Word) <<< n) k = false := by
          simp only [bit, BitVec.getLsbD_shiftLeft]
          simp; omega
        split
        · rw [bit_or, ih (by omega), h1, h2, Bool.or_false]
        · rw [ih (by omega), h1]

/-- A mask's bit is its function's value. -/
theorem bit_maskOf (f : Nat → Bool) (k : Nat) (hk : k < 32) : bit (maskOf f) k = f k := by
  unfold maskOf; rw [foldl_mask f 32 (by omega) 0 k hk]; simp [bit_zero', hk]

theorem mem_lanesOf (m : Word) (L : Nat) : L ∈ lanesOf m ↔ L < 32 ∧ bit m L = true := by simp [lanesOf]

theorem foldl_flags (l : List Nat) (f : Nat → Word) (a : Word) (k : Nat) :
    bit (l.foldl (fun a L => a ||| f L) a) k = true ↔ bit a k = true ∨ ∃ L ∈ l, bit (f L) k = true := by
  induction l generalizing a with
  | nil => simp
  | cons L r ih => simp [ih, bit_or, or_assoc]

/-- A flag of the active lanes together (R67). -/
theorem bit_laneFlags (p : Pane) (f : Nat → Word) (k : Nat) :
    bit (p.laneFlags f) k = true ↔ ∃ L, L < 32 ∧ p.active L = true ∧ bit (f L) k = true := by
  unfold Pane.laneFlags Pane.lanes
  rw [foldl_flags]
  simp only [bit_zero, mem_lanesOf, Pane.active]
  constructor
  · rintro (h | ⟨L, ⟨h1, h2⟩, h3⟩)
    · cases h
    · exact ⟨L, h1, h2, h3⟩
  · rintro ⟨L, h1, h2, h3⟩; exact Or.inr ⟨L, ⟨h1, h2⟩, h3⟩

/-- The values of a vector register set in the lanes of a mask; every other register and lane is as before. -/
theorem vreg_vset (p : Pane) (r : Nat) (m : Word) (f : Nat → Word) (n L : Nat) (hn : n < p.v.length) (hL : L < 32) :
    (p.vset r m f).vreg n L = if r = n ∧ bit m L = true then f L else p.vreg n L := by
  have hl : ∀ (g : Nat → Word), ((List.range 32).map g).getD L 0 = g L := by
    intro g; simp [List.getD_eq_getElem?_getD, hL]
  unfold Pane.vset Pane.vreg
  simp only [getD_setAt]
  by_cases e : r = n
  · subst e
    simp only [hn, and_self, if_true, hl]
    by_cases b : bit m L = true <;> simp [b]
  · simp [e]

theorem val_latch (f : Nat → Word) (L : Nat) (hL : L < 32) : (Latch.mk true ((List.range 32).map f)).val L = f L := by
  simp [Latch.val, List.getD_eq_getElem?_getD, hL]

theorem bit_stale (p : Pane) (b : Bool) (k : Nat) :
    bit (p.stale b).xstat k = true ↔ bit p.xstat k = true ∨ (k = 6 ∧ b = true ∧ p.xm ≠ 0) := by
  unfold Pane.stale Pane.flag
  simp only [bit_or, Bool.or_eq_true]
  cases b with
  | false => simp [flagIf, bit]
  | true =>
      by_cases h : p.xm = 0
      · simp [flagIf, bit, h]
      · have : (p.xm != 0) = true := by simpa using h
        simp only [flagIf, this, Bool.true_and, if_true]
        constructor
        · rintro (e | e)
          · exact Or.inl e
          · refine Or.inr ⟨?_, trivial, h⟩
            by_contra hk
            have : bit fLSTALE k = false := by
              unfold bit fLSTALE
              by_cases hk2 : k < 32
              · interval_cases k <;> first | rfl | exact absurd rfl hk
              · exact BitVec.getLsbD_of_ge _ _ (by omega)
            rw [this] at e; cases e
        · rintro (e | ⟨e, -, -⟩)
          · exact Or.inl e
          · subst e; exact Or.inr rfl

theorem vdst_num (p : Pane) (w : Bool) (d : VDst) (f : Nat → Word) :
    p.vdst w d f = match w, VDst.num d with
      | false, some n => p.vset n p.xm f
      | _, _ => p := by
  cases w <;> cases d <;> rfl

/-- The result of a word of the X pipe (R15, R16, R35, R67, R76), in every state. -/
theorem resultX_effect (s : State) (w : Bool) (d : VDst) (lost : Bool) (g : Nat → Word × Word) :
    XEffect s (onPane (resultX w d lost g) s) w d (fun L => (g L).1) (fun L => (g L).2) lost := by
  refine ⟨rfl, ?_, ?_, ?_, ?_, ?_⟩
  · simp only [onPane, OnlyX, resultX, Pane.stale, Pane.flag, Pane.latchX]; cases w <;> cases d <;> rfl
  · intro n L hn hL
    have : (onPane (resultX w d lost g) s).pane.vreg n L = (s.pane.vdst w d (fun L => (g L).1)).vreg n L := rfl
    rw [this]
    cases w <;> cases d <;> simp [Pane.vdst, VDst.num, vreg_vset, hn, hL, Pane.active]
  · simp only [onPane, resultX, Pane.stale, Pane.flag, Pane.latchX]; cases w <;> cases d <;> rfl
  · refine ⟨rfl, fun L hL => ?_⟩
    simp only [onPane, resultX, Pane.stale, Pane.flag, Pane.latchX]
    rw [val_latch _ _ hL]
    cases w <;> cases d <;> rfl
  · intro k _
    show bit (Pane.stale _ lost).xstat k = true ↔ _
    rw [bit_stale]
    simp only [Pane.flag, bit_or, Bool.or_eq_true, bit_laneFlags]
    cases w <;> cases d <;> simp only [Pane.vdst, Pane.latchX, Pane.vset, or_assoc]

/-- The result of a word of the Y pipe, in every state. -/
theorem resultY_effect (s : State) (w : Bool) (d : VDst) (lost : Bool) (g : Nat → Word × Word) :
    YEffect s (onPane (resultY w d lost g) s) w d (fun L => (g L).1) (fun L => (g L).2) lost := by
  refine ⟨rfl, ?_, ?_, ?_, ?_, ?_⟩
  · simp only [onPane, OnlyY, resultY, Pane.stale, Pane.flag, Pane.latchY]; cases w <;> cases d <;> rfl
  · intro n L hn hL
    have : (onPane (resultY w d lost g) s).pane.vreg n L = (s.pane.vdst w d (fun L => (g L).1)).vreg n L := rfl
    rw [this]
    cases w <;> cases d <;> simp [Pane.vdst, VDst.num, vreg_vset, hn, hL, Pane.active]
  · simp only [onPane, resultY, Pane.stale, Pane.flag, Pane.latchY]; cases w <;> cases d <;> rfl
  · refine ⟨rfl, fun L hL => ?_⟩
    simp only [onPane, resultY, Pane.stale, Pane.flag, Pane.latchY]
    rw [val_latch _ _ hL]
    cases w <;> cases d <;> rfl
  · intro k _
    show bit (Pane.stale _ lost).xstat k = true ↔ _
    rw [bit_stale]
    simp only [Pane.flag, bit_or, Bool.or_eq_true, bit_laneFlags]
    cases w <;> cases d <;> simp only [Pane.vdst, Pane.latchY, Pane.vset, or_assoc]

/-- The result of a uniform word, in every state. -/
theorem sdst_effect (s : State) (d : SDst) (x : Word) : SEffect s (onPane (fun p => d.write p x) s) d x := by
  refine ⟨rfl, ?_, ?_⟩
  · cases d <;> rfl
  · intro n hn
    cases d with
    | discard => simp [onPane, SDst.write]
    | reg r =>
        simp only [onPane, SDst.write, Pane.sset, Pane.sreg, getD_setAt, hn, and_true]
        by_cases e : r.val = n <;> simp [e]

/-- The result of a compare over the active lanes, in every state. -/
theorem cmpLanes_effect (s : State) (pd : PReg) (m : Comb) (lost : Bool) (g : Nat → Bool × Word) :
    CmpEffect s (onPane (cmpLanes pd m lost g) s) pd
      (fun L => combine m (bit (s.pane.preg pd.val) L) (g L).1) (fun L => (g L).2) lost := by
  refine ⟨rfl, ?_, ?_, ?_⟩
  · simp only [onPane, OnlyP, cmpLanes, Pane.stale, Pane.flag, Pane.pset]; split <;> rfl
  · intro k _
    show bit (Pane.stale _ lost).xstat k = true ↔ _
    rw [bit_stale]
    simp only [Pane.flag, bit_or, Bool.or_eq_true, bit_laneFlags, Pane.pset]
    split <;> simp only [or_assoc]
  · intro n L h7 hn hL
    simp only [onPane, cmpLanes, Pane.stale, Pane.flag, Pane.preg, h7, if_true, Pane.pset]
    by_cases hp : pd.val < 7
    · simp only [hp, if_true, getD_setAt]
      by_cases e : pd.val = n
      · subst e
        simp only [hn, and_self, if_true, true_and]
        rw [bit_maskOf _ _ hL]
      · simp [e]
    · have e : pd.val ≠ n := by omega
      simp [hp, e]

theorem preg_seven (p : Pane) : p.preg 7 = 0xFFFFFFFF := rfl

end Sys2Proof.Machine
end

