-- ==== Sys2Proof/Laws/Memory.lean ====
section
/-! SUPPORT. Memory words at issue: what a word that passes its checks and finds room does, said once. -/

namespace Sys2Proof.Machine

theorem memWord_go (lanewise : Bool) (s : State) (k : State → State) (hx : lanewise = true → s.pane.xm ≠ 0)
    (h : s.memMayIssue = true) : memWord lanewise s k = .next (k s) := by
  unfold memWord
  rw [if_neg, h]
  · rfl
  · cases lanewise with
    | false => simp
    | true => simpa using hx rfl

theorem memWord_off (s : State) (k : State → State) (h : s.pane.xm = 0) : memWord true s k = .next s := by
  unfold memWord; rw [if_pos]; simp [h]

theorem scaled_eq (p : Pane) (m : MMod) (a : VSrc) (L : Nat) : scaled p m a L = offsetOf p m a L := by
  unfold scaled laneOff offsetOf
  cases hm : m.p <;> cases a <;> simp [uns]

theorem lanes_eq (p : Pane) : p.lanes = activeLanes p := rfl

theorem chkAlign_none (l : List Nat) (f : Nat → Nat) (n r : Nat) (h : ∀ L ∈ l, f L % n = 0) : chkAlign l f n r = none := by
  unfold chkAlign
  rw [List.find?_eq_none.mpr, Option.map_none]
  intro x hx; simp [h x hx]

theorem chkBounds_none (l : List Nat) (f : Nat → Bool) (r : Nat) (h : ∀ L ∈ l, f L = true) : chkBounds l f r = none := by
  unfold chkBounds
  rw [List.find?_eq_none.mpr, Option.map_none]
  intro x hx; simp [h x hx]

theorem chkCap_none (p : Pane) (c : CReg) (need : BitVec 8) (h : CapAdmits p c need) :
    chkCap p.part (p.creg c.val) need c.val = none := by
  obtain ⟨h1, h2, h3⟩ := h
  simp [chkCap, chkTag, chkKey, chkRights, h1, h2, h3, Chk.or]

theorem mem_active (p : Pane) (L : Nat) : L ∈ p.lanes ↔ Act p L := by
  simp [Pane.lanes, mem_lanesOf, Act, Pane.active]

theorem chkC_none (s : State) (m : MMod) (a : VSrc) (c : CReg) (need : BitVec 8) (h : CapAdmits s.pane c need)
    (hf : LanesFit s.pane m a c) : s.chkC m a c.val need = none := by
  unfold State.chkC
  simp only [chkCap_none s.pane c need h]
  rw [chkAlign_none, chkBounds_none]
  · rfl
  · intro L hL; have := (hf L ((mem_active _ _).mp hL)).2; simpa [scaled_eq] using this
  · intro L hL; have := (hf L ((mem_active _ _).mp hL)).1; simpa [addrC, scaled_eq] using this

theorem chkSp_none (s : State) (m : MMod) (a : VSrc) (b : Fin 32) (h : ScratchFits s m a b) : s.chkSp m a b.val = none := by
  unfold State.chkSp
  simp only
  rw [chkAlign_none, chkBounds_none]
  · rfl
  · intro L hL; have := (h L ((mem_active _ _).mp hL)).2; simpa [addrS, scaled_eq, uns] using this
  · intro L hL; have := (h L ((mem_active _ _).mp hL)).1; simpa [addrS, scaled_eq, uns] using this

theorem chkDs_none (s : State) (m : MMod) (a : VSrc) (b : Fin 32) (h : SliceFits s m a b) : s.chkDs m a b.val = none := by
  unfold State.chkDs
  simp only
  rw [chkAlign_none, chkBounds_none]
  · rfl
  · intro L hL
    obtain ⟨_, h2, h3, h4⟩ := h L ((mem_active _ _).mp hL)
    simp only [State.dsOk, addrS, scaled_eq, uns, groupOf, Bool.and_eq_true, decide_eq_true_eq]
    exact ⟨⟨h2, h3⟩, h4⟩
  · intro L hL; have := (h L ((mem_active _ _).mp hL)).1; simpa [addrS, scaled_eq, uns] using this

/-- A request with room leaves (R36, R175, R179). -/
theorem startReq_sent (s : State) (r : Req) (m : MMod) (lost : Bool) (hc : CanSend s m r.ac r.entry)
    (hrel : r.rel = true → m.ord = .rel ∨ m.ord = .ar) (hsys : r.sys = true → m.scope = .sys) :
    s.startReq none r lost = s.sendReq r lost := by
  obtain ⟨h1, h2, h3, h4⟩ := hc
  unfold State.startReq
  have hq : s.relReady r = true := by
    unfold State.relReady
    cases hr : r.rel with
    | false => rfl
    | true =>
        obtain ⟨h5, h6⟩ := h4 (hrel hr)
        cases hs : r.sys with
        | false => simp [h5]
        | true => simp [h5, h6 (hsys hs)]
  have hr : s.room r = true := by
    unfold State.room
    cases ha : r.ac with
    | none => cases he : r.entry <;> simp [he] at h3 ⊢; exact h3
    | some k =>
        have := h2 k ha
        cases he : r.entry <;> simp [he, Pane.acFull] at h3 this ⊢
        · exact this
        · exact ⟨this, h3⟩
  simp [hq, hr]

/-- What has been sent. -/
theorem sendReq_sent (s : State) (r : Req) (m : MMod) (lost : Bool) (h1 : r.rid = s.nextRid) (h2 : r.pid = s.pane.pid)
    (h3 : r.core = s.pane.core) (h4 : r.part = s.pane.part) (h5 : r.grid = s.pane.grid) (h6 : r.team = s.pane.team)
    (h7 : r.pord = s.pane.pord) (h8 : r.pkt = pcPkt s.pane.pc) (h9 : r.slot = pcSlot s.pane.pc) (h10 : r.xm = s.pane.xm)
    (h11 : r.accepted = false) (h12 : r.acq = (m.ord == .acq || m.ord == .ar)) (h13 : r.rel = (m.ord == .rel || m.ord == .ar))
    (h14 : r.sys = (m.scope == .sys)) : Sent s (s.sendReq r lost) r m lost := by
  refine ⟨?_, ?_, ?_, h1, h2, h3, h4, h5, h6, h7, h8, h9, h10, h11, ?_, ?_, ?_⟩
  · unfold State.sendReq onPane Pane.stale Pane.flag Pane.acUp? Pane.acUp
    cases r.ac <;> rfl
  · intro k _
    show bit (Pane.stale _ lost).xstat k = true ↔ _
    rw [bit_stale]
    have e1 : (s.pane.acUp? r.ac).xstat = s.pane.xstat := by unfold Pane.acUp? Pane.acUp; cases r.ac <;> rfl
    have e2 : (s.pane.acUp? r.ac).xm = s.pane.xm := by unfold Pane.acUp? Pane.acUp; cases r.ac <;> rfl
    simp [e1, e2, noFlags, bit_zero']
  · unfold State.sendReq onPane Pane.stale Pane.flag Pane.acUp? Pane.acUp
    cases r.ac <;> rfl
  · simp [h12]
  · simp [h13]
  · simp [h14]

end Sys2Proof.Machine
end

