-- ==== Sys2Proof/Laws/PerInstr.lean ====
section
/-! SUPPORT. Per instruction: the word that the encoder writes leaves the chain bit free (R33, R39 to R42). -/

namespace Sys2Proof.Laws

/-! ### Codes fit their fields -/

@[simp] theorem vSrc_code_lt (x : VSrc) : x.code < 128 := by
  cases x <;> simp only [VSrc.code] <;> omega

@[simp] theorem vDst_code_lt (x : VDst) : x.code < 128 := by
  cases x <;> simp only [VDst.code] <;> omega

@[simp] theorem sSrc_code_lt (x : SSrc) : x.code < 128 := by
  cases x <;> simp only [SSrc.code] <;> omega

@[simp] theorem sDst_code_lt (x : SDst) : x.code < 128 := by
  cases x <;> simp only [SDst.code] <;> omega

@[simp] theorem sOpt_code_lt (x : SOpt) : x.code < 128 := by
  cases x <;> simp only [SOpt.code] <;> omega

@[simp] theorem satMode_code_lt (x : SatMode) : x.code < 4 := by
  cases x <;> simp only [SatMode.code] <;> omega

@[simp] theorem rm_code_lt (x : Rm) : x.code < 4 := by
  cases x <;> simp only [Rm.code] <;> omega

@[simp] theorem addend_code_lt (x : Addend) : x.code < 4 := by
  cases x <;> simp only [Addend.code] <;> omega

@[simp] theorem divMode_code_lt (x : DivMode) : x.code < 4 := by
  cases x <;> simp only [DivMode.code] <;> omega

@[simp] theorem iCond_code_lt (x : ICond) : x.code < 16 := by
  cases x <;> simp only [ICond.code] <;> omega

@[simp] theorem fCond_code_lt (x : FCond) : x.code < 16 := by
  cases x <;> simp only [FCond.code] <;> omega

@[simp] theorem comb_code_lt (x : Comb) : x.code < 4 := by
  cases x <;> simp only [Comb.code] <;> omega

@[simp] theorem hFmt_code_lt (x : HFmt) : x.code < 4 := by
  cases x <;> simp only [HFmt.code] <;> omega

@[simp] theorem cFmt_code_lt (x : CFmt) : x.code < 12 := by
  cases x <;> simp only [CFmt.code] <;> omega

@[simp] theorem shMode_code_lt (x : ShMode) : x.code < 4 := by
  cases x <;> simp only [ShMode.code] <;> omega

@[simp] theorem shflMode_code_lt (x : ShflMode) : x.code < 4 := by
  cases x <;> simp only [ShflMode.code] <;> omega

@[simp] theorem voteMode_code_lt (x : VoteMode) : x.code < 4 := by
  cases x <;> simp only [VoteMode.code] <;> omega

@[simp] theorem laneOp_code_lt (x : LaneOp) : x.code < 16 := by
  cases x <;> simp only [LaneOp.code] <;> omega

@[simp] theorem sfnOp_code_lt (x : SfnOp) : x.code < 16 := by
  cases x <;> simp only [SfnOp.code] <;> omega

@[simp] theorem fOrd_code_lt (x : FOrd) : x.code < 4 := by
  cases x <;> simp only [FOrd.code] <;> omega

@[simp] theorem ord_code_lt (x : Ord) : x.code < 4 := by
  cases x <;> simp only [Ord.code] <;> omega

@[simp] theorem scope_code_lt (x : Scope) : x.code < 8 := by
  cases x <;> simp only [Scope.code] <;> omega

@[simp] theorem aOp_code_lt (x : AOp) : x.code < 16 := by
  cases x <;> simp only [AOp.code] <;> omega

@[simp] theorem hadMode_code_lt (x : HadMode) : x.code < 4 := by
  cases x <;> simp only [HadMode.code] <;> omega

@[simp] theorem cull_code_lt (x : Cull) : x.code < 4 := by
  cases x <;> simp only [Cull.code] <;> omega

@[simp] theorem collOp_code_lt (x : CollOp) : x.code < 16 := by
  cases x <;> simp only [CollOp.code] <;> omega

@[simp] theorem csr_code_lt (x : Csr) : x.code < 16 := by
  cases x <;> simp only [Csr.code] <;> omega

@[simp] theorem mSize_code_lt (x : MSize) : x.code < 8 := by
  cases x <;> simp only [MSize.code] <;> omega

@[simp] theorem chFmt_code_lt (x : ChFmt) : x.code < 4 := by
  cases x <;> simp only [ChFmt.code] <;> omega

@[simp] theorem statusCode_lt62 (d : Option (Fin 62)) : statusCode d < 128 := by
  cases d <;> simp only [statusCode] <;> omega

@[simp] theorem statusCode_lt (d : Option (Fin 63)) : statusCode d < 128 := by
  cases d <;> simp only [statusCode] <;> omega

@[simp] theorem bool_lt (b : Bool) : b.toNat < 2 := by cases b <;> decide

@[simp] theorem bool_lt4 (b : Bool) : b.toNat < 4 := by cases b <;> decide

@[simp] theorem lane_code_lt128 (x : LaneOp) : x.code < 128 := by cases x <;> decide

@[simp] theorem hFmt_code_lt4 (x : HFmt) : x.code < 4 := by cases x <;> decide

/-! ### The layouts fit 31 bits -/

theorem wBase_lt {w : Bool} {op d a b m : Nat} (ho : op < 128) (hd : d < 128) (ha : a < 128) (hb : b < 128) (hm : m < 4) :
    wBase w op d a b m < 2 ^ 31 := by
  have := bool_lt w
  simp only [wBase]; omega

theorem wImm_lt {w : Bool} {op d imm : Nat} (ho : op < 128) (hd : d < 128) (hi : imm < 2 ^ 16) : wImm w op d imm < 2 ^ 31 := by
  have := bool_lt w
  simp only [wImm]; omega

theorem wCmp_lt {op pd c a b m : Nat} (ho : op < 128) (hd : pd < 8) (hc : c < 16) (ha : a < 128) (hb : b < 128) (hm : m < 4) :
    wCmp op pd c a b m < 2 ^ 31 := by
  simp only [wCmp]; omega

theorem wBr_lt {op sel off : Nat} (ho : op < 128) (hs : sel < 8) (hf : off < 2 ^ 20) : wBr op sel off < 2 ^ 31 := by
  simp only [wBr]; omega

theorem wPred_lt {d a b sub : Nat} (hd : d < 8) (ha : a < 8) (hb : b < 8) (hs : sub < 8) : wPred d a b sub < 2 ^ 31 := by
  simp only [wPred]; omega

theorem wMem_lt {e : Bool} {op d a base ac : Nat} (ho : op < 128) (hd : d < 128) (ha : a < 128) (hb : base < 32) (hc : ac < 16) :
    wMem e op d a base ac < 2 ^ 31 := by
  have := bool_lt e
  simp only [wMem]; omega

end Sys2Proof.Laws

open Sys2Proof Sys2Proof.Laws

/-- The word of an instruction leaves bit 31, the chain bit, free. -/
def Sys2Proof.Laws.WordFits.Statement (i : Instr) : Prop :=
  ∀ w x, encode i = some (w, x) → w < 2 ^ 31

theorem Sys2Proof.Laws.WordFits.iadd w m d a b : WordFits.Statement (.iadd w m d a b) := by
  intro w x h
  obtain ⟨rfl, -⟩ := Prod.mk.inj (Option.some.inj h)
  apply wBase_lt <;> simp

theorem Sys2Proof.Laws.WordFits.iaddc w d a b : WordFits.Statement (.iaddc w d a b) := by
  intro w x h
  obtain ⟨rfl, -⟩ := Prod.mk.inj (Option.some.inj h)
  apply wBase_lt <;> simp

theorem Sys2Proof.Laws.WordFits.isub w m d a b : WordFits.Statement (.isub w m d a b) := by
  intro w x h
  obtain ⟨rfl, -⟩ := Prod.mk.inj (Option.some.inj h)
  apply wBase_lt <;> simp

theorem Sys2Proof.Laws.WordFits.imul w d a b : WordFits.Statement (.imul w d a b) := by
  intro w x h
  obtain ⟨rfl, -⟩ := Prod.mk.inj (Option.some.inj h)
  apply wBase_lt <;> simp

theorem Sys2Proof.Laws.WordFits.imulh w u d a b : WordFits.Statement (.imulh w u d a b) := by
  intro w x h
  obtain ⟨rfl, -⟩ := Prod.mk.inj (Option.some.inj h)
  apply wBase_lt <;> simp

theorem Sys2Proof.Laws.WordFits.imad w c d a b : WordFits.Statement (.imad w c d a b) := by
  intro w x h
  obtain ⟨rfl, -⟩ := Prod.mk.inj (Option.some.inj h)
  apply wBase_lt <;> simp

theorem Sys2Proof.Laws.WordFits.idiv w m d a b : WordFits.Statement (.idiv w m d a b) := by
  intro w x h
  obtain ⟨rfl, -⟩ := Prod.mk.inj (Option.some.inj h)
  apply wBase_lt <;> simp

theorem Sys2Proof.Laws.WordFits.imin w u d a b : WordFits.Statement (.imin w u d a b) := by
  intro w x h
  obtain ⟨rfl, -⟩ := Prod.mk.inj (Option.some.inj h)
  apply wBase_lt <;> simp

theorem Sys2Proof.Laws.WordFits.imax w u d a b : WordFits.Statement (.imax w u d a b) := by
  intro w x h
  obtain ⟨rfl, -⟩ := Prod.mk.inj (Option.some.inj h)
  apply wBase_lt <;> simp

theorem Sys2Proof.Laws.WordFits.iabs w d a : WordFits.Statement (.iabs w d a) := by
  intro w x h
  obtain ⟨rfl, -⟩ := Prod.mk.inj (Option.some.inj h)
  apply wBase_lt <;> simp

theorem Sys2Proof.Laws.WordFits.lea w sh d a b : WordFits.Statement (.lea w sh d a b) := by
  intro w x h
  obtain ⟨rfl, -⟩ := Prod.mk.inj (Option.some.inj h)
  apply wBase_lt <;> simp

theorem Sys2Proof.Laws.WordFits.iset p cond m a b : WordFits.Statement (.iset p cond m a b) := by
  intro w x h
  obtain ⟨rfl, -⟩ := Prod.mk.inj (Option.some.inj h)
  apply wCmp_lt <;> simp

theorem Sys2Proof.Laws.WordFits.sel w p d a b : WordFits.Statement (.sel w p d a b) := by
  intro w x h
  obtain ⟨rfl, -⟩ := Prod.mk.inj (Option.some.inj h)
  apply wBase_lt <;> simp

theorem Sys2Proof.Laws.WordFits.mov w d a : WordFits.Statement (.mov w d a) := by
  intro w x h
  obtain ⟨rfl, -⟩ := Prod.mk.inj (Option.some.inj h)
  apply wBase_lt <;> simp

theorem Sys2Proof.Laws.WordFits.movs w d a : WordFits.Statement (.movs w d a) := by
  intro w x h
  obtain ⟨rfl, -⟩ := Prod.mk.inj (Option.some.inj h)
  apply wBase_lt <;> simp

theorem Sys2Proof.Laws.WordFits.movImm w d imm : WordFits.Statement (.movImm w d imm) := by
  intro w x h
  obtain ⟨rfl, -⟩ := Prod.mk.inj (Option.some.inj h)
  apply wImm_lt <;> (first | omega | simp)

theorem Sys2Proof.Laws.WordFits.fadd w rm d a b : WordFits.Statement (.fadd w rm d a b) := by
  intro w x h
  obtain ⟨rfl, -⟩ := Prod.mk.inj (Option.some.inj h)
  apply wBase_lt <;> simp

theorem Sys2Proof.Laws.WordFits.fsub w rm d a b : WordFits.Statement (.fsub w rm d a b) := by
  intro w x h
  obtain ⟨rfl, -⟩ := Prod.mk.inj (Option.some.inj h)
  apply wBase_lt <;> simp

theorem Sys2Proof.Laws.WordFits.fmul w rm d a b : WordFits.Statement (.fmul w rm d a b) := by
  intro w x h
  obtain ⟨rfl, -⟩ := Prod.mk.inj (Option.some.inj h)
  apply wBase_lt <;> simp

theorem Sys2Proof.Laws.WordFits.ffma w c d a b : WordFits.Statement (.ffma w c d a b) := by
  intro w x h
  obtain ⟨rfl, -⟩ := Prod.mk.inj (Option.some.inj h)
  apply wBase_lt <;> simp

theorem Sys2Proof.Laws.WordFits.fmin w d a b : WordFits.Statement (.fmin w d a b) := by
  intro w x h
  obtain ⟨rfl, -⟩ := Prod.mk.inj (Option.some.inj h)
  apply wBase_lt <;> simp

theorem Sys2Proof.Laws.WordFits.fmax w d a b : WordFits.Statement (.fmax w d a b) := by
  intro w x h
  obtain ⟨rfl, -⟩ := Prod.mk.inj (Option.some.inj h)
  apply wBase_lt <;> simp

theorem Sys2Proof.Laws.WordFits.fset p cond m a b : WordFits.Statement (.fset p cond m a b) := by
  intro w x h
  obtain ⟨rfl, -⟩ := Prod.mk.inj (Option.some.inj h)
  apply wCmp_lt <;> simp

theorem Sys2Proof.Laws.WordFits.fclass w d a : WordFits.Statement (.fclass w d a) := by
  intro w x h
  obtain ⟨rfl, -⟩ := Prod.mk.inj (Option.some.inj h)
  apply wBase_lt <;> simp

theorem Sys2Proof.Laws.WordFits.frnd w rm d a : WordFits.Statement (.frnd w rm d a) := by
  intro w x h
  obtain ⟨rfl, -⟩ := Prod.mk.inj (Option.some.inj h)
  apply wBase_lt <;> simp

theorem Sys2Proof.Laws.WordFits.hadd2 w f d a b : WordFits.Statement (.hadd2 w f d a b) := by
  intro w x h
  obtain ⟨rfl, -⟩ := Prod.mk.inj (Option.some.inj h)
  apply wBase_lt <;> simp

theorem Sys2Proof.Laws.WordFits.hmul2 w f d a b : WordFits.Statement (.hmul2 w f d a b) := by
  intro w x h
  obtain ⟨rfl, -⟩ := Prod.mk.inj (Option.some.inj h)
  apply wBase_lt <;> simp

theorem Sys2Proof.Laws.WordFits.hfma2 w f d a b : WordFits.Statement (.hfma2 w f d a b) := by
  intro w x h
  obtain ⟨rfl, -⟩ := Prod.mk.inj (Option.some.inj h)
  apply wBase_lt <;> simp

theorem Sys2Proof.Laws.WordFits.hmin2 w f d a b : WordFits.Statement (.hmin2 w f d a b) := by
  intro w x h
  obtain ⟨rfl, -⟩ := Prod.mk.inj (Option.some.inj h)
  apply wBase_lt <;> simp

theorem Sys2Proof.Laws.WordFits.hmax2 w f d a b : WordFits.Statement (.hmax2 w f d a b) := by
  intro w x h
  obtain ⟨rfl, -⟩ := Prod.mk.inj (Option.some.inj h)
  apply wBase_lt <;> simp

theorem Sys2Proof.Laws.WordFits.cvt w df sf rm d a : WordFits.Statement (.cvt w df sf rm d a) := by
  intro w x h
  obtain ⟨rfl, -⟩ := Prod.mk.inj (Option.some.inj h)
  apply wBase_lt <;> (first | decide | omega | simp | grind [cFmt_code_lt])

theorem Sys2Proof.Laws.WordFits.ffmaRm w rm d a b : WordFits.Statement (.ffmaRm w rm d a b) := by
  intro w x h
  obtain ⟨rfl, -⟩ := Prod.mk.inj (Option.some.inj h)
  apply wBase_lt <;> simp

theorem Sys2Proof.Laws.WordFits.iaddImm w d imm : WordFits.Statement (.iaddImm w d imm) := by
  intro w x h
  obtain ⟨rfl, -⟩ := Prod.mk.inj (Option.some.inj h)
  apply wImm_lt <;> (first | omega | simp)

theorem Sys2Proof.Laws.WordFits.and w d a b : WordFits.Statement (.and w d a b) := by
  intro w x h
  obtain ⟨rfl, -⟩ := Prod.mk.inj (Option.some.inj h)
  apply wBase_lt <;> simp

theorem Sys2Proof.Laws.WordFits.or w d a b : WordFits.Statement (.or w d a b) := by
  intro w x h
  obtain ⟨rfl, -⟩ := Prod.mk.inj (Option.some.inj h)
  apply wBase_lt <;> simp

theorem Sys2Proof.Laws.WordFits.xor w d a b : WordFits.Statement (.xor w d a b) := by
  intro w x h
  obtain ⟨rfl, -⟩ := Prod.mk.inj (Option.some.inj h)
  apply wBase_lt <;> simp

theorem Sys2Proof.Laws.WordFits.andn w d a b : WordFits.Statement (.andn w d a b) := by
  intro w x h
  obtain ⟨rfl, -⟩ := Prod.mk.inj (Option.some.inj h)
  apply wBase_lt <;> simp

theorem Sys2Proof.Laws.WordFits.shl w d a b : WordFits.Statement (.shl w d a b) := by
  intro w x h
  obtain ⟨rfl, -⟩ := Prod.mk.inj (Option.some.inj h)
  apply wBase_lt <;> simp

theorem Sys2Proof.Laws.WordFits.shr w d a b : WordFits.Statement (.shr w d a b) := by
  intro w x h
  obtain ⟨rfl, -⟩ := Prod.mk.inj (Option.some.inj h)
  apply wBase_lt <;> simp

theorem Sys2Proof.Laws.WordFits.sar w d a b : WordFits.Statement (.sar w d a b) := by
  intro w x h
  obtain ⟨rfl, -⟩ := Prod.mk.inj (Option.some.inj h)
  apply wBase_lt <;> simp

theorem Sys2Proof.Laws.WordFits.rotl w d a b : WordFits.Statement (.rotl w d a b) := by
  intro w x h
  obtain ⟨rfl, -⟩ := Prod.mk.inj (Option.some.inj h)
  apply wBase_lt <;> simp

theorem Sys2Proof.Laws.WordFits.bfx w sg d a b : WordFits.Statement (.bfx w sg d a b) := by
  intro w x h
  obtain ⟨rfl, -⟩ := Prod.mk.inj (Option.some.inj h)
  apply wBase_lt <;> simp

theorem Sys2Proof.Laws.WordFits.bfi w d a b : WordFits.Statement (.bfi w d a b) := by
  intro w x h
  obtain ⟨rfl, -⟩ := Prod.mk.inj (Option.some.inj h)
  apply wBase_lt <;> simp

theorem Sys2Proof.Laws.WordFits.popc w d a : WordFits.Statement (.popc w d a) := by
  intro w x h
  obtain ⟨rfl, -⟩ := Prod.mk.inj (Option.some.inj h)
  apply wBase_lt <;> simp

theorem Sys2Proof.Laws.WordFits.clz w d a : WordFits.Statement (.clz w d a) := by
  intro w x h
  obtain ⟨rfl, -⟩ := Prod.mk.inj (Option.some.inj h)
  apply wBase_lt <;> simp

theorem Sys2Proof.Laws.WordFits.brev w d a : WordFits.Statement (.brev w d a) := by
  intro w x h
  obtain ⟨rfl, -⟩ := Prod.mk.inj (Option.some.inj h)
  apply wBase_lt <;> simp

theorem Sys2Proof.Laws.WordFits.sadd d a b : WordFits.Statement (.sadd d a b) := by
  intro w x h
  obtain ⟨rfl, -⟩ := Prod.mk.inj (Option.some.inj h)
  apply wBase_lt <;> simp

theorem Sys2Proof.Laws.WordFits.ssub d a b : WordFits.Statement (.ssub d a b) := by
  intro w x h
  obtain ⟨rfl, -⟩ := Prod.mk.inj (Option.some.inj h)
  apply wBase_lt <;> simp

theorem Sys2Proof.Laws.WordFits.smul d a b : WordFits.Statement (.smul d a b) := by
  intro w x h
  obtain ⟨rfl, -⟩ := Prod.mk.inj (Option.some.inj h)
  apply wBase_lt <;> simp

theorem Sys2Proof.Laws.WordFits.sshl m d a b : WordFits.Statement (.sshl m d a b) := by
  intro w x h
  obtain ⟨rfl, -⟩ := Prod.mk.inj (Option.some.inj h)
  apply wBase_lt <;> simp

theorem Sys2Proof.Laws.WordFits.sand d a b : WordFits.Statement (.sand d a b) := by
  intro w x h
  obtain ⟨rfl, -⟩ := Prod.mk.inj (Option.some.inj h)
  apply wBase_lt <;> simp

theorem Sys2Proof.Laws.WordFits.sor d a b : WordFits.Statement (.sor d a b) := by
  intro w x h
  obtain ⟨rfl, -⟩ := Prod.mk.inj (Option.some.inj h)
  apply wBase_lt <;> simp

theorem Sys2Proof.Laws.WordFits.smov d a : WordFits.Statement (.smov d a) := by
  intro w x h
  obtain ⟨rfl, -⟩ := Prod.mk.inj (Option.some.inj h)
  apply wBase_lt <;> simp

theorem Sys2Proof.Laws.WordFits.sset p cond m a b : WordFits.Statement (.sset p cond m a b) := by
  intro w x h
  obtain ⟨rfl, -⟩ := Prod.mk.inj (Option.some.inj h)
  apply wCmp_lt <;> simp

theorem Sys2Proof.Laws.WordFits.slea sh d a b : WordFits.Statement (.slea sh d a b) := by
  intro w x h
  obtain ⟨rfl, -⟩ := Prod.mk.inj (Option.some.inj h)
  apply wBase_lt <;> simp

theorem Sys2Proof.Laws.WordFits.smovImm d imm : WordFits.Statement (.smovImm d imm) := by
  intro w x h
  obtain ⟨rfl, -⟩ := Prod.mk.inj (Option.some.inj h)
  apply wImm_lt <;> (first | omega | simp)

theorem Sys2Proof.Laws.WordFits.saddImm d imm : WordFits.Statement (.saddImm d imm) := by
  intro w x h
  obtain ⟨rfl, -⟩ := Prod.mk.inj (Option.some.inj h)
  apply wImm_lt <;> (first | omega | simp)

theorem Sys2Proof.Laws.WordFits.bra sel off : WordFits.Statement (.bra sel off) := by
  intro w x h
  obtain ⟨rfl, -⟩ := Prod.mk.inj (Option.some.inj h)
  apply wBr_lt <;> (first | decide | omega)

theorem Sys2Proof.Laws.WordFits.brx a : WordFits.Statement (.brx a) := by
  intro w x h
  obtain ⟨rfl, -⟩ := Prod.mk.inj (Option.some.inj h)
  apply wBase_lt <;> (first | decide | omega)

theorem Sys2Proof.Laws.WordFits.call sel off : WordFits.Statement (.call sel off) := by
  intro w x h
  obtain ⟨rfl, -⟩ := Prod.mk.inj (Option.some.inj h)
  apply wBr_lt <;> (first | decide | omega)

theorem Sys2Proof.Laws.WordFits.ret : WordFits.Statement (.ret) := by
  intro w x h
  obtain ⟨rfl, -⟩ := Prod.mk.inj (Option.some.inj h)
  apply wBase_lt <;> simp

theorem Sys2Proof.Laws.WordFits.split sel off : WordFits.Statement (.split sel off) := by
  intro w x h
  obtain ⟨rfl, -⟩ := Prod.mk.inj (Option.some.inj h)
  apply wBr_lt <;> (first | decide | omega)

theorem Sys2Proof.Laws.WordFits.join : WordFits.Statement (.join) := by
  intro w x h
  obtain ⟨rfl, -⟩ := Prod.mk.inj (Option.some.inj h)
  apply wBase_lt <;> simp

theorem Sys2Proof.Laws.WordFits.brk sel off : WordFits.Statement (.brk sel off) := by
  intro w x h
  obtain ⟨rfl, -⟩ := Prod.mk.inj (Option.some.inj h)
  apply wBr_lt <;> (first | decide | omega)

theorem Sys2Proof.Laws.WordFits.loop d len i0 i1 i2 i3 : WordFits.Statement (.loop d len i0 i1 i2 i3) := by
  intro w x h
  obtain ⟨rfl, -⟩ := Prod.mk.inj (Option.some.inj h)
  apply wImm_lt <;> (first | omega | simp)

theorem Sys2Proof.Laws.WordFits.xmrd d : WordFits.Statement (.xmrd d) := by
  intro w x h
  obtain ⟨rfl, -⟩ := Prod.mk.inj (Option.some.inj h)
  apply wBase_lt <;> simp

theorem Sys2Proof.Laws.WordFits.xmwr a : WordFits.Statement (.xmwr a) := by
  intro w x h
  obtain ⟨rfl, -⟩ := Prod.mk.inj (Option.some.inj h)
  apply wBase_lt <;> simp

theorem Sys2Proof.Laws.WordFits.xmand p : WordFits.Statement (.xmand p) := by
  intro w x h
  obtain ⟨rfl, -⟩ := Prod.mk.inj (Option.some.inj h)
  apply wBase_lt <;> (first | decide | omega)

theorem Sys2Proof.Laws.WordFits.pand d a b : WordFits.Statement (.pand d a b) := by
  intro w x h
  obtain ⟨rfl, -⟩ := Prod.mk.inj (Option.some.inj h)
  apply wPred_lt <;> simp

theorem Sys2Proof.Laws.WordFits.por d a b : WordFits.Statement (.por d a b) := by
  intro w x h
  obtain ⟨rfl, -⟩ := Prod.mk.inj (Option.some.inj h)
  apply wPred_lt <;> simp

theorem Sys2Proof.Laws.WordFits.pxor d a b : WordFits.Statement (.pxor d a b) := by
  intro w x h
  obtain ⟨rfl, -⟩ := Prod.mk.inj (Option.some.inj h)
  apply wPred_lt <;> simp

theorem Sys2Proof.Laws.WordFits.pnot d a : WordFits.Statement (.pnot d a) := by
  intro w x h
  obtain ⟨rfl, -⟩ := Prod.mk.inj (Option.some.inj h)
  apply wPred_lt <;> simp

theorem Sys2Proof.Laws.WordFits.pmov d a : WordFits.Statement (.pmov d a) := by
  intro w x h
  obtain ⟨rfl, -⟩ := Prod.mk.inj (Option.some.inj h)
  apply wPred_lt <;> simp

theorem Sys2Proof.Laws.WordFits.nop : WordFits.Statement (.nop) := by
  intro w x h
  obtain ⟨rfl, -⟩ := Prod.mk.inj (Option.some.inj h)
  apply wBase_lt <;> simp

theorem Sys2Proof.Laws.WordFits.exit : WordFits.Statement (.exit) := by
  intro w x h
  obtain ⟨rfl, -⟩ := Prod.mk.inj (Option.some.inj h)
  apply wBase_lt <;> simp

theorem Sys2Proof.Laws.WordFits.yield : WordFits.Statement (.yield) := by
  intro w x h
  obtain ⟨rfl, -⟩ := Prod.mk.inj (Option.some.inj h)
  apply wBase_lt <;> simp

theorem Sys2Proof.Laws.WordFits.trap code : WordFits.Statement (.trap code) := by
  intro w x h
  obtain ⟨rfl, -⟩ := Prod.mk.inj (Option.some.inj h)
  apply wBase_lt <;> (first | decide | omega)

theorem Sys2Proof.Laws.WordFits.trapHost code : WordFits.Statement (.trapHost code) := by
  intro w x h
  obtain ⟨rfl, -⟩ := Prod.mk.inj (Option.some.inj h)
  apply wBase_lt <;> (first | decide | omega)

theorem Sys2Proof.Laws.WordFits.rtt : WordFits.Statement (.rtt) := by
  intro w x h
  obtain ⟨rfl, -⟩ := Prod.mk.inj (Option.some.inj h)
  apply wBase_lt <;> simp

theorem Sys2Proof.Laws.WordFits.bkpt : WordFits.Statement (.bkpt) := by
  intro w x h
  obtain ⟨rfl, -⟩ := Prod.mk.inj (Option.some.inj h)
  apply wBase_lt <;> simp

theorem Sys2Proof.Laws.WordFits.fence ord scope : WordFits.Statement (.fence ord scope) := by
  intro w x h
  obtain ⟨rfl, -⟩ := Prod.mk.inj (Option.some.inj h)
  apply wBase_lt <;> (first | decide | omega | simp | grind [fOrd_code_lt, scope_code_lt])

theorem Sys2Proof.Laws.WordFits.csrr d csr : WordFits.Statement (.csrr d csr) := by
  intro w x h
  obtain ⟨rfl, -⟩ := Prod.mk.inj (Option.some.inj h)
  have := csr_code_lt csr
  apply wImm_lt <;> (first | omega | simp)

theorem Sys2Proof.Laws.WordFits.csrw a csr : WordFits.Statement (.csrw a csr) := by
  intro w x h
  obtain ⟨rfl, -⟩ := Prod.mk.inj (Option.some.inj h)
  have := csr_code_lt csr
  apply wImm_lt <;> (first | omega | simp)

theorem Sys2Proof.Laws.WordFits.barArrive d n ord : WordFits.Statement (.barArrive d n ord) := by
  intro w x h
  obtain ⟨rfl, -⟩ := Prod.mk.inj (Option.some.inj h)
  have := ord_code_lt ord
  apply wImm_lt <;> (first | omega | simp)

theorem Sys2Proof.Laws.WordFits.barWait d n ord : WordFits.Statement (.barWait d n ord) := by
  intro w x h
  obtain ⟨rfl, -⟩ := Prod.mk.inj (Option.some.inj h)
  have := ord_code_lt ord
  apply wImm_lt <;> (first | omega | simp)

theorem Sys2Proof.Laws.WordFits.barSync d n ord : WordFits.Statement (.barSync d n ord) := by
  intro w x h
  obtain ⟨rfl, -⟩ := Prod.mk.inj (Option.some.inj h)
  have := ord_code_lt ord
  apply wImm_lt <;> (first | omega | simp)

theorem Sys2Proof.Laws.WordFits.waittk mask : WordFits.Statement (.waittk mask) := by
  intro w x h
  obtain ⟨rfl, -⟩ := Prod.mk.inj (Option.some.inj h)
  apply wImm_lt <;> (first | decide | omega)

theorem Sys2Proof.Laws.WordFits.waitac ac t : WordFits.Statement (.waitac ac t) := by
  intro w x h
  cases t <;> (obtain ⟨rfl, -⟩ := Prod.mk.inj (Option.some.inj h); apply wImm_lt <;> first | decide | omega)

theorem Sys2Proof.Laws.WordFits.shfl w m d a b : WordFits.Statement (.shfl w m d a b) := by
  intro w x h
  obtain ⟨rfl, -⟩ := Prod.mk.inj (Option.some.inj h)
  apply wBase_lt <;> simp

theorem Sys2Proof.Laws.WordFits.vote m d a : WordFits.Statement (.vote m d a) := by
  intro w x h
  obtain ⟨rfl, -⟩ := Prod.mk.inj (Option.some.inj h)
  apply wBase_lt <;> simp

theorem Sys2Proof.Laws.WordFits.lred op d a : WordFits.Statement (.lred op d a) := by
  intro w x h
  obtain ⟨rfl, -⟩ := Prod.mk.inj (Option.some.inj h)
  apply wBase_lt <;> simp

theorem Sys2Proof.Laws.WordFits.lscan w op exc d a : WordFits.Statement (.lscan w op exc d a) := by
  intro w x h
  obtain ⟨rfl, -⟩ := Prod.mk.inj (Option.some.inj h)
  apply wBase_lt <;> simp

theorem Sys2Proof.Laws.WordFits.matchLanes w d a : WordFits.Statement (.matchLanes w d a) := by
  intro w x h
  obtain ⟨rfl, -⟩ := Prod.mk.inj (Option.some.inj h)
  apply wBase_lt <;> simp

theorem Sys2Proof.Laws.WordFits.reorder w d a b : WordFits.Statement (.reorder w d a b) := by
  intro w x h
  obtain ⟨rfl, -⟩ := Prod.mk.inj (Option.some.inj h)
  apply wBase_lt <;> simp

theorem Sys2Proof.Laws.WordFits.rebal w d a : WordFits.Statement (.rebal w d a) := by
  intro w x h
  obtain ⟨rfl, -⟩ := Prod.mk.inj (Option.some.inj h)
  apply wBase_lt <;> (first | omega | simp)

theorem Sys2Proof.Laws.WordFits.elect p : WordFits.Statement (.elect p) := by
  intro w x h
  obtain ⟨rfl, -⟩ := Prod.mk.inj (Option.some.inj h)
  apply wBase_lt <;> (first | decide | omega)

theorem Sys2Proof.Laws.WordFits.nzs w d a b : WordFits.Statement (.nzs w d a b) := by
  intro w x h
  obtain ⟨rfl, -⟩ := Prod.mk.inj (Option.some.inj h)
  apply wBase_lt <;> simp

theorem Sys2Proof.Laws.WordFits.sfn w fn tk d a : WordFits.Statement (.sfn w fn tk d a) := by
  intro w' x h
  obtain ⟨rfl, -⟩ := Prod.mk.inj (Option.some.inj h)
  grind [sfnOp_code_lt, vDst_code_lt, vSrc_code_lt, bool_lt]

theorem Sys2Proof.Laws.WordFits.waitmb mask : WordFits.Statement (.waitmb mask) := by
  intro w x h
  obtain ⟨rfl, -⟩ := Prod.mk.inj (Option.some.inj h)
  apply wImm_lt <;> (first | decide | omega)

theorem Sys2Proof.Laws.WordFits.ldsp d a base ac m : WordFits.Statement (.ldsp d a base ac m) := by
  intro w x h
  obtain ⟨rfl, -⟩ := Prod.mk.inj (Option.some.inj h)
  apply wMem_lt <;> (first | omega | simp)

theorem Sys2Proof.Laws.WordFits.stsp d a base ac m : WordFits.Statement (.stsp d a base ac m) := by
  intro w x h
  obtain ⟨rfl, -⟩ := Prod.mk.inj (Option.some.inj h)
  apply wMem_lt <;> simp

theorem Sys2Proof.Laws.WordFits.atsp d a base ac m : WordFits.Statement (.atsp d a base ac m) := by
  intro w x h
  obtain ⟨rfl, -⟩ := Prod.mk.inj (Option.some.inj h)
  apply wMem_lt <;> simp

theorem Sys2Proof.Laws.WordFits.ldds d a base ac m : WordFits.Statement (.ldds d a base ac m) := by
  intro w x h
  obtain ⟨rfl, -⟩ := Prod.mk.inj (Option.some.inj h)
  apply wMem_lt <;> (first | omega | simp)

theorem Sys2Proof.Laws.WordFits.stds d a base ac m : WordFits.Statement (.stds d a base ac m) := by
  intro w x h
  obtain ⟨rfl, -⟩ := Prod.mk.inj (Option.some.inj h)
  apply wMem_lt <;> simp

theorem Sys2Proof.Laws.WordFits.atds d a base ac m : WordFits.Statement (.atds d a base ac m) := by
  intro w x h
  obtain ⟨rfl, -⟩ := Prod.mk.inj (Option.some.inj h)
  apply wMem_lt <;> simp

theorem Sys2Proof.Laws.WordFits.lddm d a base ac m : WordFits.Statement (.lddm d a base ac m) := by
  intro w x h
  obtain ⟨rfl, -⟩ := Prod.mk.inj (Option.some.inj h)
  apply wMem_lt <;> (first | omega | simp)

theorem Sys2Proof.Laws.WordFits.stdm d a base ac m : WordFits.Statement (.stdm d a base ac m) := by
  intro w x h
  obtain ⟨rfl, -⟩ := Prod.mk.inj (Option.some.inj h)
  apply wMem_lt <;> simp

theorem Sys2Proof.Laws.WordFits.atdm d a base ac m : WordFits.Statement (.atdm d a base ac m) := by
  intro w x h
  obtain ⟨rfl, -⟩ := Prod.mk.inj (Option.some.inj h)
  apply wMem_lt <;> simp

theorem Sys2Proof.Laws.WordFits.reddm d a base m : WordFits.Statement (.reddm d a base m) := by
  intro w x h
  obtain ⟨rfl, -⟩ := Prod.mk.inj (Option.some.inj h)
  apply wMem_lt <;> simp

theorem Sys2Proof.Laws.WordFits.pfdm a base m : WordFits.Statement (.pfdm a base m) := by
  intro w x h
  obtain ⟨rfl, -⟩ := Prod.mk.inj (Option.some.inj h)
  apply wMem_lt <;> simp

theorem Sys2Proof.Laws.WordFits.tex d a base ac m : WordFits.Statement (.tex d a base ac m) := by
  intro w x h
  obtain ⟨rfl, -⟩ := Prod.mk.inj (Option.some.inj h)
  apply wMem_lt <;> (first | omega | decide)

theorem Sys2Proof.Laws.WordFits.hgrid d a base ac m : WordFits.Statement (.hgrid d a base ac m) := by
  intro w x h
  obtain ⟨rfl, -⟩ := Prod.mk.inj (Option.some.inj h)
  apply wMem_lt <;> (first | omega | decide)

theorem Sys2Proof.Laws.WordFits.stpm d a base m : WordFits.Statement (.stpm d a base m) := by
  intro w x h
  obtain ⟨rfl, -⟩ := Prod.mk.inj (Option.some.inj h)
  apply wMem_lt <;> simp

theorem Sys2Proof.Laws.WordFits.redpm d a base m : WordFits.Statement (.redpm d a base m) := by
  intro w x h
  obtain ⟨rfl, -⟩ := Prod.mk.inj (Option.some.inj h)
  apply wMem_lt <;> simp

theorem Sys2Proof.Laws.WordFits.ldhm d a base ac m : WordFits.Statement (.ldhm d a base ac m) := by
  intro w x h
  obtain ⟨rfl, -⟩ := Prod.mk.inj (Option.some.inj h)
  apply wMem_lt <;> (first | omega | simp)

theorem Sys2Proof.Laws.WordFits.sthm d a base ac m : WordFits.Statement (.sthm d a base ac m) := by
  intro w x h
  obtain ⟨rfl, -⟩ := Prod.mk.inj (Option.some.inj h)
  apply wMem_lt <;> simp

theorem Sys2Proof.Laws.WordFits.cld d a base ac m : WordFits.Statement (.cld d a base ac m) := by
  intro w x h
  obtain ⟨rfl, -⟩ := Prod.mk.inj (Option.some.inj h)
  apply wMem_lt <;> (first | omega | simp)

theorem Sys2Proof.Laws.WordFits.cst d a base ac m : WordFits.Statement (.cst d a base ac m) := by
  intro w x h
  obtain ⟨rfl, -⟩ := Prod.mk.inj (Option.some.inj h)
  apply wMem_lt <;> (first | omega | simp)

theorem Sys2Proof.Laws.WordFits.cbnd d a b : WordFits.Statement (.cbnd d a b) := by
  intro w x h
  obtain ⟨rfl, -⟩ := Prod.mk.inj (Option.some.inj h)
  apply wBase_lt <;> (first | decide | omega)

theorem Sys2Proof.Laws.WordFits.crgt d a b : WordFits.Statement (.crgt d a b) := by
  intro w x h
  obtain ⟨rfl, -⟩ := Prod.mk.inj (Option.some.inj h)
  apply wBase_lt <;> (first | omega | simp)

theorem Sys2Proof.Laws.WordFits.cmov d a : WordFits.Statement (.cmov d a) := by
  intro w x h
  obtain ⟨rfl, -⟩ := Prod.mk.inj (Option.some.inj h)
  apply wBase_lt <;> (first | decide | omega)

theorem Sys2Proof.Laws.WordFits.cget d a : WordFits.Statement (.cget d a) := by
  intro w x h
  obtain ⟨rfl, -⟩ := Prod.mk.inj (Option.some.inj h)
  apply wBase_lt <;> (first | decide | omega)

theorem Sys2Proof.Laws.WordFits.waitmem d a base timeout : WordFits.Statement (.waitmem d a base timeout) := by
  intro w x h
  obtain ⟨rfl, -⟩ := Prod.mk.inj (Option.some.inj h)
  apply wMem_lt <;> simp

theorem Sys2Proof.Laws.WordFits.spawn d a n : WordFits.Statement (.spawn d a n) := by
  intro w x h
  obtain ⟨rfl, -⟩ := Prod.mk.inj (Option.some.inj h)
  apply wBase_lt <;> (first | omega | simp)

theorem Sys2Proof.Laws.WordFits.mma d a acc ru : WordFits.Statement (.mma d a acc ru) := by
  intro w x h
  obtain ⟨rfl, -⟩ := Prod.mk.inj (Option.some.inj h)
  apply wBase_lt <;> (first | decide | omega | simp | grind [bool_lt])

theorem Sys2Proof.Laws.WordFits.mmas d a acc ru i : WordFits.Statement (.mmas d a acc ru i) := by
  intro w x h
  obtain ⟨rfl, -⟩ := Prod.mk.inj (Option.some.inj h)
  apply wBase_lt <;> (first | decide | omega | simp | grind [bool_lt])

theorem Sys2Proof.Laws.WordFits.mmat d a acc : WordFits.Statement (.mmat d a acc) := by
  intro w x h
  obtain ⟨rfl, -⟩ := Prod.mk.inj (Option.some.inj h)
  apply wBase_lt <;> (first | decide | omega | simp | grind [bool_lt])

theorem Sys2Proof.Laws.WordFits.mxq d a had : WordFits.Statement (.mxq d a had) := by
  intro w x h
  obtain ⟨rfl, -⟩ := Prod.mk.inj (Option.some.inj h)
  apply wBase_lt <;> (first | decide | omega | simp | grind [hadMode_code_lt])

theorem Sys2Proof.Laws.WordFits.mxrd w d acc g : WordFits.Statement (.mxrd w d acc g) := by
  intro w x h
  obtain ⟨rfl, -⟩ := Prod.mk.inj (Option.some.inj h)
  apply wBase_lt <;> (first | decide | omega | simp | grind [bool_lt])

theorem Sys2Proof.Laws.WordFits.mxst a acc : WordFits.Statement (.mxst a acc) := by
  intro w x h
  obtain ⟨rfl, -⟩ := Prod.mk.inj (Option.some.inj h)
  apply wBase_lt <;> (first | decide | omega | simp | grind [bool_lt])

theorem Sys2Proof.Laws.WordFits.mxclr acc : WordFits.Statement (.mxclr acc) := by
  intro w x h
  obtain ⟨rfl, -⟩ := Prod.mk.inj (Option.some.inj h)
  apply wBase_lt <;> (first | decide | omega | simp | grind [bool_lt])

theorem Sys2Proof.Laws.WordFits.mxfence : WordFits.Statement (.mxfence) := by
  intro w x h
  obtain ⟨rfl, -⟩ := Prod.mk.inj (Option.some.inj h)
  apply wBase_lt <;> simp

theorem Sys2Proof.Laws.WordFits.clbarArrive d n ord : WordFits.Statement (.clbarArrive d n ord) := by
  intro w x h
  obtain ⟨rfl, -⟩ := Prod.mk.inj (Option.some.inj h)
  have := ord_code_lt ord
  apply wImm_lt <;> (first | omega | simp)

theorem Sys2Proof.Laws.WordFits.clbarWait d n ord : WordFits.Statement (.clbarWait d n ord) := by
  intro w x h
  obtain ⟨rfl, -⟩ := Prod.mk.inj (Option.some.inj h)
  have := ord_code_lt ord
  apply wImm_lt <;> (first | omega | simp)

theorem Sys2Proof.Laws.WordFits.clbarSync d n ord : WordFits.Statement (.clbarSync d n ord) := by
  intro w x h
  obtain ⟨rfl, -⟩ := Prod.mk.inj (Option.some.inj h)
  have := ord_code_lt ord
  apply wImm_lt <;> (first | omega | simp)

theorem Sys2Proof.Laws.WordFits.cpy d a b ac esz st : WordFits.Statement (.cpy d a b ac esz st) := by
  intro w x h
  obtain ⟨rfl, -⟩ := Prod.mk.inj (Option.some.inj h)
  apply wBase_lt <;> (first | omega | simp)

theorem Sys2Proof.Laws.WordFits.gath d a b ac esz st : WordFits.Statement (.gath d a b ac esz st) := by
  intro w x h
  obtain ⟨rfl, -⟩ := Prod.mk.inj (Option.some.inj h)
  apply wBase_lt <;> (first | omega | simp)

theorem Sys2Proof.Laws.WordFits.scat d a b ac esz st red : WordFits.Statement (.scat d a b ac esz st red) := by
  intro w x h
  cases red <;> (obtain ⟨rfl, -⟩ := Prod.mk.inj (Option.some.inj h); apply wBase_lt <;> first | decide | omega | simp)

theorem Sys2Proof.Laws.WordFits.route d a b ac esz st : WordFits.Statement (.route d a b ac esz st) := by
  intro w x h
  obtain ⟨rfl, -⟩ := Prod.mk.inj (Option.some.inj h)
  apply wBase_lt <;> (first | omega | simp)

theorem Sys2Proof.Laws.WordFits.chain d a b ac ofmt ifmt st : WordFits.Statement (.chain d a b ac ofmt ifmt st) := by
  intro w x h
  obtain ⟨rfl, -⟩ := Prod.mk.inj (Option.some.inj h)
  apply wBase_lt <;> (first | omega | simp)

theorem Sys2Proof.Laws.WordFits.vpin d a ac : WordFits.Statement (.vpin d a ac) := by
  intro w x h
  obtain ⟨rfl, -⟩ := Prod.mk.inj (Option.some.inj h)
  apply wBase_lt <;> (first | omega | simp)

theorem Sys2Proof.Laws.WordFits.vrel a b ac : WordFits.Statement (.vrel a b ac) := by
  intro w x h
  obtain ⟨rfl, -⟩ := Prod.mk.inj (Option.some.inj h)
  apply wBase_lt <;> (first | omega | simp)

theorem Sys2Proof.Laws.WordFits.vpub d a b ac : WordFits.Statement (.vpub d a b ac) := by
  intro w x h
  obtain ⟨rfl, -⟩ := Prod.mk.inj (Option.some.inj h)
  apply wBase_lt <;> (first | omega | simp)

theorem Sys2Proof.Laws.WordFits.skupd d a b : WordFits.Statement (.skupd d a b) := by
  intro w x h
  obtain ⟨rfl, -⟩ := Prod.mk.inj (Option.some.inj h)
  apply wBase_lt <;> (first | omega | simp)

theorem Sys2Proof.Laws.WordFits.skqry d a b ac : WordFits.Statement (.skqry d a b ac) := by
  intro w x h
  obtain ⟨rfl, -⟩ := Prod.mk.inj (Option.some.inj h)
  apply wBase_lt <;> (first | omega | simp)

theorem Sys2Proof.Laws.WordFits.skadd d a ac : WordFits.Statement (.skadd d a ac) := by
  intro w x h
  obtain ⟨rfl, -⟩ := Prod.mk.inj (Option.some.inj h)
  apply wBase_lt <;> (first | decide | omega)

theorem Sys2Proof.Laws.WordFits.skclr d ac : WordFits.Statement (.skclr d ac) := by
  intro w x h
  obtain ⟨rfl, -⟩ := Prod.mk.inj (Option.some.inj h)
  apply wBase_lt <;> (first | decide | omega)

theorem Sys2Proof.Laws.WordFits.raycast d a b ac cull : WordFits.Statement (.raycast d a b ac cull) := by
  intro w x h
  obtain ⟨rfl, -⟩ := Prod.mk.inj (Option.some.inj h)
  apply wBase_lt <;> (first | decide | omega)

theorem Sys2Proof.Laws.WordFits.atmass d a b : WordFits.Statement (.atmass d a b) := by
  intro w x h
  obtain ⟨rfl, -⟩ := Prod.mk.inj (Option.some.inj h)
  apply wBase_lt <;> (first | omega | simp)

theorem Sys2Proof.Laws.WordFits.evict d a ac : WordFits.Statement (.evict d a ac) := by
  intro w x h
  obtain ⟨rfl, -⟩ := Prod.mk.inj (Option.some.inj h)
  apply wBase_lt <;> (first | omega | simp)

theorem Sys2Proof.Laws.WordFits.posrd d a b ac : WordFits.Statement (.posrd d a b ac) := by
  intro w x h
  obtain ⟨rfl, -⟩ := Prod.mk.inj (Option.some.inj h)
  apply wBase_lt <;> (first | decide | omega)

theorem Sys2Proof.Laws.WordFits.launch p a ac : WordFits.Statement (.launch p a ac) := by
  intro w x h
  obtain ⟨rfl, -⟩ := Prod.mk.inj (Option.some.inj h)
  apply wBase_lt <;> (first | decide | omega)

theorem Sys2Proof.Laws.WordFits.evsig a b : WordFits.Statement (.evsig a b) := by
  intro w x h
  obtain ⟨rfl, -⟩ := Prod.mk.inj (Option.some.inj h)
  apply wBase_lt <;> simp

theorem Sys2Proof.Laws.WordFits.coll op d a ac : WordFits.Statement (.coll op d a ac) := by
  intro w x h
  obtain ⟨rfl, -⟩ := Prod.mk.inj (Option.some.inj h)
  apply wBase_lt <;> (first | omega | simp)

theorem Sys2Proof.Laws.WordFits.packetFetch a0 : WordFits.Statement (.packetFetch a0) := nofun

theorem Sys2Proof.Laws.WordFits.loopBufferRefetch a0 : WordFits.Statement (.loopBufferRefetch a0) := nofun

theorem Sys2Proof.Laws.WordFits.stackSaveAccessDone a0 : WordFits.Statement (.stackSaveAccessDone a0) := nofun

theorem Sys2Proof.Laws.WordFits.sfnComplete a0 a1 : WordFits.Statement (.sfnComplete a0 a1) := nofun

theorem Sys2Proof.Laws.WordFits.slotGrant a0 : WordFits.Statement (.slotGrant a0) := nofun

theorem Sys2Proof.Laws.WordFits.displacement a0 : WordFits.Statement (.displacement a0) := nofun

theorem Sys2Proof.Laws.WordFits.residencyQuantumTick a0 : WordFits.Statement (.residencyQuantumTick a0) := nofun

theorem Sys2Proof.Laws.WordFits.paneSaveComplete a0 : WordFits.Statement (.paneSaveComplete a0) := nofun

theorem Sys2Proof.Laws.WordFits.paneRestore a0 : WordFits.Statement (.paneRestore a0) := nofun

theorem Sys2Proof.Laws.WordFits.teamRestore a0 a1 : WordFits.Statement (.teamRestore a0 a1) := nofun

theorem Sys2Proof.Laws.WordFits.writeApply a0 a1 : WordFits.Statement (.writeApply a0 a1) := nofun

theorem Sys2Proof.Laws.WordFits.waitmemTimeout a0 : WordFits.Statement (.waitmemTimeout a0) := nofun

theorem Sys2Proof.Laws.WordFits.waitmemFinalRead a0 : WordFits.Statement (.waitmemFinalRead a0) := nofun

theorem Sys2Proof.Laws.WordFits.spawnBinTimer a0 a1 : WordFits.Statement (.spawnBinTimer a0 a1) := nofun

theorem Sys2Proof.Laws.WordFits.paneFormation a0 : WordFits.Statement (.paneFormation a0) := nofun

theorem Sys2Proof.Laws.WordFits.memoryReply a0 : WordFits.Statement (.memoryReply a0) := nofun

theorem Sys2Proof.Laws.WordFits.cldReply a0 : WordFits.Statement (.cldReply a0) := nofun

theorem Sys2Proof.Laws.WordFits.storeAcceptance a0 : WordFits.Statement (.storeAcceptance a0) := nofun

theorem Sys2Proof.Laws.WordFits.storePerform a0 : WordFits.Statement (.storePerform a0) := nofun

theorem Sys2Proof.Laws.WordFits.matrixTileStep a0 a1 a2 : WordFits.Statement (.matrixTileStep a0 a1 a2) := nofun

theorem Sys2Proof.Laws.WordFits.mxqUnit a0 a1 : WordFits.Statement (.mxqUnit a0 a1) := nofun

theorem Sys2Proof.Laws.WordFits.mxrdUnit a0 a1 : WordFits.Statement (.mxrdUnit a0 a1) := nofun

theorem Sys2Proof.Laws.WordFits.mxstUnit a0 a1 : WordFits.Statement (.mxstUnit a0 a1) := nofun

theorem Sys2Proof.Laws.WordFits.mxclrUnit a0 a1 : WordFits.Statement (.mxclrUnit a0 a1) := nofun

theorem Sys2Proof.Laws.WordFits.matrixWatchdog a0 a1 : WordFits.Statement (.matrixWatchdog a0 a1) := nofun

theorem Sys2Proof.Laws.WordFits.mxrst a0 a1 : WordFits.Statement (.mxrst a0 a1) := nofun

theorem Sys2Proof.Laws.WordFits.dsRequest a0 : WordFits.Statement (.dsRequest a0) := nofun

theorem Sys2Proof.Laws.WordFits.meshFlitFailure a0 a1 : WordFits.Statement (.meshFlitFailure a0 a1) := nofun

theorem Sys2Proof.Laws.WordFits.clstatReset a0 a1 : WordFits.Statement (.clstatReset a0 a1) := nofun

theorem Sys2Proof.Laws.WordFits.memoryPortAccess a0 : WordFits.Statement (.memoryPortAccess a0) := nofun

theorem Sys2Proof.Laws.WordFits.engineCommandStart a0 a1 : WordFits.Statement (.engineCommandStart a0 a1) := nofun

theorem Sys2Proof.Laws.WordFits.engineChunk a0 a1 a2 : WordFits.Statement (.engineChunk a0 a1 a2) := nofun

theorem Sys2Proof.Laws.WordFits.pageResponse a0 a1 : WordFits.Statement (.pageResponse a0 a1) := nofun

theorem Sys2Proof.Laws.WordFits.pageRequestTimeout a0 : WordFits.Statement (.pageRequestTimeout a0) := nofun

theorem Sys2Proof.Laws.WordFits.engineCommandComplete a0 a1 a2 : WordFits.Statement (.engineCommandComplete a0 a1 a2) := nofun

theorem Sys2Proof.Laws.WordFits.engineBlockHang a0 a1 : WordFits.Statement (.engineBlockHang a0 a1) := nofun

theorem Sys2Proof.Laws.WordFits.engstatReset a0 a1 : WordFits.Statement (.engstatReset a0 a1) := nofun

theorem Sys2Proof.Laws.WordFits.dieLinkFailure a0 a1 : WordFits.Statement (.dieLinkFailure a0 a1) := nofun

theorem Sys2Proof.Laws.WordFits.genRaise a0 : WordFits.Statement (.genRaise a0) := nofun

theorem Sys2Proof.Laws.WordFits.genAdoption a0 : WordFits.Statement (.genAdoption a0) := nofun

theorem Sys2Proof.Laws.WordFits.channelAccess a0 a1 a2 a3 a4 a5 : WordFits.Statement (.channelAccess a0 a1 a2 a3 a4 a5) := nofun

theorem Sys2Proof.Laws.WordFits.parityDelta a0 a1 : WordFits.Statement (.parityDelta a0 a1) := nofun

theorem Sys2Proof.Laws.WordFits.dupInvalidation a0 a1 a2 : WordFits.Statement (.dupInvalidation a0 a1 a2) := nofun

theorem Sys2Proof.Laws.WordFits.dupInvalidationAck a0 a1 : WordFits.Statement (.dupInvalidationAck a0 a1) := nofun

theorem Sys2Proof.Laws.WordFits.publicationCommand a0 : WordFits.Statement (.publicationCommand a0) := nofun

theorem Sys2Proof.Laws.WordFits.rdxRequest a0 a1 : WordFits.Statement (.rdxRequest a0 a1) := nofun

theorem Sys2Proof.Laws.WordFits.sketchCommand a0 : WordFits.Statement (.sketchCommand a0) := nofun

theorem Sys2Proof.Laws.WordFits.raycastDispatch a0 a1 : WordFits.Statement (.raycastDispatch a0 a1) := nofun

theorem Sys2Proof.Laws.WordFits.rayMessageArrival a0 a1 : WordFits.Statement (.rayMessageArrival a0 a1) := nofun

theorem Sys2Proof.Laws.WordFits.trvBatchStart a0 : WordFits.Statement (.trvBatchStart a0) := nofun

theorem Sys2Proof.Laws.WordFits.trvBatchEnd a0 : WordFits.Statement (.trvBatchEnd a0) := nofun

theorem Sys2Proof.Laws.WordFits.rayFinalRecord a0 a1 : WordFits.Statement (.rayFinalRecord a0 a1) := nofun

theorem Sys2Proof.Laws.WordFits.horizonSend a0 : WordFits.Statement (.horizonSend a0) := nofun

theorem Sys2Proof.Laws.WordFits.horizon a0 a1 : WordFits.Statement (.horizon a0 a1) := nofun

theorem Sys2Proof.Laws.WordFits.rayContextRelease a0 a1 : WordFits.Statement (.rayContextRelease a0 a1) := nofun

theorem Sys2Proof.Laws.WordFits.trvHang a0 : WordFits.Statement (.trvHang a0) := nofun

theorem Sys2Proof.Laws.WordFits.horizonTimeout a0 a1 : WordFits.Statement (.horizonTimeout a0 a1) := nofun

theorem Sys2Proof.Laws.WordFits.trvReset a0 : WordFits.Statement (.trvReset a0) := nofun

theorem Sys2Proof.Laws.WordFits.trvringWrite a0 a1 : WordFits.Statement (.trvringWrite a0 a1) := nofun

theorem Sys2Proof.Laws.WordFits.filterRequest a0 : WordFits.Statement (.filterRequest a0) := nofun

theorem Sys2Proof.Laws.WordFits.evictPerform a0 : WordFits.Statement (.evictPerform a0) := nofun

theorem Sys2Proof.Laws.WordFits.conditionalPublication a0 : WordFits.Statement (.conditionalPublication a0) := nofun

theorem Sys2Proof.Laws.WordFits.posrdPerform a0 : WordFits.Statement (.posrdPerform a0) := nofun

theorem Sys2Proof.Laws.WordFits.eveHang a0 : WordFits.Statement (.eveHang a0) := nofun

theorem Sys2Proof.Laws.WordFits.eveReset a0 : WordFits.Statement (.eveReset a0) := nofun

theorem Sys2Proof.Laws.WordFits.wqtailWrite a0 a1 : WordFits.Statement (.wqtailWrite a0 a1) := nofun

theorem Sys2Proof.Laws.WordFits.gridStart a0 : WordFits.Statement (.gridStart a0) := nofun

theorem Sys2Proof.Laws.WordFits.launchAccept a0 a1 : WordFits.Statement (.launchAccept a0 a1) := nofun

theorem Sys2Proof.Laws.WordFits.teamPlacement a0 : WordFits.Statement (.teamPlacement a0) := nofun

theorem Sys2Proof.Laws.WordFits.gridRetirement a0 : WordFits.Statement (.gridRetirement a0) := nofun

theorem Sys2Proof.Laws.WordFits.eventCounterWrite a0 a1 : WordFits.Statement (.eventCounterWrite a0 a1) := nofun

theorem Sys2Proof.Laws.WordFits.bandwidthTick : WordFits.Statement (.bandwidthTick) := nofun

theorem Sys2Proof.Laws.WordFits.contextSwitchOut a0 : WordFits.Statement (.contextSwitchOut a0) := nofun

theorem Sys2Proof.Laws.WordFits.contextSwitchComplete a0 : WordFits.Statement (.contextSwitchComplete a0) := nofun

theorem Sys2Proof.Laws.WordFits.corectxPartWrite a0 a1 : WordFits.Statement (.corectxPartWrite a0 a1) := nofun

theorem Sys2Proof.Laws.WordFits.flitReceive a0 a1 : WordFits.Statement (.flitReceive a0 a1) := nofun

theorem Sys2Proof.Laws.WordFits.linkRetryRequest a0 a1 : WordFits.Statement (.linkRetryRequest a0 a1) := nofun

theorem Sys2Proof.Laws.WordFits.idleFlit a0 : WordFits.Statement (.idleFlit a0) := nofun

theorem Sys2Proof.Laws.WordFits.sealedMessage a0 a1 : WordFits.Statement (.sealedMessage a0 a1) := nofun

theorem Sys2Proof.Laws.WordFits.windowUpdate a0 a1 a2 : WordFits.Statement (.windowUpdate a0 a1 a2) := nofun

theorem Sys2Proof.Laws.WordFits.pmRequest a0 : WordFits.Statement (.pmRequest a0) := nofun

theorem Sys2Proof.Laws.WordFits.pmAck a0 : WordFits.Statement (.pmAck a0) := nofun

theorem Sys2Proof.Laws.WordFits.pmFailureReport a0 a1 a2 : WordFits.Statement (.pmFailureReport a0 a1 a2) := nofun

theorem Sys2Proof.Laws.WordFits.collStart a0 : WordFits.Statement (.collStart a0) := nofun

theorem Sys2Proof.Laws.WordFits.collContribution a0 : WordFits.Statement (.collContribution a0) := nofun

theorem Sys2Proof.Laws.WordFits.collComplete a0 : WordFits.Statement (.collComplete a0) := nofun

theorem Sys2Proof.Laws.WordFits.collTimeout a0 : WordFits.Statement (.collTimeout a0) := nofun

theorem Sys2Proof.Laws.WordFits.lnkengReset a0 : WordFits.Statement (.lnkengReset a0) := nofun

theorem Sys2Proof.Laws.WordFits.hostCompletion a0 a1 : WordFits.Statement (.hostCompletion a0 a1) := nofun

theorem Sys2Proof.Laws.WordFits.hostCompletionTimeout a0 : WordFits.Statement (.hostCompletionTimeout a0) := nofun

theorem Sys2Proof.Laws.WordFits.getVersion : WordFits.Statement (.getVersion) := nofun

theorem Sys2Proof.Laws.WordFits.getCapabilities : WordFits.Statement (.getCapabilities) := nofun

theorem Sys2Proof.Laws.WordFits.negotiateAlgorithms a0 : WordFits.Statement (.negotiateAlgorithms a0) := nofun

theorem Sys2Proof.Laws.WordFits.getDigests : WordFits.Statement (.getDigests) := nofun

theorem Sys2Proof.Laws.WordFits.getCertificate a0 a1 a2 : WordFits.Statement (.getCertificate a0 a1 a2) := nofun

theorem Sys2Proof.Laws.WordFits.challenge a0 a1 : WordFits.Statement (.challenge a0 a1) := nofun

theorem Sys2Proof.Laws.WordFits.getMeasurements a0 a1 a2 : WordFits.Statement (.getMeasurements a0 a1 a2) := nofun

theorem Sys2Proof.Laws.WordFits.keyExchange a0 : WordFits.Statement (.keyExchange a0) := nofun

theorem Sys2Proof.Laws.WordFits.finish a0 a1 a2 : WordFits.Statement (.finish a0 a1 a2) := nofun

theorem Sys2Proof.Laws.WordFits.endSession a0 : WordFits.Statement (.endSession a0) := nofun

theorem Sys2Proof.Laws.WordFits.ideKm a0 : WordFits.Statement (.ideKm a0) := nofun

theorem Sys2Proof.Laws.WordFits.lockInterface a0 : WordFits.Statement (.lockInterface a0) := nofun

theorem Sys2Proof.Laws.WordFits.stopInterface a0 : WordFits.Statement (.stopInterface a0) := nofun

theorem Sys2Proof.Laws.WordFits.powerOn a0 : WordFits.Statement (.powerOn a0) := nofun

theorem Sys2Proof.Laws.WordFits.panecmdResume a0 a1 a2 a3 : WordFits.Statement (.panecmdResume a0 a1 a2 a3) := nofun

theorem Sys2Proof.Laws.WordFits.panecmdExit a0 a1 a2 a3 : WordFits.Statement (.panecmdExit a0 a1 a2 a3) := nofun

theorem Sys2Proof.Laws.WordFits.thermalWarning a0 a1 : WordFits.Statement (.thermalWarning a0 a1) := nofun

theorem Sys2Proof.Laws.WordFits.thermalFreeze a0 a1 : WordFits.Statement (.thermalFreeze a0 a1) := nofun

theorem Sys2Proof.Laws.WordFits.thermThaw a0 a1 : WordFits.Statement (.thermThaw a0 a1) := nofun

theorem Sys2Proof.Laws.WordFits.droop a0 a1 : WordFits.Statement (.droop a0 a1) := nofun

theorem Sys2Proof.Laws.WordFits.lifetimeFlush : WordFits.Statement (.lifetimeFlush) := nofun

theorem Sys2Proof.Laws.WordFits.orderlyShutdown : WordFits.Statement (.orderlyShutdown) := nofun

theorem Sys2Proof.Laws.WordFits.lifectlGo : WordFits.Statement (.lifectlGo) := nofun

theorem Sys2Proof.Laws.WordFits.lifetimeExportDone a0 : WordFits.Statement (.lifetimeExportDone a0) := nofun

theorem Sys2Proof.Laws.WordFits.registerWrite a0 a1 a2 : WordFits.Statement (.registerWrite a0 a1 a2) := nofun

theorem Sys2Proof.Laws.WordFits.linkTraining a0 : WordFits.Statement (.linkTraining a0) := nofun

theorem Sys2Proof.Laws.WordFits.startInterface a0 : WordFits.Statement (.startInterface a0) := nofun

theorem Sys2Proof.Laws.WordFits.hostWrite a0 a1 : WordFits.Statement (.hostWrite a0 a1) := nofun

theorem Sys2Proof.Laws.WordFits.powerLoss : WordFits.Statement (.powerLoss) := nofun
end

