-- ==== Sys2Proof/Laws/State.lean ====
section
/-! SUPPORT. What each update of the state and of a pane leaves: one lemma per field per update. -/

namespace Sys2Proof.Machine

/-! ### onPane -/

@[simp] theorem onPane_pane (f : Pane → Pane) (s : State) : (onPane f s).pane = f s.pane := rfl
@[simp] theorem onPane_panes (f : Pane → Pane) (s : State) : (onPane f s).panes = s.panes := rfl
@[simp] theorem onPane_issue (f : Pane → Pane) (s : State) : (onPane f s).issue = s.issue := rfl
@[simp] theorem onPane_word (f : Pane → Pane) (s : State) : (onPane f s).word = s.word := rfl
@[simp] theorem onPane_sill (f : Pane → Pane) (s : State) : (onPane f s).sill = s.sill := rfl
@[simp] theorem onPane_after (f : Pane → Pane) (s : State) : (onPane f s).after = s.after := rfl
@[simp] theorem onPane_agenda (f : Pane → Pane) (s : State) : (onPane f s).agenda = s.agenda := rfl
@[simp] theorem onPane_cycle (f : Pane → Pane) (s : State) : (onPane f s).cycle = s.cycle := rfl
@[simp] theorem onPane_cursor (f : Pane → Pane) (s : State) : (onPane f s).cursor = s.cursor := rfl
@[simp] theorem onPane_time (f : Pane → Pane) (s : State) : (onPane f s).time = s.time := rfl
@[simp] theorem onPane_freeCount (f : Pane → Pane) (s : State) : (onPane f s).freeCount = s.freeCount := rfl
@[simp] theorem onPane_nextRid (f : Pane → Pane) (s : State) : (onPane f s).nextRid = s.nextRid := rfl
@[simp] theorem onPane_nextPid (f : Pane → Pane) (s : State) : (onPane f s).nextPid = s.nextPid := rfl
@[simp] theorem onPane_nextGrid (f : Pane → Pane) (s : State) : (onPane f s).nextGrid = s.nextGrid := rfl
@[simp] theorem onPane_nextSeq (f : Pane → Pane) (s : State) : (onPane f s).nextSeq = s.nextSeq := rfl
@[simp] theorem onPane_teams (f : Pane → Pane) (s : State) : (onPane f s).teams = s.teams := rfl
@[simp] theorem onPane_cores (f : Pane → Pane) (s : State) : (onPane f s).cores = s.cores := rfl
@[simp] theorem onPane_dies (f : Pane → Pane) (s : State) : (onPane f s).dies = s.dies := rfl
@[simp] theorem onPane_bases (f : Pane → Pane) (s : State) : (onPane f s).bases = s.bases := rfl
@[simp] theorem onPane_parts (f : Pane → Pane) (s : State) : (onPane f s).parts = s.parts := rfl
@[simp] theorem onPane_reqs (f : Pane → Pane) (s : State) : (onPane f s).reqs = s.reqs := rfl
@[simp] theorem onPane_cmds (f : Pane → Pane) (s : State) : (onPane f s).cmds = s.cmds := rfl
@[simp] theorem onPane_colls (f : Pane → Pane) (s : State) : (onPane f s).colls = s.colls := rfl
@[simp] theorem onPane_chanQ (f : Pane → Pane) (s : State) : (onPane f s).chanQ = s.chanQ := rfl
@[simp] theorem onPane_ref (f : Pane → Pane) (s : State) : (onPane f s).ref = s.ref := rfl
@[simp] theorem onPane_grids (f : Pane → Pane) (s : State) : (onPane f s).grids = s.grids := rfl
@[simp] theorem onPane_accepted (f : Pane → Pane) (s : State) : (onPane f s).accepted = s.accepted := rfl
@[simp] theorem onPane_children (f : Pane → Pane) (s : State) : (onPane f s).children = s.children := rfl
@[simp] theorem onPane_queues (f : Pane → Pane) (s : State) : (onPane f s).queues = s.queues := rfl
@[simp] theorem onPane_rrQueue (f : Pane → Pane) (s : State) : (onPane f s).rrQueue = s.rrQueue := rfl
@[simp] theorem onPane_ctrs (f : Pane → Pane) (s : State) : (onPane f s).ctrs = s.ctrs := rfl
@[simp] theorem onPane_buckets (f : Pane → Pane) (s : State) : (onPane f s).buckets = s.buckets := rfl
@[simp] theorem onPane_lastBand (f : Pane → Pane) (s : State) : (onPane f s).lastBand = s.lastBand := rfl
@[simp] theorem onPane_pages (f : Pane → Pane) (s : State) : (onPane f s).pages = s.pages := rfl
@[simp] theorem onPane_answered (f : Pane → Pane) (s : State) : (onPane f s).answered = s.answered := rfl
@[simp] theorem onPane_rings (f : Pane → Pane) (s : State) : (onPane f s).rings = s.rings := rfl
@[simp] theorem onPane_seqs (f : Pane → Pane) (s : State) : (onPane f s).seqs = s.seqs := rfl
@[simp] theorem onPane_msix (f : Pane → Pane) (s : State) : (onPane f s).msix = s.msix := rfl
@[simp] theorem onPane_records (f : Pane → Pane) (s : State) : (onPane f s).records = s.records := rfl
@[simp] theorem onPane_dm (f : Pane → Pane) (s : State) : (onPane f s).dm = s.dm := rfl
@[simp] theorem onPane_ds (f : Pane → Pane) (s : State) : (onPane f s).ds = s.ds := rfl
@[simp] theorem onPane_hm (f : Pane → Pane) (s : State) : (onPane f s).hm = s.hm := rfl
@[simp] theorem onPane_tags (f : Pane → Pane) (s : State) : (onPane f s).tags = s.tags := rfl
@[simp] theorem onPane_poisoned (f : Pane → Pane) (s : State) : (onPane f s).poisoned = s.poisoned := rfl
@[simp] theorem onPane_lineKey (f : Pane → Pane) (s : State) : (onPane f s).lineKey = s.lineKey := rfl
@[simp] theorem onPane_keyGen (f : Pane → Pane) (s : State) : (onPane f s).keyGen = s.keyGen := rfl
@[simp] theorem onPane_issued (f : Pane → Pane) (s : State) : (onPane f s).issued = s.issued := rfl
@[simp] theorem onPane_rdup (f : Pane → Pane) (s : State) : (onPane f s).rdup = s.rdup := rfl
@[simp] theorem onPane_macOn (f : Pane → Pane) (s : State) : (onPane f s).macOn = s.macOn := rfl
@[simp] theorem onPane_parityOn (f : Pane → Pane) (s : State) : (onPane f s).parityOn = s.parityOn := rfl
@[simp] theorem onPane_otAddr (f : Pane → Pane) (s : State) : (onPane f s).otAddr = s.otAddr := rfl
@[simp] theorem onPane_isl (f : Pane → Pane) (s : State) : (onPane f s).isl = s.isl := rfl
@[simp] theorem onPane_ports (f : Pane → Pane) (s : State) : (onPane f s).ports = s.ports := rfl
@[simp] theorem onPane_sessions (f : Pane → Pane) (s : State) : (onPane f s).sessions = s.sessions := rfl
@[simp] theorem onPane_ackOut (f : Pane → Pane) (s : State) : (onPane f s).ackOut = s.ackOut := rfl
@[simp] theorem onPane_collOut (f : Pane → Pane) (s : State) : (onPane f s).collOut = s.collOut := rfl
@[simp] theorem onPane_collEarly (f : Pane → Pane) (s : State) : (onPane f s).collEarly = s.collEarly := rfl
@[simp] theorem onPane_elig (f : Pane → Pane) (s : State) : (onPane f s).elig = s.elig := rfl
@[simp] theorem onPane_pkgNo (f : Pane → Pane) (s : State) : (onPane f s).pkgNo = s.pkgNo := rfl
@[simp] theorem onPane_spdm (f : Pane → Pane) (s : State) : (onPane f s).spdm = s.spdm := rfl
@[simp] theorem onPane_puf (f : Pane → Pane) (s : State) : (onPane f s).puf = s.puf := rfl
@[simp] theorem onPane_recovery (f : Pane → Pane) (s : State) : (onPane f s).recovery = s.recovery := rfl
@[simp] theorem onPane_powered (f : Pane → Pane) (s : State) : (onPane f s).powered = s.powered := rfl
@[simp] theorem onPane_life (f : Pane → Pane) (s : State) : (onPane f s).life = s.life := rfl
@[simp] theorem onPane_invals (f : Pane → Pane) (s : State) : (onPane f s).invals = s.invals := rfl
@[simp] theorem onPane_invalDone (f : Pane → Pane) (s : State) : (onPane f s).invalDone = s.invalDone := rfl
@[simp] theorem onPane_turns (f : Pane → Pane) (s : State) : (onPane f s).turns = s.turns := rfl
@[simp] theorem onPane_images (f : Pane → Pane) (s : State) : (onPane f s).images = s.images := rfl
@[simp] theorem onPane_roms (f : Pane → Pane) (s : State) : (onPane f s).roms = s.roms := rfl
@[simp] theorem onPane_parkQ (f : Pane → Pane) (s : State) : (onPane f s).parkQ = s.parkQ := rfl
@[simp] theorem onPane_chanEvs (f : Pane → Pane) (s : State) : (onPane f s).chanEvs = s.chanEvs := rfl
@[simp] theorem onPane_parity (f : Pane → Pane) (s : State) : (onPane f s).parity = s.parity := rfl
@[simp] theorem onPane_shadow (f : Pane → Pane) (s : State) : (onPane f s).shadow = s.shadow := rfl
@[simp] theorem onPane_hmClock (f : Pane → Pane) (s : State) : (onPane f s).hmClock = s.hmClock := rfl
@[simp] theorem onPane_hostClock (f : Pane → Pane) (s : State) : (onPane f s).hostClock = s.hostClock := rfl
@[simp] theorem onPane_pmDone (f : Pane → Pane) (s : State) : (onPane f s).pmDone = s.pmDone := rfl
@[simp] theorem onPane_parityTags (f : Pane → Pane) (s : State) : (onPane f s).parityTags = s.parityTags := rfl
@[simp] theorem onPane_lineClock (f : Pane → Pane) (s : State) : (onPane f s).lineClock = s.lineClock := rfl
@[simp] theorem onPane_temps (f : Pane → Pane) (s : State) : (onPane f s).temps = s.temps := rfl

/-! ### held -/

@[simp] theorem held_pane (s : State) : (held s).pane = s.pane := rfl
@[simp] theorem held_panes (s : State) : (held s).panes = s.panes := rfl
@[simp] theorem held_issue (s : State) : (held s).issue = .held := rfl
@[simp] theorem held_word (s : State) : (held s).word = s.word := rfl
@[simp] theorem held_sill (s : State) : (held s).sill = s.sill := rfl
@[simp] theorem held_after (s : State) : (held s).after = s.after := rfl
@[simp] theorem held_agenda (s : State) : (held s).agenda = s.agenda := rfl
@[simp] theorem held_cycle (s : State) : (held s).cycle = s.cycle := rfl
@[simp] theorem held_cursor (s : State) : (held s).cursor = s.cursor := rfl
@[simp] theorem held_time (s : State) : (held s).time = s.time := rfl
@[simp] theorem held_freeCount (s : State) : (held s).freeCount = s.freeCount := rfl
@[simp] theorem held_nextRid (s : State) : (held s).nextRid = s.nextRid := rfl
@[simp] theorem held_nextPid (s : State) : (held s).nextPid = s.nextPid := rfl
@[simp] theorem held_nextGrid (s : State) : (held s).nextGrid = s.nextGrid := rfl
@[simp] theorem held_nextSeq (s : State) : (held s).nextSeq = s.nextSeq := rfl
@[simp] theorem held_teams (s : State) : (held s).teams = s.teams := rfl
@[simp] theorem held_cores (s : State) : (held s).cores = s.cores := rfl
@[simp] theorem held_dies (s : State) : (held s).dies = s.dies := rfl
@[simp] theorem held_bases (s : State) : (held s).bases = s.bases := rfl
@[simp] theorem held_parts (s : State) : (held s).parts = s.parts := rfl
@[simp] theorem held_reqs (s : State) : (held s).reqs = s.reqs := rfl
@[simp] theorem held_cmds (s : State) : (held s).cmds = s.cmds := rfl
@[simp] theorem held_colls (s : State) : (held s).colls = s.colls := rfl
@[simp] theorem held_chanQ (s : State) : (held s).chanQ = s.chanQ := rfl
@[simp] theorem held_ref (s : State) : (held s).ref = s.ref := rfl
@[simp] theorem held_grids (s : State) : (held s).grids = s.grids := rfl
@[simp] theorem held_accepted (s : State) : (held s).accepted = s.accepted := rfl
@[simp] theorem held_children (s : State) : (held s).children = s.children := rfl
@[simp] theorem held_queues (s : State) : (held s).queues = s.queues := rfl
@[simp] theorem held_rrQueue (s : State) : (held s).rrQueue = s.rrQueue := rfl
@[simp] theorem held_ctrs (s : State) : (held s).ctrs = s.ctrs := rfl
@[simp] theorem held_buckets (s : State) : (held s).buckets = s.buckets := rfl
@[simp] theorem held_lastBand (s : State) : (held s).lastBand = s.lastBand := rfl
@[simp] theorem held_pages (s : State) : (held s).pages = s.pages := rfl
@[simp] theorem held_answered (s : State) : (held s).answered = s.answered := rfl
@[simp] theorem held_rings (s : State) : (held s).rings = s.rings := rfl
@[simp] theorem held_seqs (s : State) : (held s).seqs = s.seqs := rfl
@[simp] theorem held_msix (s : State) : (held s).msix = s.msix := rfl
@[simp] theorem held_records (s : State) : (held s).records = s.records := rfl
@[simp] theorem held_dm (s : State) : (held s).dm = s.dm := rfl
@[simp] theorem held_ds (s : State) : (held s).ds = s.ds := rfl
@[simp] theorem held_hm (s : State) : (held s).hm = s.hm := rfl
@[simp] theorem held_tags (s : State) : (held s).tags = s.tags := rfl
@[simp] theorem held_poisoned (s : State) : (held s).poisoned = s.poisoned := rfl
@[simp] theorem held_lineKey (s : State) : (held s).lineKey = s.lineKey := rfl
@[simp] theorem held_keyGen (s : State) : (held s).keyGen = s.keyGen := rfl
@[simp] theorem held_issued (s : State) : (held s).issued = s.issued := rfl
@[simp] theorem held_rdup (s : State) : (held s).rdup = s.rdup := rfl
@[simp] theorem held_macOn (s : State) : (held s).macOn = s.macOn := rfl
@[simp] theorem held_parityOn (s : State) : (held s).parityOn = s.parityOn := rfl
@[simp] theorem held_otAddr (s : State) : (held s).otAddr = s.otAddr := rfl
@[simp] theorem held_isl (s : State) : (held s).isl = s.isl := rfl
@[simp] theorem held_ports (s : State) : (held s).ports = s.ports := rfl
@[simp] theorem held_sessions (s : State) : (held s).sessions = s.sessions := rfl
@[simp] theorem held_ackOut (s : State) : (held s).ackOut = s.ackOut := rfl
@[simp] theorem held_collOut (s : State) : (held s).collOut = s.collOut := rfl
@[simp] theorem held_collEarly (s : State) : (held s).collEarly = s.collEarly := rfl
@[simp] theorem held_elig (s : State) : (held s).elig = s.elig := rfl
@[simp] theorem held_pkgNo (s : State) : (held s).pkgNo = s.pkgNo := rfl
@[simp] theorem held_spdm (s : State) : (held s).spdm = s.spdm := rfl
@[simp] theorem held_puf (s : State) : (held s).puf = s.puf := rfl
@[simp] theorem held_recovery (s : State) : (held s).recovery = s.recovery := rfl
@[simp] theorem held_powered (s : State) : (held s).powered = s.powered := rfl
@[simp] theorem held_life (s : State) : (held s).life = s.life := rfl
@[simp] theorem held_invals (s : State) : (held s).invals = s.invals := rfl
@[simp] theorem held_invalDone (s : State) : (held s).invalDone = s.invalDone := rfl
@[simp] theorem held_turns (s : State) : (held s).turns = s.turns := rfl
@[simp] theorem held_images (s : State) : (held s).images = s.images := rfl
@[simp] theorem held_roms (s : State) : (held s).roms = s.roms := rfl
@[simp] theorem held_parkQ (s : State) : (held s).parkQ = s.parkQ := rfl
@[simp] theorem held_chanEvs (s : State) : (held s).chanEvs = s.chanEvs := rfl
@[simp] theorem held_parity (s : State) : (held s).parity = s.parity := rfl
@[simp] theorem held_shadow (s : State) : (held s).shadow = s.shadow := rfl
@[simp] theorem held_hmClock (s : State) : (held s).hmClock = s.hmClock := rfl
@[simp] theorem held_hostClock (s : State) : (held s).hostClock = s.hostClock := rfl
@[simp] theorem held_pmDone (s : State) : (held s).pmDone = s.pmDone := rfl
@[simp] theorem held_parityTags (s : State) : (held s).parityTags = s.parityTags := rfl
@[simp] theorem held_lineClock (s : State) : (held s).lineClock = s.lineClock := rfl
@[simp] theorem held_temps (s : State) : (held s).temps = s.temps := rfl

/-! ### ended -/

@[simp] theorem ended_pane (s : State) : (ended s).pane = s.pane := rfl
@[simp] theorem ended_panes (s : State) : (ended s).panes = s.panes := rfl
@[simp] theorem ended_issue (s : State) : (ended s).issue = .ended := rfl
@[simp] theorem ended_word (s : State) : (ended s).word = s.word := rfl
@[simp] theorem ended_sill (s : State) : (ended s).sill = s.sill := rfl
@[simp] theorem ended_after (s : State) : (ended s).after = s.after := rfl
@[simp] theorem ended_agenda (s : State) : (ended s).agenda = s.agenda := rfl
@[simp] theorem ended_cycle (s : State) : (ended s).cycle = s.cycle := rfl
@[simp] theorem ended_cursor (s : State) : (ended s).cursor = s.cursor := rfl
@[simp] theorem ended_time (s : State) : (ended s).time = s.time := rfl
@[simp] theorem ended_freeCount (s : State) : (ended s).freeCount = s.freeCount := rfl
@[simp] theorem ended_nextRid (s : State) : (ended s).nextRid = s.nextRid := rfl
@[simp] theorem ended_nextPid (s : State) : (ended s).nextPid = s.nextPid := rfl
@[simp] theorem ended_nextGrid (s : State) : (ended s).nextGrid = s.nextGrid := rfl
@[simp] theorem ended_nextSeq (s : State) : (ended s).nextSeq = s.nextSeq := rfl
@[simp] theorem ended_teams (s : State) : (ended s).teams = s.teams := rfl
@[simp] theorem ended_cores (s : State) : (ended s).cores = s.cores := rfl
@[simp] theorem ended_dies (s : State) : (ended s).dies = s.dies := rfl
@[simp] theorem ended_bases (s : State) : (ended s).bases = s.bases := rfl
@[simp] theorem ended_parts (s : State) : (ended s).parts = s.parts := rfl
@[simp] theorem ended_reqs (s : State) : (ended s).reqs = s.reqs := rfl
@[simp] theorem ended_cmds (s : State) : (ended s).cmds = s.cmds := rfl
@[simp] theorem ended_colls (s : State) : (ended s).colls = s.colls := rfl
@[simp] theorem ended_chanQ (s : State) : (ended s).chanQ = s.chanQ := rfl
@[simp] theorem ended_ref (s : State) : (ended s).ref = s.ref := rfl
@[simp] theorem ended_grids (s : State) : (ended s).grids = s.grids := rfl
@[simp] theorem ended_accepted (s : State) : (ended s).accepted = s.accepted := rfl
@[simp] theorem ended_children (s : State) : (ended s).children = s.children := rfl
@[simp] theorem ended_queues (s : State) : (ended s).queues = s.queues := rfl
@[simp] theorem ended_rrQueue (s : State) : (ended s).rrQueue = s.rrQueue := rfl
@[simp] theorem ended_ctrs (s : State) : (ended s).ctrs = s.ctrs := rfl
@[simp] theorem ended_buckets (s : State) : (ended s).buckets = s.buckets := rfl
@[simp] theorem ended_lastBand (s : State) : (ended s).lastBand = s.lastBand := rfl
@[simp] theorem ended_pages (s : State) : (ended s).pages = s.pages := rfl
@[simp] theorem ended_answered (s : State) : (ended s).answered = s.answered := rfl
@[simp] theorem ended_rings (s : State) : (ended s).rings = s.rings := rfl
@[simp] theorem ended_seqs (s : State) : (ended s).seqs = s.seqs := rfl
@[simp] theorem ended_msix (s : State) : (ended s).msix = s.msix := rfl
@[simp] theorem ended_records (s : State) : (ended s).records = s.records := rfl
@[simp] theorem ended_dm (s : State) : (ended s).dm = s.dm := rfl
@[simp] theorem ended_ds (s : State) : (ended s).ds = s.ds := rfl
@[simp] theorem ended_hm (s : State) : (ended s).hm = s.hm := rfl
@[simp] theorem ended_tags (s : State) : (ended s).tags = s.tags := rfl
@[simp] theorem ended_poisoned (s : State) : (ended s).poisoned = s.poisoned := rfl
@[simp] theorem ended_lineKey (s : State) : (ended s).lineKey = s.lineKey := rfl
@[simp] theorem ended_keyGen (s : State) : (ended s).keyGen = s.keyGen := rfl
@[simp] theorem ended_issued (s : State) : (ended s).issued = s.issued := rfl
@[simp] theorem ended_rdup (s : State) : (ended s).rdup = s.rdup := rfl
@[simp] theorem ended_macOn (s : State) : (ended s).macOn = s.macOn := rfl
@[simp] theorem ended_parityOn (s : State) : (ended s).parityOn = s.parityOn := rfl
@[simp] theorem ended_otAddr (s : State) : (ended s).otAddr = s.otAddr := rfl
@[simp] theorem ended_isl (s : State) : (ended s).isl = s.isl := rfl
@[simp] theorem ended_ports (s : State) : (ended s).ports = s.ports := rfl
@[simp] theorem ended_sessions (s : State) : (ended s).sessions = s.sessions := rfl
@[simp] theorem ended_ackOut (s : State) : (ended s).ackOut = s.ackOut := rfl
@[simp] theorem ended_collOut (s : State) : (ended s).collOut = s.collOut := rfl
@[simp] theorem ended_collEarly (s : State) : (ended s).collEarly = s.collEarly := rfl
@[simp] theorem ended_elig (s : State) : (ended s).elig = s.elig := rfl
@[simp] theorem ended_pkgNo (s : State) : (ended s).pkgNo = s.pkgNo := rfl
@[simp] theorem ended_spdm (s : State) : (ended s).spdm = s.spdm := rfl
@[simp] theorem ended_puf (s : State) : (ended s).puf = s.puf := rfl
@[simp] theorem ended_recovery (s : State) : (ended s).recovery = s.recovery := rfl
@[simp] theorem ended_powered (s : State) : (ended s).powered = s.powered := rfl
@[simp] theorem ended_life (s : State) : (ended s).life = s.life := rfl
@[simp] theorem ended_invals (s : State) : (ended s).invals = s.invals := rfl
@[simp] theorem ended_invalDone (s : State) : (ended s).invalDone = s.invalDone := rfl
@[simp] theorem ended_turns (s : State) : (ended s).turns = s.turns := rfl
@[simp] theorem ended_images (s : State) : (ended s).images = s.images := rfl
@[simp] theorem ended_roms (s : State) : (ended s).roms = s.roms := rfl
@[simp] theorem ended_parkQ (s : State) : (ended s).parkQ = s.parkQ := rfl
@[simp] theorem ended_chanEvs (s : State) : (ended s).chanEvs = s.chanEvs := rfl
@[simp] theorem ended_parity (s : State) : (ended s).parity = s.parity := rfl
@[simp] theorem ended_shadow (s : State) : (ended s).shadow = s.shadow := rfl
@[simp] theorem ended_hmClock (s : State) : (ended s).hmClock = s.hmClock := rfl
@[simp] theorem ended_hostClock (s : State) : (ended s).hostClock = s.hostClock := rfl
@[simp] theorem ended_pmDone (s : State) : (ended s).pmDone = s.pmDone := rfl
@[simp] theorem ended_parityTags (s : State) : (ended s).parityTags = s.parityTags := rfl
@[simp] theorem ended_lineClock (s : State) : (ended s).lineClock = s.lineClock := rfl
@[simp] theorem ended_temps (s : State) : (ended s).temps = s.temps := rfl

/-! ### modCore -/

@[simp] theorem modCore_pane (s : State) (c : Nat) (f : Core → Core) : (s.modCore c f).pane = s.pane := rfl
@[simp] theorem modCore_panes (s : State) (c : Nat) (f : Core → Core) : (s.modCore c f).panes = s.panes := rfl
@[simp] theorem modCore_issue (s : State) (c : Nat) (f : Core → Core) : (s.modCore c f).issue = s.issue := rfl
@[simp] theorem modCore_word (s : State) (c : Nat) (f : Core → Core) : (s.modCore c f).word = s.word := rfl
@[simp] theorem modCore_sill (s : State) (c : Nat) (f : Core → Core) : (s.modCore c f).sill = s.sill := rfl
@[simp] theorem modCore_after (s : State) (c : Nat) (f : Core → Core) : (s.modCore c f).after = s.after := rfl
@[simp] theorem modCore_agenda (s : State) (c : Nat) (f : Core → Core) : (s.modCore c f).agenda = s.agenda := rfl
@[simp] theorem modCore_cycle (s : State) (c : Nat) (f : Core → Core) : (s.modCore c f).cycle = s.cycle := rfl
@[simp] theorem modCore_cursor (s : State) (c : Nat) (f : Core → Core) : (s.modCore c f).cursor = s.cursor := rfl
@[simp] theorem modCore_time (s : State) (c : Nat) (f : Core → Core) : (s.modCore c f).time = s.time := rfl
@[simp] theorem modCore_freeCount (s : State) (c : Nat) (f : Core → Core) : (s.modCore c f).freeCount = s.freeCount := rfl
@[simp] theorem modCore_nextRid (s : State) (c : Nat) (f : Core → Core) : (s.modCore c f).nextRid = s.nextRid := rfl
@[simp] theorem modCore_nextPid (s : State) (c : Nat) (f : Core → Core) : (s.modCore c f).nextPid = s.nextPid := rfl
@[simp] theorem modCore_nextGrid (s : State) (c : Nat) (f : Core → Core) : (s.modCore c f).nextGrid = s.nextGrid := rfl
@[simp] theorem modCore_nextSeq (s : State) (c : Nat) (f : Core → Core) : (s.modCore c f).nextSeq = s.nextSeq := rfl
@[simp] theorem modCore_teams (s : State) (c : Nat) (f : Core → Core) : (s.modCore c f).teams = s.teams := rfl
@[simp] theorem modCore_cores (s : State) (c : Nat) (f : Core → Core) : (s.modCore c f).cores = Tab.set s.cores c (f (s.core c)) := rfl
@[simp] theorem modCore_dies (s : State) (c : Nat) (f : Core → Core) : (s.modCore c f).dies = s.dies := rfl
@[simp] theorem modCore_bases (s : State) (c : Nat) (f : Core → Core) : (s.modCore c f).bases = s.bases := rfl
@[simp] theorem modCore_parts (s : State) (c : Nat) (f : Core → Core) : (s.modCore c f).parts = s.parts := rfl
@[simp] theorem modCore_reqs (s : State) (c : Nat) (f : Core → Core) : (s.modCore c f).reqs = s.reqs := rfl
@[simp] theorem modCore_cmds (s : State) (c : Nat) (f : Core → Core) : (s.modCore c f).cmds = s.cmds := rfl
@[simp] theorem modCore_colls (s : State) (c : Nat) (f : Core → Core) : (s.modCore c f).colls = s.colls := rfl
@[simp] theorem modCore_chanQ (s : State) (c : Nat) (f : Core → Core) : (s.modCore c f).chanQ = s.chanQ := rfl
@[simp] theorem modCore_ref (s : State) (c : Nat) (f : Core → Core) : (s.modCore c f).ref = s.ref := rfl
@[simp] theorem modCore_grids (s : State) (c : Nat) (f : Core → Core) : (s.modCore c f).grids = s.grids := rfl
@[simp] theorem modCore_accepted (s : State) (c : Nat) (f : Core → Core) : (s.modCore c f).accepted = s.accepted := rfl
@[simp] theorem modCore_children (s : State) (c : Nat) (f : Core → Core) : (s.modCore c f).children = s.children := rfl
@[simp] theorem modCore_queues (s : State) (c : Nat) (f : Core → Core) : (s.modCore c f).queues = s.queues := rfl
@[simp] theorem modCore_rrQueue (s : State) (c : Nat) (f : Core → Core) : (s.modCore c f).rrQueue = s.rrQueue := rfl
@[simp] theorem modCore_ctrs (s : State) (c : Nat) (f : Core → Core) : (s.modCore c f).ctrs = s.ctrs := rfl
@[simp] theorem modCore_buckets (s : State) (c : Nat) (f : Core → Core) : (s.modCore c f).buckets = s.buckets := rfl
@[simp] theorem modCore_lastBand (s : State) (c : Nat) (f : Core → Core) : (s.modCore c f).lastBand = s.lastBand := rfl
@[simp] theorem modCore_pages (s : State) (c : Nat) (f : Core → Core) : (s.modCore c f).pages = s.pages := rfl
@[simp] theorem modCore_answered (s : State) (c : Nat) (f : Core → Core) : (s.modCore c f).answered = s.answered := rfl
@[simp] theorem modCore_rings (s : State) (c : Nat) (f : Core → Core) : (s.modCore c f).rings = s.rings := rfl
@[simp] theorem modCore_seqs (s : State) (c : Nat) (f : Core → Core) : (s.modCore c f).seqs = s.seqs := rfl
@[simp] theorem modCore_msix (s : State) (c : Nat) (f : Core → Core) : (s.modCore c f).msix = s.msix := rfl
@[simp] theorem modCore_records (s : State) (c : Nat) (f : Core → Core) : (s.modCore c f).records = s.records := rfl
@[simp] theorem modCore_dm (s : State) (c : Nat) (f : Core → Core) : (s.modCore c f).dm = s.dm := rfl
@[simp] theorem modCore_ds (s : State) (c : Nat) (f : Core → Core) : (s.modCore c f).ds = s.ds := rfl
@[simp] theorem modCore_hm (s : State) (c : Nat) (f : Core → Core) : (s.modCore c f).hm = s.hm := rfl
@[simp] theorem modCore_tags (s : State) (c : Nat) (f : Core → Core) : (s.modCore c f).tags = s.tags := rfl
@[simp] theorem modCore_poisoned (s : State) (c : Nat) (f : Core → Core) : (s.modCore c f).poisoned = s.poisoned := rfl
@[simp] theorem modCore_lineKey (s : State) (c : Nat) (f : Core → Core) : (s.modCore c f).lineKey = s.lineKey := rfl
@[simp] theorem modCore_keyGen (s : State) (c : Nat) (f : Core → Core) : (s.modCore c f).keyGen = s.keyGen := rfl
@[simp] theorem modCore_issued (s : State) (c : Nat) (f : Core → Core) : (s.modCore c f).issued = s.issued := rfl
@[simp] theorem modCore_rdup (s : State) (c : Nat) (f : Core → Core) : (s.modCore c f).rdup = s.rdup := rfl
@[simp] theorem modCore_macOn (s : State) (c : Nat) (f : Core → Core) : (s.modCore c f).macOn = s.macOn := rfl
@[simp] theorem modCore_parityOn (s : State) (c : Nat) (f : Core → Core) : (s.modCore c f).parityOn = s.parityOn := rfl
@[simp] theorem modCore_otAddr (s : State) (c : Nat) (f : Core → Core) : (s.modCore c f).otAddr = s.otAddr := rfl
@[simp] theorem modCore_isl (s : State) (c : Nat) (f : Core → Core) : (s.modCore c f).isl = s.isl := rfl
@[simp] theorem modCore_ports (s : State) (c : Nat) (f : Core → Core) : (s.modCore c f).ports = s.ports := rfl
@[simp] theorem modCore_sessions (s : State) (c : Nat) (f : Core → Core) : (s.modCore c f).sessions = s.sessions := rfl
@[simp] theorem modCore_ackOut (s : State) (c : Nat) (f : Core → Core) : (s.modCore c f).ackOut = s.ackOut := rfl
@[simp] theorem modCore_collOut (s : State) (c : Nat) (f : Core → Core) : (s.modCore c f).collOut = s.collOut := rfl
@[simp] theorem modCore_collEarly (s : State) (c : Nat) (f : Core → Core) : (s.modCore c f).collEarly = s.collEarly := rfl
@[simp] theorem modCore_elig (s : State) (c : Nat) (f : Core → Core) : (s.modCore c f).elig = s.elig := rfl
@[simp] theorem modCore_pkgNo (s : State) (c : Nat) (f : Core → Core) : (s.modCore c f).pkgNo = s.pkgNo := rfl
@[simp] theorem modCore_spdm (s : State) (c : Nat) (f : Core → Core) : (s.modCore c f).spdm = s.spdm := rfl
@[simp] theorem modCore_puf (s : State) (c : Nat) (f : Core → Core) : (s.modCore c f).puf = s.puf := rfl
@[simp] theorem modCore_recovery (s : State) (c : Nat) (f : Core → Core) : (s.modCore c f).recovery = s.recovery := rfl
@[simp] theorem modCore_powered (s : State) (c : Nat) (f : Core → Core) : (s.modCore c f).powered = s.powered := rfl
@[simp] theorem modCore_life (s : State) (c : Nat) (f : Core → Core) : (s.modCore c f).life = s.life := rfl
@[simp] theorem modCore_invals (s : State) (c : Nat) (f : Core → Core) : (s.modCore c f).invals = s.invals := rfl
@[simp] theorem modCore_invalDone (s : State) (c : Nat) (f : Core → Core) : (s.modCore c f).invalDone = s.invalDone := rfl
@[simp] theorem modCore_turns (s : State) (c : Nat) (f : Core → Core) : (s.modCore c f).turns = s.turns := rfl
@[simp] theorem modCore_images (s : State) (c : Nat) (f : Core → Core) : (s.modCore c f).images = s.images := rfl
@[simp] theorem modCore_roms (s : State) (c : Nat) (f : Core → Core) : (s.modCore c f).roms = s.roms := rfl
@[simp] theorem modCore_parkQ (s : State) (c : Nat) (f : Core → Core) : (s.modCore c f).parkQ = s.parkQ := rfl
@[simp] theorem modCore_chanEvs (s : State) (c : Nat) (f : Core → Core) : (s.modCore c f).chanEvs = s.chanEvs := rfl
@[simp] theorem modCore_parity (s : State) (c : Nat) (f : Core → Core) : (s.modCore c f).parity = s.parity := rfl
@[simp] theorem modCore_shadow (s : State) (c : Nat) (f : Core → Core) : (s.modCore c f).shadow = s.shadow := rfl
@[simp] theorem modCore_hmClock (s : State) (c : Nat) (f : Core → Core) : (s.modCore c f).hmClock = s.hmClock := rfl
@[simp] theorem modCore_hostClock (s : State) (c : Nat) (f : Core → Core) : (s.modCore c f).hostClock = s.hostClock := rfl
@[simp] theorem modCore_pmDone (s : State) (c : Nat) (f : Core → Core) : (s.modCore c f).pmDone = s.pmDone := rfl
@[simp] theorem modCore_parityTags (s : State) (c : Nat) (f : Core → Core) : (s.modCore c f).parityTags = s.parityTags := rfl
@[simp] theorem modCore_lineClock (s : State) (c : Nat) (f : Core → Core) : (s.modCore c f).lineClock = s.lineClock := rfl
@[simp] theorem modCore_temps (s : State) (c : Nat) (f : Core → Core) : (s.modCore c f).temps = s.temps := rfl

/-! ### modDie -/

@[simp] theorem modDie_pane (s : State) (d : Nat) (f : Die → Die) : (s.modDie d f).pane = s.pane := rfl
@[simp] theorem modDie_panes (s : State) (d : Nat) (f : Die → Die) : (s.modDie d f).panes = s.panes := rfl
@[simp] theorem modDie_issue (s : State) (d : Nat) (f : Die → Die) : (s.modDie d f).issue = s.issue := rfl
@[simp] theorem modDie_word (s : State) (d : Nat) (f : Die → Die) : (s.modDie d f).word = s.word := rfl
@[simp] theorem modDie_sill (s : State) (d : Nat) (f : Die → Die) : (s.modDie d f).sill = s.sill := rfl
@[simp] theorem modDie_after (s : State) (d : Nat) (f : Die → Die) : (s.modDie d f).after = s.after := rfl
@[simp] theorem modDie_agenda (s : State) (d : Nat) (f : Die → Die) : (s.modDie d f).agenda = s.agenda := rfl
@[simp] theorem modDie_cycle (s : State) (d : Nat) (f : Die → Die) : (s.modDie d f).cycle = s.cycle := rfl
@[simp] theorem modDie_cursor (s : State) (d : Nat) (f : Die → Die) : (s.modDie d f).cursor = s.cursor := rfl
@[simp] theorem modDie_time (s : State) (d : Nat) (f : Die → Die) : (s.modDie d f).time = s.time := rfl
@[simp] theorem modDie_freeCount (s : State) (d : Nat) (f : Die → Die) : (s.modDie d f).freeCount = s.freeCount := rfl
@[simp] theorem modDie_nextRid (s : State) (d : Nat) (f : Die → Die) : (s.modDie d f).nextRid = s.nextRid := rfl
@[simp] theorem modDie_nextPid (s : State) (d : Nat) (f : Die → Die) : (s.modDie d f).nextPid = s.nextPid := rfl
@[simp] theorem modDie_nextGrid (s : State) (d : Nat) (f : Die → Die) : (s.modDie d f).nextGrid = s.nextGrid := rfl
@[simp] theorem modDie_nextSeq (s : State) (d : Nat) (f : Die → Die) : (s.modDie d f).nextSeq = s.nextSeq := rfl
@[simp] theorem modDie_teams (s : State) (d : Nat) (f : Die → Die) : (s.modDie d f).teams = s.teams := rfl
@[simp] theorem modDie_cores (s : State) (d : Nat) (f : Die → Die) : (s.modDie d f).cores = s.cores := rfl
@[simp] theorem modDie_dies (s : State) (d : Nat) (f : Die → Die) : (s.modDie d f).dies = Tab.set s.dies d (f (s.die d)) := rfl
@[simp] theorem modDie_bases (s : State) (d : Nat) (f : Die → Die) : (s.modDie d f).bases = s.bases := rfl
@[simp] theorem modDie_parts (s : State) (d : Nat) (f : Die → Die) : (s.modDie d f).parts = s.parts := rfl
@[simp] theorem modDie_reqs (s : State) (d : Nat) (f : Die → Die) : (s.modDie d f).reqs = s.reqs := rfl
@[simp] theorem modDie_cmds (s : State) (d : Nat) (f : Die → Die) : (s.modDie d f).cmds = s.cmds := rfl
@[simp] theorem modDie_colls (s : State) (d : Nat) (f : Die → Die) : (s.modDie d f).colls = s.colls := rfl
@[simp] theorem modDie_chanQ (s : State) (d : Nat) (f : Die → Die) : (s.modDie d f).chanQ = s.chanQ := rfl
@[simp] theorem modDie_ref (s : State) (d : Nat) (f : Die → Die) : (s.modDie d f).ref = s.ref := rfl
@[simp] theorem modDie_grids (s : State) (d : Nat) (f : Die → Die) : (s.modDie d f).grids = s.grids := rfl
@[simp] theorem modDie_accepted (s : State) (d : Nat) (f : Die → Die) : (s.modDie d f).accepted = s.accepted := rfl
@[simp] theorem modDie_children (s : State) (d : Nat) (f : Die → Die) : (s.modDie d f).children = s.children := rfl
@[simp] theorem modDie_queues (s : State) (d : Nat) (f : Die → Die) : (s.modDie d f).queues = s.queues := rfl
@[simp] theorem modDie_rrQueue (s : State) (d : Nat) (f : Die → Die) : (s.modDie d f).rrQueue = s.rrQueue := rfl
@[simp] theorem modDie_ctrs (s : State) (d : Nat) (f : Die → Die) : (s.modDie d f).ctrs = s.ctrs := rfl
@[simp] theorem modDie_buckets (s : State) (d : Nat) (f : Die → Die) : (s.modDie d f).buckets = s.buckets := rfl
@[simp] theorem modDie_lastBand (s : State) (d : Nat) (f : Die → Die) : (s.modDie d f).lastBand = s.lastBand := rfl
@[simp] theorem modDie_pages (s : State) (d : Nat) (f : Die → Die) : (s.modDie d f).pages = s.pages := rfl
@[simp] theorem modDie_answered (s : State) (d : Nat) (f : Die → Die) : (s.modDie d f).answered = s.answered := rfl
@[simp] theorem modDie_rings (s : State) (d : Nat) (f : Die → Die) : (s.modDie d f).rings = s.rings := rfl
@[simp] theorem modDie_seqs (s : State) (d : Nat) (f : Die → Die) : (s.modDie d f).seqs = s.seqs := rfl
@[simp] theorem modDie_msix (s : State) (d : Nat) (f : Die → Die) : (s.modDie d f).msix = s.msix := rfl
@[simp] theorem modDie_records (s : State) (d : Nat) (f : Die → Die) : (s.modDie d f).records = s.records := rfl
@[simp] theorem modDie_dm (s : State) (d : Nat) (f : Die → Die) : (s.modDie d f).dm = s.dm := rfl
@[simp] theorem modDie_ds (s : State) (d : Nat) (f : Die → Die) : (s.modDie d f).ds = s.ds := rfl
@[simp] theorem modDie_hm (s : State) (d : Nat) (f : Die → Die) : (s.modDie d f).hm = s.hm := rfl
@[simp] theorem modDie_tags (s : State) (d : Nat) (f : Die → Die) : (s.modDie d f).tags = s.tags := rfl
@[simp] theorem modDie_poisoned (s : State) (d : Nat) (f : Die → Die) : (s.modDie d f).poisoned = s.poisoned := rfl
@[simp] theorem modDie_lineKey (s : State) (d : Nat) (f : Die → Die) : (s.modDie d f).lineKey = s.lineKey := rfl
@[simp] theorem modDie_keyGen (s : State) (d : Nat) (f : Die → Die) : (s.modDie d f).keyGen = s.keyGen := rfl
@[simp] theorem modDie_issued (s : State) (d : Nat) (f : Die → Die) : (s.modDie d f).issued = s.issued := rfl
@[simp] theorem modDie_rdup (s : State) (d : Nat) (f : Die → Die) : (s.modDie d f).rdup = s.rdup := rfl
@[simp] theorem modDie_macOn (s : State) (d : Nat) (f : Die → Die) : (s.modDie d f).macOn = s.macOn := rfl
@[simp] theorem modDie_parityOn (s : State) (d : Nat) (f : Die → Die) : (s.modDie d f).parityOn = s.parityOn := rfl
@[simp] theorem modDie_otAddr (s : State) (d : Nat) (f : Die → Die) : (s.modDie d f).otAddr = s.otAddr := rfl
@[simp] theorem modDie_isl (s : State) (d : Nat) (f : Die → Die) : (s.modDie d f).isl = s.isl := rfl
@[simp] theorem modDie_ports (s : State) (d : Nat) (f : Die → Die) : (s.modDie d f).ports = s.ports := rfl
@[simp] theorem modDie_sessions (s : State) (d : Nat) (f : Die → Die) : (s.modDie d f).sessions = s.sessions := rfl
@[simp] theorem modDie_ackOut (s : State) (d : Nat) (f : Die → Die) : (s.modDie d f).ackOut = s.ackOut := rfl
@[simp] theorem modDie_collOut (s : State) (d : Nat) (f : Die → Die) : (s.modDie d f).collOut = s.collOut := rfl
@[simp] theorem modDie_collEarly (s : State) (d : Nat) (f : Die → Die) : (s.modDie d f).collEarly = s.collEarly := rfl
@[simp] theorem modDie_elig (s : State) (d : Nat) (f : Die → Die) : (s.modDie d f).elig = s.elig := rfl
@[simp] theorem modDie_pkgNo (s : State) (d : Nat) (f : Die → Die) : (s.modDie d f).pkgNo = s.pkgNo := rfl
@[simp] theorem modDie_spdm (s : State) (d : Nat) (f : Die → Die) : (s.modDie d f).spdm = s.spdm := rfl
@[simp] theorem modDie_puf (s : State) (d : Nat) (f : Die → Die) : (s.modDie d f).puf = s.puf := rfl
@[simp] theorem modDie_recovery (s : State) (d : Nat) (f : Die → Die) : (s.modDie d f).recovery = s.recovery := rfl
@[simp] theorem modDie_powered (s : State) (d : Nat) (f : Die → Die) : (s.modDie d f).powered = s.powered := rfl
@[simp] theorem modDie_life (s : State) (d : Nat) (f : Die → Die) : (s.modDie d f).life = s.life := rfl
@[simp] theorem modDie_invals (s : State) (d : Nat) (f : Die → Die) : (s.modDie d f).invals = s.invals := rfl
@[simp] theorem modDie_invalDone (s : State) (d : Nat) (f : Die → Die) : (s.modDie d f).invalDone = s.invalDone := rfl
@[simp] theorem modDie_turns (s : State) (d : Nat) (f : Die → Die) : (s.modDie d f).turns = s.turns := rfl
@[simp] theorem modDie_images (s : State) (d : Nat) (f : Die → Die) : (s.modDie d f).images = s.images := rfl
@[simp] theorem modDie_roms (s : State) (d : Nat) (f : Die → Die) : (s.modDie d f).roms = s.roms := rfl
@[simp] theorem modDie_parkQ (s : State) (d : Nat) (f : Die → Die) : (s.modDie d f).parkQ = s.parkQ := rfl
@[simp] theorem modDie_chanEvs (s : State) (d : Nat) (f : Die → Die) : (s.modDie d f).chanEvs = s.chanEvs := rfl
@[simp] theorem modDie_parity (s : State) (d : Nat) (f : Die → Die) : (s.modDie d f).parity = s.parity := rfl
@[simp] theorem modDie_shadow (s : State) (d : Nat) (f : Die → Die) : (s.modDie d f).shadow = s.shadow := rfl
@[simp] theorem modDie_hmClock (s : State) (d : Nat) (f : Die → Die) : (s.modDie d f).hmClock = s.hmClock := rfl
@[simp] theorem modDie_hostClock (s : State) (d : Nat) (f : Die → Die) : (s.modDie d f).hostClock = s.hostClock := rfl
@[simp] theorem modDie_pmDone (s : State) (d : Nat) (f : Die → Die) : (s.modDie d f).pmDone = s.pmDone := rfl
@[simp] theorem modDie_parityTags (s : State) (d : Nat) (f : Die → Die) : (s.modDie d f).parityTags = s.parityTags := rfl
@[simp] theorem modDie_lineClock (s : State) (d : Nat) (f : Die → Die) : (s.modDie d f).lineClock = s.lineClock := rfl
@[simp] theorem modDie_temps (s : State) (d : Nat) (f : Die → Die) : (s.modDie d f).temps = s.temps := rfl

/-! ### modBase -/

@[simp] theorem modBase_pane (s : State) (g : Nat) (f : Base → Base) : (s.modBase g f).pane = s.pane := rfl
@[simp] theorem modBase_panes (s : State) (g : Nat) (f : Base → Base) : (s.modBase g f).panes = s.panes := rfl
@[simp] theorem modBase_issue (s : State) (g : Nat) (f : Base → Base) : (s.modBase g f).issue = s.issue := rfl
@[simp] theorem modBase_word (s : State) (g : Nat) (f : Base → Base) : (s.modBase g f).word = s.word := rfl
@[simp] theorem modBase_sill (s : State) (g : Nat) (f : Base → Base) : (s.modBase g f).sill = s.sill := rfl
@[simp] theorem modBase_after (s : State) (g : Nat) (f : Base → Base) : (s.modBase g f).after = s.after := rfl
@[simp] theorem modBase_agenda (s : State) (g : Nat) (f : Base → Base) : (s.modBase g f).agenda = s.agenda := rfl
@[simp] theorem modBase_cycle (s : State) (g : Nat) (f : Base → Base) : (s.modBase g f).cycle = s.cycle := rfl
@[simp] theorem modBase_cursor (s : State) (g : Nat) (f : Base → Base) : (s.modBase g f).cursor = s.cursor := rfl
@[simp] theorem modBase_time (s : State) (g : Nat) (f : Base → Base) : (s.modBase g f).time = s.time := rfl
@[simp] theorem modBase_freeCount (s : State) (g : Nat) (f : Base → Base) : (s.modBase g f).freeCount = s.freeCount := rfl
@[simp] theorem modBase_nextRid (s : State) (g : Nat) (f : Base → Base) : (s.modBase g f).nextRid = s.nextRid := rfl
@[simp] theorem modBase_nextPid (s : State) (g : Nat) (f : Base → Base) : (s.modBase g f).nextPid = s.nextPid := rfl
@[simp] theorem modBase_nextGrid (s : State) (g : Nat) (f : Base → Base) : (s.modBase g f).nextGrid = s.nextGrid := rfl
@[simp] theorem modBase_nextSeq (s : State) (g : Nat) (f : Base → Base) : (s.modBase g f).nextSeq = s.nextSeq := rfl
@[simp] theorem modBase_teams (s : State) (g : Nat) (f : Base → Base) : (s.modBase g f).teams = s.teams := rfl
@[simp] theorem modBase_cores (s : State) (g : Nat) (f : Base → Base) : (s.modBase g f).cores = s.cores := rfl
@[simp] theorem modBase_dies (s : State) (g : Nat) (f : Base → Base) : (s.modBase g f).dies = s.dies := rfl
@[simp] theorem modBase_bases (s : State) (g : Nat) (f : Base → Base) : (s.modBase g f).bases = Tab.set s.bases g (f (s.base g)) := rfl
@[simp] theorem modBase_parts (s : State) (g : Nat) (f : Base → Base) : (s.modBase g f).parts = s.parts := rfl
@[simp] theorem modBase_reqs (s : State) (g : Nat) (f : Base → Base) : (s.modBase g f).reqs = s.reqs := rfl
@[simp] theorem modBase_cmds (s : State) (g : Nat) (f : Base → Base) : (s.modBase g f).cmds = s.cmds := rfl
@[simp] theorem modBase_colls (s : State) (g : Nat) (f : Base → Base) : (s.modBase g f).colls = s.colls := rfl
@[simp] theorem modBase_chanQ (s : State) (g : Nat) (f : Base → Base) : (s.modBase g f).chanQ = s.chanQ := rfl
@[simp] theorem modBase_ref (s : State) (g : Nat) (f : Base → Base) : (s.modBase g f).ref = s.ref := rfl
@[simp] theorem modBase_grids (s : State) (g : Nat) (f : Base → Base) : (s.modBase g f).grids = s.grids := rfl
@[simp] theorem modBase_accepted (s : State) (g : Nat) (f : Base → Base) : (s.modBase g f).accepted = s.accepted := rfl
@[simp] theorem modBase_children (s : State) (g : Nat) (f : Base → Base) : (s.modBase g f).children = s.children := rfl
@[simp] theorem modBase_queues (s : State) (g : Nat) (f : Base → Base) : (s.modBase g f).queues = s.queues := rfl
@[simp] theorem modBase_rrQueue (s : State) (g : Nat) (f : Base → Base) : (s.modBase g f).rrQueue = s.rrQueue := rfl
@[simp] theorem modBase_ctrs (s : State) (g : Nat) (f : Base → Base) : (s.modBase g f).ctrs = s.ctrs := rfl
@[simp] theorem modBase_buckets (s : State) (g : Nat) (f : Base → Base) : (s.modBase g f).buckets = s.buckets := rfl
@[simp] theorem modBase_lastBand (s : State) (g : Nat) (f : Base → Base) : (s.modBase g f).lastBand = s.lastBand := rfl
@[simp] theorem modBase_pages (s : State) (g : Nat) (f : Base → Base) : (s.modBase g f).pages = s.pages := rfl
@[simp] theorem modBase_answered (s : State) (g : Nat) (f : Base → Base) : (s.modBase g f).answered = s.answered := rfl
@[simp] theorem modBase_rings (s : State) (g : Nat) (f : Base → Base) : (s.modBase g f).rings = s.rings := rfl
@[simp] theorem modBase_seqs (s : State) (g : Nat) (f : Base → Base) : (s.modBase g f).seqs = s.seqs := rfl
@[simp] theorem modBase_msix (s : State) (g : Nat) (f : Base → Base) : (s.modBase g f).msix = s.msix := rfl
@[simp] theorem modBase_records (s : State) (g : Nat) (f : Base → Base) : (s.modBase g f).records = s.records := rfl
@[simp] theorem modBase_dm (s : State) (g : Nat) (f : Base → Base) : (s.modBase g f).dm = s.dm := rfl
@[simp] theorem modBase_ds (s : State) (g : Nat) (f : Base → Base) : (s.modBase g f).ds = s.ds := rfl
@[simp] theorem modBase_hm (s : State) (g : Nat) (f : Base → Base) : (s.modBase g f).hm = s.hm := rfl
@[simp] theorem modBase_tags (s : State) (g : Nat) (f : Base → Base) : (s.modBase g f).tags = s.tags := rfl
@[simp] theorem modBase_poisoned (s : State) (g : Nat) (f : Base → Base) : (s.modBase g f).poisoned = s.poisoned := rfl
@[simp] theorem modBase_lineKey (s : State) (g : Nat) (f : Base → Base) : (s.modBase g f).lineKey = s.lineKey := rfl
@[simp] theorem modBase_keyGen (s : State) (g : Nat) (f : Base → Base) : (s.modBase g f).keyGen = s.keyGen := rfl
@[simp] theorem modBase_issued (s : State) (g : Nat) (f : Base → Base) : (s.modBase g f).issued = s.issued := rfl
@[simp] theorem modBase_rdup (s : State) (g : Nat) (f : Base → Base) : (s.modBase g f).rdup = s.rdup := rfl
@[simp] theorem modBase_macOn (s : State) (g : Nat) (f : Base → Base) : (s.modBase g f).macOn = s.macOn := rfl
@[simp] theorem modBase_parityOn (s : State) (g : Nat) (f : Base → Base) : (s.modBase g f).parityOn = s.parityOn := rfl
@[simp] theorem modBase_otAddr (s : State) (g : Nat) (f : Base → Base) : (s.modBase g f).otAddr = s.otAddr := rfl
@[simp] theorem modBase_isl (s : State) (g : Nat) (f : Base → Base) : (s.modBase g f).isl = s.isl := rfl
@[simp] theorem modBase_ports (s : State) (g : Nat) (f : Base → Base) : (s.modBase g f).ports = s.ports := rfl
@[simp] theorem modBase_sessions (s : State) (g : Nat) (f : Base → Base) : (s.modBase g f).sessions = s.sessions := rfl
@[simp] theorem modBase_ackOut (s : State) (g : Nat) (f : Base → Base) : (s.modBase g f).ackOut = s.ackOut := rfl
@[simp] theorem modBase_collOut (s : State) (g : Nat) (f : Base → Base) : (s.modBase g f).collOut = s.collOut := rfl
@[simp] theorem modBase_collEarly (s : State) (g : Nat) (f : Base → Base) : (s.modBase g f).collEarly = s.collEarly := rfl
@[simp] theorem modBase_elig (s : State) (g : Nat) (f : Base → Base) : (s.modBase g f).elig = s.elig := rfl
@[simp] theorem modBase_pkgNo (s : State) (g : Nat) (f : Base → Base) : (s.modBase g f).pkgNo = s.pkgNo := rfl
@[simp] theorem modBase_spdm (s : State) (g : Nat) (f : Base → Base) : (s.modBase g f).spdm = s.spdm := rfl
@[simp] theorem modBase_puf (s : State) (g : Nat) (f : Base → Base) : (s.modBase g f).puf = s.puf := rfl
@[simp] theorem modBase_recovery (s : State) (g : Nat) (f : Base → Base) : (s.modBase g f).recovery = s.recovery := rfl
@[simp] theorem modBase_powered (s : State) (g : Nat) (f : Base → Base) : (s.modBase g f).powered = s.powered := rfl
@[simp] theorem modBase_life (s : State) (g : Nat) (f : Base → Base) : (s.modBase g f).life = s.life := rfl
@[simp] theorem modBase_invals (s : State) (g : Nat) (f : Base → Base) : (s.modBase g f).invals = s.invals := rfl
@[simp] theorem modBase_invalDone (s : State) (g : Nat) (f : Base → Base) : (s.modBase g f).invalDone = s.invalDone := rfl
@[simp] theorem modBase_turns (s : State) (g : Nat) (f : Base → Base) : (s.modBase g f).turns = s.turns := rfl
@[simp] theorem modBase_images (s : State) (g : Nat) (f : Base → Base) : (s.modBase g f).images = s.images := rfl
@[simp] theorem modBase_roms (s : State) (g : Nat) (f : Base → Base) : (s.modBase g f).roms = s.roms := rfl
@[simp] theorem modBase_parkQ (s : State) (g : Nat) (f : Base → Base) : (s.modBase g f).parkQ = s.parkQ := rfl
@[simp] theorem modBase_chanEvs (s : State) (g : Nat) (f : Base → Base) : (s.modBase g f).chanEvs = s.chanEvs := rfl
@[simp] theorem modBase_parity (s : State) (g : Nat) (f : Base → Base) : (s.modBase g f).parity = s.parity := rfl
@[simp] theorem modBase_shadow (s : State) (g : Nat) (f : Base → Base) : (s.modBase g f).shadow = s.shadow := rfl
@[simp] theorem modBase_hmClock (s : State) (g : Nat) (f : Base → Base) : (s.modBase g f).hmClock = s.hmClock := rfl
@[simp] theorem modBase_hostClock (s : State) (g : Nat) (f : Base → Base) : (s.modBase g f).hostClock = s.hostClock := rfl
@[simp] theorem modBase_pmDone (s : State) (g : Nat) (f : Base → Base) : (s.modBase g f).pmDone = s.pmDone := rfl
@[simp] theorem modBase_parityTags (s : State) (g : Nat) (f : Base → Base) : (s.modBase g f).parityTags = s.parityTags := rfl
@[simp] theorem modBase_lineClock (s : State) (g : Nat) (f : Base → Base) : (s.modBase g f).lineClock = s.lineClock := rfl
@[simp] theorem modBase_temps (s : State) (g : Nat) (f : Base → Base) : (s.modBase g f).temps = s.temps := rfl

/-! ### modPart -/

@[simp] theorem modPart_pane (s : State) (p : Nat) (f : Part → Part) : (s.modPart p f).pane = s.pane := rfl
@[simp] theorem modPart_panes (s : State) (p : Nat) (f : Part → Part) : (s.modPart p f).panes = s.panes := rfl
@[simp] theorem modPart_issue (s : State) (p : Nat) (f : Part → Part) : (s.modPart p f).issue = s.issue := rfl
@[simp] theorem modPart_word (s : State) (p : Nat) (f : Part → Part) : (s.modPart p f).word = s.word := rfl
@[simp] theorem modPart_sill (s : State) (p : Nat) (f : Part → Part) : (s.modPart p f).sill = s.sill := rfl
@[simp] theorem modPart_after (s : State) (p : Nat) (f : Part → Part) : (s.modPart p f).after = s.after := rfl
@[simp] theorem modPart_agenda (s : State) (p : Nat) (f : Part → Part) : (s.modPart p f).agenda = s.agenda := rfl
@[simp] theorem modPart_cycle (s : State) (p : Nat) (f : Part → Part) : (s.modPart p f).cycle = s.cycle := rfl
@[simp] theorem modPart_cursor (s : State) (p : Nat) (f : Part → Part) : (s.modPart p f).cursor = s.cursor := rfl
@[simp] theorem modPart_time (s : State) (p : Nat) (f : Part → Part) : (s.modPart p f).time = s.time := rfl
@[simp] theorem modPart_freeCount (s : State) (p : Nat) (f : Part → Part) : (s.modPart p f).freeCount = s.freeCount := rfl
@[simp] theorem modPart_nextRid (s : State) (p : Nat) (f : Part → Part) : (s.modPart p f).nextRid = s.nextRid := rfl
@[simp] theorem modPart_nextPid (s : State) (p : Nat) (f : Part → Part) : (s.modPart p f).nextPid = s.nextPid := rfl
@[simp] theorem modPart_nextGrid (s : State) (p : Nat) (f : Part → Part) : (s.modPart p f).nextGrid = s.nextGrid := rfl
@[simp] theorem modPart_nextSeq (s : State) (p : Nat) (f : Part → Part) : (s.modPart p f).nextSeq = s.nextSeq := rfl
@[simp] theorem modPart_teams (s : State) (p : Nat) (f : Part → Part) : (s.modPart p f).teams = s.teams := rfl
@[simp] theorem modPart_cores (s : State) (p : Nat) (f : Part → Part) : (s.modPart p f).cores = s.cores := rfl
@[simp] theorem modPart_dies (s : State) (p : Nat) (f : Part → Part) : (s.modPart p f).dies = s.dies := rfl
@[simp] theorem modPart_bases (s : State) (p : Nat) (f : Part → Part) : (s.modPart p f).bases = s.bases := rfl
@[simp] theorem modPart_parts (s : State) (p : Nat) (f : Part → Part) : (s.modPart p f).parts = Tab.set s.parts p (f (s.part p)) := rfl
@[simp] theorem modPart_reqs (s : State) (p : Nat) (f : Part → Part) : (s.modPart p f).reqs = s.reqs := rfl
@[simp] theorem modPart_cmds (s : State) (p : Nat) (f : Part → Part) : (s.modPart p f).cmds = s.cmds := rfl
@[simp] theorem modPart_colls (s : State) (p : Nat) (f : Part → Part) : (s.modPart p f).colls = s.colls := rfl
@[simp] theorem modPart_chanQ (s : State) (p : Nat) (f : Part → Part) : (s.modPart p f).chanQ = s.chanQ := rfl
@[simp] theorem modPart_ref (s : State) (p : Nat) (f : Part → Part) : (s.modPart p f).ref = s.ref := rfl
@[simp] theorem modPart_grids (s : State) (p : Nat) (f : Part → Part) : (s.modPart p f).grids = s.grids := rfl
@[simp] theorem modPart_accepted (s : State) (p : Nat) (f : Part → Part) : (s.modPart p f).accepted = s.accepted := rfl
@[simp] theorem modPart_children (s : State) (p : Nat) (f : Part → Part) : (s.modPart p f).children = s.children := rfl
@[simp] theorem modPart_queues (s : State) (p : Nat) (f : Part → Part) : (s.modPart p f).queues = s.queues := rfl
@[simp] theorem modPart_rrQueue (s : State) (p : Nat) (f : Part → Part) : (s.modPart p f).rrQueue = s.rrQueue := rfl
@[simp] theorem modPart_ctrs (s : State) (p : Nat) (f : Part → Part) : (s.modPart p f).ctrs = s.ctrs := rfl
@[simp] theorem modPart_buckets (s : State) (p : Nat) (f : Part → Part) : (s.modPart p f).buckets = s.buckets := rfl
@[simp] theorem modPart_lastBand (s : State) (p : Nat) (f : Part → Part) : (s.modPart p f).lastBand = s.lastBand := rfl
@[simp] theorem modPart_pages (s : State) (p : Nat) (f : Part → Part) : (s.modPart p f).pages = s.pages := rfl
@[simp] theorem modPart_answered (s : State) (p : Nat) (f : Part → Part) : (s.modPart p f).answered = s.answered := rfl
@[simp] theorem modPart_rings (s : State) (p : Nat) (f : Part → Part) : (s.modPart p f).rings = s.rings := rfl
@[simp] theorem modPart_seqs (s : State) (p : Nat) (f : Part → Part) : (s.modPart p f).seqs = s.seqs := rfl
@[simp] theorem modPart_msix (s : State) (p : Nat) (f : Part → Part) : (s.modPart p f).msix = s.msix := rfl
@[simp] theorem modPart_records (s : State) (p : Nat) (f : Part → Part) : (s.modPart p f).records = s.records := rfl
@[simp] theorem modPart_dm (s : State) (p : Nat) (f : Part → Part) : (s.modPart p f).dm = s.dm := rfl
@[simp] theorem modPart_ds (s : State) (p : Nat) (f : Part → Part) : (s.modPart p f).ds = s.ds := rfl
@[simp] theorem modPart_hm (s : State) (p : Nat) (f : Part → Part) : (s.modPart p f).hm = s.hm := rfl
@[simp] theorem modPart_tags (s : State) (p : Nat) (f : Part → Part) : (s.modPart p f).tags = s.tags := rfl
@[simp] theorem modPart_poisoned (s : State) (p : Nat) (f : Part → Part) : (s.modPart p f).poisoned = s.poisoned := rfl
@[simp] theorem modPart_lineKey (s : State) (p : Nat) (f : Part → Part) : (s.modPart p f).lineKey = s.lineKey := rfl
@[simp] theorem modPart_keyGen (s : State) (p : Nat) (f : Part → Part) : (s.modPart p f).keyGen = s.keyGen := rfl
@[simp] theorem modPart_issued (s : State) (p : Nat) (f : Part → Part) : (s.modPart p f).issued = s.issued := rfl
@[simp] theorem modPart_rdup (s : State) (p : Nat) (f : Part → Part) : (s.modPart p f).rdup = s.rdup := rfl
@[simp] theorem modPart_macOn (s : State) (p : Nat) (f : Part → Part) : (s.modPart p f).macOn = s.macOn := rfl
@[simp] theorem modPart_parityOn (s : State) (p : Nat) (f : Part → Part) : (s.modPart p f).parityOn = s.parityOn := rfl
@[simp] theorem modPart_otAddr (s : State) (p : Nat) (f : Part → Part) : (s.modPart p f).otAddr = s.otAddr := rfl
@[simp] theorem modPart_isl (s : State) (p : Nat) (f : Part → Part) : (s.modPart p f).isl = s.isl := rfl
@[simp] theorem modPart_ports (s : State) (p : Nat) (f : Part → Part) : (s.modPart p f).ports = s.ports := rfl
@[simp] theorem modPart_sessions (s : State) (p : Nat) (f : Part → Part) : (s.modPart p f).sessions = s.sessions := rfl
@[simp] theorem modPart_ackOut (s : State) (p : Nat) (f : Part → Part) : (s.modPart p f).ackOut = s.ackOut := rfl
@[simp] theorem modPart_collOut (s : State) (p : Nat) (f : Part → Part) : (s.modPart p f).collOut = s.collOut := rfl
@[simp] theorem modPart_collEarly (s : State) (p : Nat) (f : Part → Part) : (s.modPart p f).collEarly = s.collEarly := rfl
@[simp] theorem modPart_elig (s : State) (p : Nat) (f : Part → Part) : (s.modPart p f).elig = s.elig := rfl
@[simp] theorem modPart_pkgNo (s : State) (p : Nat) (f : Part → Part) : (s.modPart p f).pkgNo = s.pkgNo := rfl
@[simp] theorem modPart_spdm (s : State) (p : Nat) (f : Part → Part) : (s.modPart p f).spdm = s.spdm := rfl
@[simp] theorem modPart_puf (s : State) (p : Nat) (f : Part → Part) : (s.modPart p f).puf = s.puf := rfl
@[simp] theorem modPart_recovery (s : State) (p : Nat) (f : Part → Part) : (s.modPart p f).recovery = s.recovery := rfl
@[simp] theorem modPart_powered (s : State) (p : Nat) (f : Part → Part) : (s.modPart p f).powered = s.powered := rfl
@[simp] theorem modPart_life (s : State) (p : Nat) (f : Part → Part) : (s.modPart p f).life = s.life := rfl
@[simp] theorem modPart_invals (s : State) (p : Nat) (f : Part → Part) : (s.modPart p f).invals = s.invals := rfl
@[simp] theorem modPart_invalDone (s : State) (p : Nat) (f : Part → Part) : (s.modPart p f).invalDone = s.invalDone := rfl
@[simp] theorem modPart_turns (s : State) (p : Nat) (f : Part → Part) : (s.modPart p f).turns = s.turns := rfl
@[simp] theorem modPart_images (s : State) (p : Nat) (f : Part → Part) : (s.modPart p f).images = s.images := rfl
@[simp] theorem modPart_roms (s : State) (p : Nat) (f : Part → Part) : (s.modPart p f).roms = s.roms := rfl
@[simp] theorem modPart_parkQ (s : State) (p : Nat) (f : Part → Part) : (s.modPart p f).parkQ = s.parkQ := rfl
@[simp] theorem modPart_chanEvs (s : State) (p : Nat) (f : Part → Part) : (s.modPart p f).chanEvs = s.chanEvs := rfl
@[simp] theorem modPart_parity (s : State) (p : Nat) (f : Part → Part) : (s.modPart p f).parity = s.parity := rfl
@[simp] theorem modPart_shadow (s : State) (p : Nat) (f : Part → Part) : (s.modPart p f).shadow = s.shadow := rfl
@[simp] theorem modPart_hmClock (s : State) (p : Nat) (f : Part → Part) : (s.modPart p f).hmClock = s.hmClock := rfl
@[simp] theorem modPart_hostClock (s : State) (p : Nat) (f : Part → Part) : (s.modPart p f).hostClock = s.hostClock := rfl
@[simp] theorem modPart_pmDone (s : State) (p : Nat) (f : Part → Part) : (s.modPart p f).pmDone = s.pmDone := rfl
@[simp] theorem modPart_parityTags (s : State) (p : Nat) (f : Part → Part) : (s.modPart p f).parityTags = s.parityTags := rfl
@[simp] theorem modPart_lineClock (s : State) (p : Nat) (f : Part → Part) : (s.modPart p f).lineClock = s.lineClock := rfl
@[simp] theorem modPart_temps (s : State) (p : Nat) (f : Part → Part) : (s.modPart p f).temps = s.temps := rfl

/-! ### modPort -/

@[simp] theorem modPort_pane (s : State) (k : Nat) (f : Port → Port) : (s.modPort k f).pane = s.pane := rfl
@[simp] theorem modPort_panes (s : State) (k : Nat) (f : Port → Port) : (s.modPort k f).panes = s.panes := rfl
@[simp] theorem modPort_issue (s : State) (k : Nat) (f : Port → Port) : (s.modPort k f).issue = s.issue := rfl
@[simp] theorem modPort_word (s : State) (k : Nat) (f : Port → Port) : (s.modPort k f).word = s.word := rfl
@[simp] theorem modPort_sill (s : State) (k : Nat) (f : Port → Port) : (s.modPort k f).sill = s.sill := rfl
@[simp] theorem modPort_after (s : State) (k : Nat) (f : Port → Port) : (s.modPort k f).after = s.after := rfl
@[simp] theorem modPort_agenda (s : State) (k : Nat) (f : Port → Port) : (s.modPort k f).agenda = s.agenda := rfl
@[simp] theorem modPort_cycle (s : State) (k : Nat) (f : Port → Port) : (s.modPort k f).cycle = s.cycle := rfl
@[simp] theorem modPort_cursor (s : State) (k : Nat) (f : Port → Port) : (s.modPort k f).cursor = s.cursor := rfl
@[simp] theorem modPort_time (s : State) (k : Nat) (f : Port → Port) : (s.modPort k f).time = s.time := rfl
@[simp] theorem modPort_freeCount (s : State) (k : Nat) (f : Port → Port) : (s.modPort k f).freeCount = s.freeCount := rfl
@[simp] theorem modPort_nextRid (s : State) (k : Nat) (f : Port → Port) : (s.modPort k f).nextRid = s.nextRid := rfl
@[simp] theorem modPort_nextPid (s : State) (k : Nat) (f : Port → Port) : (s.modPort k f).nextPid = s.nextPid := rfl
@[simp] theorem modPort_nextGrid (s : State) (k : Nat) (f : Port → Port) : (s.modPort k f).nextGrid = s.nextGrid := rfl
@[simp] theorem modPort_nextSeq (s : State) (k : Nat) (f : Port → Port) : (s.modPort k f).nextSeq = s.nextSeq := rfl
@[simp] theorem modPort_teams (s : State) (k : Nat) (f : Port → Port) : (s.modPort k f).teams = s.teams := rfl
@[simp] theorem modPort_cores (s : State) (k : Nat) (f : Port → Port) : (s.modPort k f).cores = s.cores := rfl
@[simp] theorem modPort_dies (s : State) (k : Nat) (f : Port → Port) : (s.modPort k f).dies = s.dies := rfl
@[simp] theorem modPort_bases (s : State) (k : Nat) (f : Port → Port) : (s.modPort k f).bases = s.bases := rfl
@[simp] theorem modPort_parts (s : State) (k : Nat) (f : Port → Port) : (s.modPort k f).parts = s.parts := rfl
@[simp] theorem modPort_reqs (s : State) (k : Nat) (f : Port → Port) : (s.modPort k f).reqs = s.reqs := rfl
@[simp] theorem modPort_cmds (s : State) (k : Nat) (f : Port → Port) : (s.modPort k f).cmds = s.cmds := rfl
@[simp] theorem modPort_colls (s : State) (k : Nat) (f : Port → Port) : (s.modPort k f).colls = s.colls := rfl
@[simp] theorem modPort_chanQ (s : State) (k : Nat) (f : Port → Port) : (s.modPort k f).chanQ = s.chanQ := rfl
@[simp] theorem modPort_ref (s : State) (k : Nat) (f : Port → Port) : (s.modPort k f).ref = s.ref := rfl
@[simp] theorem modPort_grids (s : State) (k : Nat) (f : Port → Port) : (s.modPort k f).grids = s.grids := rfl
@[simp] theorem modPort_accepted (s : State) (k : Nat) (f : Port → Port) : (s.modPort k f).accepted = s.accepted := rfl
@[simp] theorem modPort_children (s : State) (k : Nat) (f : Port → Port) : (s.modPort k f).children = s.children := rfl
@[simp] theorem modPort_queues (s : State) (k : Nat) (f : Port → Port) : (s.modPort k f).queues = s.queues := rfl
@[simp] theorem modPort_rrQueue (s : State) (k : Nat) (f : Port → Port) : (s.modPort k f).rrQueue = s.rrQueue := rfl
@[simp] theorem modPort_ctrs (s : State) (k : Nat) (f : Port → Port) : (s.modPort k f).ctrs = s.ctrs := rfl
@[simp] theorem modPort_buckets (s : State) (k : Nat) (f : Port → Port) : (s.modPort k f).buckets = s.buckets := rfl
@[simp] theorem modPort_lastBand (s : State) (k : Nat) (f : Port → Port) : (s.modPort k f).lastBand = s.lastBand := rfl
@[simp] theorem modPort_pages (s : State) (k : Nat) (f : Port → Port) : (s.modPort k f).pages = s.pages := rfl
@[simp] theorem modPort_answered (s : State) (k : Nat) (f : Port → Port) : (s.modPort k f).answered = s.answered := rfl
@[simp] theorem modPort_rings (s : State) (k : Nat) (f : Port → Port) : (s.modPort k f).rings = s.rings := rfl
@[simp] theorem modPort_seqs (s : State) (k : Nat) (f : Port → Port) : (s.modPort k f).seqs = s.seqs := rfl
@[simp] theorem modPort_msix (s : State) (k : Nat) (f : Port → Port) : (s.modPort k f).msix = s.msix := rfl
@[simp] theorem modPort_records (s : State) (k : Nat) (f : Port → Port) : (s.modPort k f).records = s.records := rfl
@[simp] theorem modPort_dm (s : State) (k : Nat) (f : Port → Port) : (s.modPort k f).dm = s.dm := rfl
@[simp] theorem modPort_ds (s : State) (k : Nat) (f : Port → Port) : (s.modPort k f).ds = s.ds := rfl
@[simp] theorem modPort_hm (s : State) (k : Nat) (f : Port → Port) : (s.modPort k f).hm = s.hm := rfl
@[simp] theorem modPort_tags (s : State) (k : Nat) (f : Port → Port) : (s.modPort k f).tags = s.tags := rfl
@[simp] theorem modPort_poisoned (s : State) (k : Nat) (f : Port → Port) : (s.modPort k f).poisoned = s.poisoned := rfl
@[simp] theorem modPort_lineKey (s : State) (k : Nat) (f : Port → Port) : (s.modPort k f).lineKey = s.lineKey := rfl
@[simp] theorem modPort_keyGen (s : State) (k : Nat) (f : Port → Port) : (s.modPort k f).keyGen = s.keyGen := rfl
@[simp] theorem modPort_issued (s : State) (k : Nat) (f : Port → Port) : (s.modPort k f).issued = s.issued := rfl
@[simp] theorem modPort_rdup (s : State) (k : Nat) (f : Port → Port) : (s.modPort k f).rdup = s.rdup := rfl
@[simp] theorem modPort_macOn (s : State) (k : Nat) (f : Port → Port) : (s.modPort k f).macOn = s.macOn := rfl
@[simp] theorem modPort_parityOn (s : State) (k : Nat) (f : Port → Port) : (s.modPort k f).parityOn = s.parityOn := rfl
@[simp] theorem modPort_otAddr (s : State) (k : Nat) (f : Port → Port) : (s.modPort k f).otAddr = s.otAddr := rfl
@[simp] theorem modPort_isl (s : State) (k : Nat) (f : Port → Port) : (s.modPort k f).isl = s.isl := rfl
@[simp] theorem modPort_ports (s : State) (k : Nat) (f : Port → Port) : (s.modPort k f).ports = Tab.set s.ports k (f (s.port k)) := rfl
@[simp] theorem modPort_sessions (s : State) (k : Nat) (f : Port → Port) : (s.modPort k f).sessions = s.sessions := rfl
@[simp] theorem modPort_ackOut (s : State) (k : Nat) (f : Port → Port) : (s.modPort k f).ackOut = s.ackOut := rfl
@[simp] theorem modPort_collOut (s : State) (k : Nat) (f : Port → Port) : (s.modPort k f).collOut = s.collOut := rfl
@[simp] theorem modPort_collEarly (s : State) (k : Nat) (f : Port → Port) : (s.modPort k f).collEarly = s.collEarly := rfl
@[simp] theorem modPort_elig (s : State) (k : Nat) (f : Port → Port) : (s.modPort k f).elig = s.elig := rfl
@[simp] theorem modPort_pkgNo (s : State) (k : Nat) (f : Port → Port) : (s.modPort k f).pkgNo = s.pkgNo := rfl
@[simp] theorem modPort_spdm (s : State) (k : Nat) (f : Port → Port) : (s.modPort k f).spdm = s.spdm := rfl
@[simp] theorem modPort_puf (s : State) (k : Nat) (f : Port → Port) : (s.modPort k f).puf = s.puf := rfl
@[simp] theorem modPort_recovery (s : State) (k : Nat) (f : Port → Port) : (s.modPort k f).recovery = s.recovery := rfl
@[simp] theorem modPort_powered (s : State) (k : Nat) (f : Port → Port) : (s.modPort k f).powered = s.powered := rfl
@[simp] theorem modPort_life (s : State) (k : Nat) (f : Port → Port) : (s.modPort k f).life = s.life := rfl
@[simp] theorem modPort_invals (s : State) (k : Nat) (f : Port → Port) : (s.modPort k f).invals = s.invals := rfl
@[simp] theorem modPort_invalDone (s : State) (k : Nat) (f : Port → Port) : (s.modPort k f).invalDone = s.invalDone := rfl
@[simp] theorem modPort_turns (s : State) (k : Nat) (f : Port → Port) : (s.modPort k f).turns = s.turns := rfl
@[simp] theorem modPort_images (s : State) (k : Nat) (f : Port → Port) : (s.modPort k f).images = s.images := rfl
@[simp] theorem modPort_roms (s : State) (k : Nat) (f : Port → Port) : (s.modPort k f).roms = s.roms := rfl
@[simp] theorem modPort_parkQ (s : State) (k : Nat) (f : Port → Port) : (s.modPort k f).parkQ = s.parkQ := rfl
@[simp] theorem modPort_chanEvs (s : State) (k : Nat) (f : Port → Port) : (s.modPort k f).chanEvs = s.chanEvs := rfl
@[simp] theorem modPort_parity (s : State) (k : Nat) (f : Port → Port) : (s.modPort k f).parity = s.parity := rfl
@[simp] theorem modPort_shadow (s : State) (k : Nat) (f : Port → Port) : (s.modPort k f).shadow = s.shadow := rfl
@[simp] theorem modPort_hmClock (s : State) (k : Nat) (f : Port → Port) : (s.modPort k f).hmClock = s.hmClock := rfl
@[simp] theorem modPort_hostClock (s : State) (k : Nat) (f : Port → Port) : (s.modPort k f).hostClock = s.hostClock := rfl
@[simp] theorem modPort_pmDone (s : State) (k : Nat) (f : Port → Port) : (s.modPort k f).pmDone = s.pmDone := rfl
@[simp] theorem modPort_parityTags (s : State) (k : Nat) (f : Port → Port) : (s.modPort k f).parityTags = s.parityTags := rfl
@[simp] theorem modPort_lineClock (s : State) (k : Nat) (f : Port → Port) : (s.modPort k f).lineClock = s.lineClock := rfl
@[simp] theorem modPort_temps (s : State) (k : Nat) (f : Port → Port) : (s.modPort k f).temps = s.temps := rfl

/-! ### modReq -/

@[simp] theorem modReq_pane (s : State) (r : Nat) (f : Req → Req) : (s.modReq r f).pane = s.pane := rfl
@[simp] theorem modReq_panes (s : State) (r : Nat) (f : Req → Req) : (s.modReq r f).panes = s.panes := rfl
@[simp] theorem modReq_issue (s : State) (r : Nat) (f : Req → Req) : (s.modReq r f).issue = s.issue := rfl
@[simp] theorem modReq_word (s : State) (r : Nat) (f : Req → Req) : (s.modReq r f).word = s.word := rfl
@[simp] theorem modReq_sill (s : State) (r : Nat) (f : Req → Req) : (s.modReq r f).sill = s.sill := rfl
@[simp] theorem modReq_after (s : State) (r : Nat) (f : Req → Req) : (s.modReq r f).after = s.after := rfl
@[simp] theorem modReq_agenda (s : State) (r : Nat) (f : Req → Req) : (s.modReq r f).agenda = s.agenda := rfl
@[simp] theorem modReq_cycle (s : State) (r : Nat) (f : Req → Req) : (s.modReq r f).cycle = s.cycle := rfl
@[simp] theorem modReq_cursor (s : State) (r : Nat) (f : Req → Req) : (s.modReq r f).cursor = s.cursor := rfl
@[simp] theorem modReq_time (s : State) (r : Nat) (f : Req → Req) : (s.modReq r f).time = s.time := rfl
@[simp] theorem modReq_freeCount (s : State) (r : Nat) (f : Req → Req) : (s.modReq r f).freeCount = s.freeCount := rfl
@[simp] theorem modReq_nextRid (s : State) (r : Nat) (f : Req → Req) : (s.modReq r f).nextRid = s.nextRid := rfl
@[simp] theorem modReq_nextPid (s : State) (r : Nat) (f : Req → Req) : (s.modReq r f).nextPid = s.nextPid := rfl
@[simp] theorem modReq_nextGrid (s : State) (r : Nat) (f : Req → Req) : (s.modReq r f).nextGrid = s.nextGrid := rfl
@[simp] theorem modReq_nextSeq (s : State) (r : Nat) (f : Req → Req) : (s.modReq r f).nextSeq = s.nextSeq := rfl
@[simp] theorem modReq_teams (s : State) (r : Nat) (f : Req → Req) : (s.modReq r f).teams = s.teams := rfl
@[simp] theorem modReq_cores (s : State) (r : Nat) (f : Req → Req) : (s.modReq r f).cores = s.cores := rfl
@[simp] theorem modReq_dies (s : State) (r : Nat) (f : Req → Req) : (s.modReq r f).dies = s.dies := rfl
@[simp] theorem modReq_bases (s : State) (r : Nat) (f : Req → Req) : (s.modReq r f).bases = s.bases := rfl
@[simp] theorem modReq_parts (s : State) (r : Nat) (f : Req → Req) : (s.modReq r f).parts = s.parts := rfl
@[simp] theorem modReq_reqs (s : State) (r : Nat) (f : Req → Req) : (s.modReq r f).reqs = Tab.mod s.reqs r f := rfl
@[simp] theorem modReq_cmds (s : State) (r : Nat) (f : Req → Req) : (s.modReq r f).cmds = s.cmds := rfl
@[simp] theorem modReq_colls (s : State) (r : Nat) (f : Req → Req) : (s.modReq r f).colls = s.colls := rfl
@[simp] theorem modReq_chanQ (s : State) (r : Nat) (f : Req → Req) : (s.modReq r f).chanQ = s.chanQ := rfl
@[simp] theorem modReq_ref (s : State) (r : Nat) (f : Req → Req) : (s.modReq r f).ref = s.ref := rfl
@[simp] theorem modReq_grids (s : State) (r : Nat) (f : Req → Req) : (s.modReq r f).grids = s.grids := rfl
@[simp] theorem modReq_accepted (s : State) (r : Nat) (f : Req → Req) : (s.modReq r f).accepted = s.accepted := rfl
@[simp] theorem modReq_children (s : State) (r : Nat) (f : Req → Req) : (s.modReq r f).children = s.children := rfl
@[simp] theorem modReq_queues (s : State) (r : Nat) (f : Req → Req) : (s.modReq r f).queues = s.queues := rfl
@[simp] theorem modReq_rrQueue (s : State) (r : Nat) (f : Req → Req) : (s.modReq r f).rrQueue = s.rrQueue := rfl
@[simp] theorem modReq_ctrs (s : State) (r : Nat) (f : Req → Req) : (s.modReq r f).ctrs = s.ctrs := rfl
@[simp] theorem modReq_buckets (s : State) (r : Nat) (f : Req → Req) : (s.modReq r f).buckets = s.buckets := rfl
@[simp] theorem modReq_lastBand (s : State) (r : Nat) (f : Req → Req) : (s.modReq r f).lastBand = s.lastBand := rfl
@[simp] theorem modReq_pages (s : State) (r : Nat) (f : Req → Req) : (s.modReq r f).pages = s.pages := rfl
@[simp] theorem modReq_answered (s : State) (r : Nat) (f : Req → Req) : (s.modReq r f).answered = s.answered := rfl
@[simp] theorem modReq_rings (s : State) (r : Nat) (f : Req → Req) : (s.modReq r f).rings = s.rings := rfl
@[simp] theorem modReq_seqs (s : State) (r : Nat) (f : Req → Req) : (s.modReq r f).seqs = s.seqs := rfl
@[simp] theorem modReq_msix (s : State) (r : Nat) (f : Req → Req) : (s.modReq r f).msix = s.msix := rfl
@[simp] theorem modReq_records (s : State) (r : Nat) (f : Req → Req) : (s.modReq r f).records = s.records := rfl
@[simp] theorem modReq_dm (s : State) (r : Nat) (f : Req → Req) : (s.modReq r f).dm = s.dm := rfl
@[simp] theorem modReq_ds (s : State) (r : Nat) (f : Req → Req) : (s.modReq r f).ds = s.ds := rfl
@[simp] theorem modReq_hm (s : State) (r : Nat) (f : Req → Req) : (s.modReq r f).hm = s.hm := rfl
@[simp] theorem modReq_tags (s : State) (r : Nat) (f : Req → Req) : (s.modReq r f).tags = s.tags := rfl
@[simp] theorem modReq_poisoned (s : State) (r : Nat) (f : Req → Req) : (s.modReq r f).poisoned = s.poisoned := rfl
@[simp] theorem modReq_lineKey (s : State) (r : Nat) (f : Req → Req) : (s.modReq r f).lineKey = s.lineKey := rfl
@[simp] theorem modReq_keyGen (s : State) (r : Nat) (f : Req → Req) : (s.modReq r f).keyGen = s.keyGen := rfl
@[simp] theorem modReq_issued (s : State) (r : Nat) (f : Req → Req) : (s.modReq r f).issued = s.issued := rfl
@[simp] theorem modReq_rdup (s : State) (r : Nat) (f : Req → Req) : (s.modReq r f).rdup = s.rdup := rfl
@[simp] theorem modReq_macOn (s : State) (r : Nat) (f : Req → Req) : (s.modReq r f).macOn = s.macOn := rfl
@[simp] theorem modReq_parityOn (s : State) (r : Nat) (f : Req → Req) : (s.modReq r f).parityOn = s.parityOn := rfl
@[simp] theorem modReq_otAddr (s : State) (r : Nat) (f : Req → Req) : (s.modReq r f).otAddr = s.otAddr := rfl
@[simp] theorem modReq_isl (s : State) (r : Nat) (f : Req → Req) : (s.modReq r f).isl = s.isl := rfl
@[simp] theorem modReq_ports (s : State) (r : Nat) (f : Req → Req) : (s.modReq r f).ports = s.ports := rfl
@[simp] theorem modReq_sessions (s : State) (r : Nat) (f : Req → Req) : (s.modReq r f).sessions = s.sessions := rfl
@[simp] theorem modReq_ackOut (s : State) (r : Nat) (f : Req → Req) : (s.modReq r f).ackOut = s.ackOut := rfl
@[simp] theorem modReq_collOut (s : State) (r : Nat) (f : Req → Req) : (s.modReq r f).collOut = s.collOut := rfl
@[simp] theorem modReq_collEarly (s : State) (r : Nat) (f : Req → Req) : (s.modReq r f).collEarly = s.collEarly := rfl
@[simp] theorem modReq_elig (s : State) (r : Nat) (f : Req → Req) : (s.modReq r f).elig = s.elig := rfl
@[simp] theorem modReq_pkgNo (s : State) (r : Nat) (f : Req → Req) : (s.modReq r f).pkgNo = s.pkgNo := rfl
@[simp] theorem modReq_spdm (s : State) (r : Nat) (f : Req → Req) : (s.modReq r f).spdm = s.spdm := rfl
@[simp] theorem modReq_puf (s : State) (r : Nat) (f : Req → Req) : (s.modReq r f).puf = s.puf := rfl
@[simp] theorem modReq_recovery (s : State) (r : Nat) (f : Req → Req) : (s.modReq r f).recovery = s.recovery := rfl
@[simp] theorem modReq_powered (s : State) (r : Nat) (f : Req → Req) : (s.modReq r f).powered = s.powered := rfl
@[simp] theorem modReq_life (s : State) (r : Nat) (f : Req → Req) : (s.modReq r f).life = s.life := rfl
@[simp] theorem modReq_invals (s : State) (r : Nat) (f : Req → Req) : (s.modReq r f).invals = s.invals := rfl
@[simp] theorem modReq_invalDone (s : State) (r : Nat) (f : Req → Req) : (s.modReq r f).invalDone = s.invalDone := rfl
@[simp] theorem modReq_turns (s : State) (r : Nat) (f : Req → Req) : (s.modReq r f).turns = s.turns := rfl
@[simp] theorem modReq_images (s : State) (r : Nat) (f : Req → Req) : (s.modReq r f).images = s.images := rfl
@[simp] theorem modReq_roms (s : State) (r : Nat) (f : Req → Req) : (s.modReq r f).roms = s.roms := rfl
@[simp] theorem modReq_parkQ (s : State) (r : Nat) (f : Req → Req) : (s.modReq r f).parkQ = s.parkQ := rfl
@[simp] theorem modReq_chanEvs (s : State) (r : Nat) (f : Req → Req) : (s.modReq r f).chanEvs = s.chanEvs := rfl
@[simp] theorem modReq_parity (s : State) (r : Nat) (f : Req → Req) : (s.modReq r f).parity = s.parity := rfl
@[simp] theorem modReq_shadow (s : State) (r : Nat) (f : Req → Req) : (s.modReq r f).shadow = s.shadow := rfl
@[simp] theorem modReq_hmClock (s : State) (r : Nat) (f : Req → Req) : (s.modReq r f).hmClock = s.hmClock := rfl
@[simp] theorem modReq_hostClock (s : State) (r : Nat) (f : Req → Req) : (s.modReq r f).hostClock = s.hostClock := rfl
@[simp] theorem modReq_pmDone (s : State) (r : Nat) (f : Req → Req) : (s.modReq r f).pmDone = s.pmDone := rfl
@[simp] theorem modReq_parityTags (s : State) (r : Nat) (f : Req → Req) : (s.modReq r f).parityTags = s.parityTags := rfl
@[simp] theorem modReq_lineClock (s : State) (r : Nat) (f : Req → Req) : (s.modReq r f).lineClock = s.lineClock := rfl
@[simp] theorem modReq_temps (s : State) (r : Nat) (f : Req → Req) : (s.modReq r f).temps = s.temps := rfl

/-! ### modCmd -/

@[simp] theorem modCmd_pane (s : State) (k : Nat) (f : Cmd → Cmd) : (s.modCmd k f).pane = s.pane := rfl
@[simp] theorem modCmd_panes (s : State) (k : Nat) (f : Cmd → Cmd) : (s.modCmd k f).panes = s.panes := rfl
@[simp] theorem modCmd_issue (s : State) (k : Nat) (f : Cmd → Cmd) : (s.modCmd k f).issue = s.issue := rfl
@[simp] theorem modCmd_word (s : State) (k : Nat) (f : Cmd → Cmd) : (s.modCmd k f).word = s.word := rfl
@[simp] theorem modCmd_sill (s : State) (k : Nat) (f : Cmd → Cmd) : (s.modCmd k f).sill = s.sill := rfl
@[simp] theorem modCmd_after (s : State) (k : Nat) (f : Cmd → Cmd) : (s.modCmd k f).after = s.after := rfl
@[simp] theorem modCmd_agenda (s : State) (k : Nat) (f : Cmd → Cmd) : (s.modCmd k f).agenda = s.agenda := rfl
@[simp] theorem modCmd_cycle (s : State) (k : Nat) (f : Cmd → Cmd) : (s.modCmd k f).cycle = s.cycle := rfl
@[simp] theorem modCmd_cursor (s : State) (k : Nat) (f : Cmd → Cmd) : (s.modCmd k f).cursor = s.cursor := rfl
@[simp] theorem modCmd_time (s : State) (k : Nat) (f : Cmd → Cmd) : (s.modCmd k f).time = s.time := rfl
@[simp] theorem modCmd_freeCount (s : State) (k : Nat) (f : Cmd → Cmd) : (s.modCmd k f).freeCount = s.freeCount := rfl
@[simp] theorem modCmd_nextRid (s : State) (k : Nat) (f : Cmd → Cmd) : (s.modCmd k f).nextRid = s.nextRid := rfl
@[simp] theorem modCmd_nextPid (s : State) (k : Nat) (f : Cmd → Cmd) : (s.modCmd k f).nextPid = s.nextPid := rfl
@[simp] theorem modCmd_nextGrid (s : State) (k : Nat) (f : Cmd → Cmd) : (s.modCmd k f).nextGrid = s.nextGrid := rfl
@[simp] theorem modCmd_nextSeq (s : State) (k : Nat) (f : Cmd → Cmd) : (s.modCmd k f).nextSeq = s.nextSeq := rfl
@[simp] theorem modCmd_teams (s : State) (k : Nat) (f : Cmd → Cmd) : (s.modCmd k f).teams = s.teams := rfl
@[simp] theorem modCmd_cores (s : State) (k : Nat) (f : Cmd → Cmd) : (s.modCmd k f).cores = s.cores := rfl
@[simp] theorem modCmd_dies (s : State) (k : Nat) (f : Cmd → Cmd) : (s.modCmd k f).dies = s.dies := rfl
@[simp] theorem modCmd_bases (s : State) (k : Nat) (f : Cmd → Cmd) : (s.modCmd k f).bases = s.bases := rfl
@[simp] theorem modCmd_parts (s : State) (k : Nat) (f : Cmd → Cmd) : (s.modCmd k f).parts = s.parts := rfl
@[simp] theorem modCmd_reqs (s : State) (k : Nat) (f : Cmd → Cmd) : (s.modCmd k f).reqs = s.reqs := rfl
@[simp] theorem modCmd_cmds (s : State) (k : Nat) (f : Cmd → Cmd) : (s.modCmd k f).cmds = Tab.mod s.cmds k f := rfl
@[simp] theorem modCmd_colls (s : State) (k : Nat) (f : Cmd → Cmd) : (s.modCmd k f).colls = s.colls := rfl
@[simp] theorem modCmd_chanQ (s : State) (k : Nat) (f : Cmd → Cmd) : (s.modCmd k f).chanQ = s.chanQ := rfl
@[simp] theorem modCmd_ref (s : State) (k : Nat) (f : Cmd → Cmd) : (s.modCmd k f).ref = s.ref := rfl
@[simp] theorem modCmd_grids (s : State) (k : Nat) (f : Cmd → Cmd) : (s.modCmd k f).grids = s.grids := rfl
@[simp] theorem modCmd_accepted (s : State) (k : Nat) (f : Cmd → Cmd) : (s.modCmd k f).accepted = s.accepted := rfl
@[simp] theorem modCmd_children (s : State) (k : Nat) (f : Cmd → Cmd) : (s.modCmd k f).children = s.children := rfl
@[simp] theorem modCmd_queues (s : State) (k : Nat) (f : Cmd → Cmd) : (s.modCmd k f).queues = s.queues := rfl
@[simp] theorem modCmd_rrQueue (s : State) (k : Nat) (f : Cmd → Cmd) : (s.modCmd k f).rrQueue = s.rrQueue := rfl
@[simp] theorem modCmd_ctrs (s : State) (k : Nat) (f : Cmd → Cmd) : (s.modCmd k f).ctrs = s.ctrs := rfl
@[simp] theorem modCmd_buckets (s : State) (k : Nat) (f : Cmd → Cmd) : (s.modCmd k f).buckets = s.buckets := rfl
@[simp] theorem modCmd_lastBand (s : State) (k : Nat) (f : Cmd → Cmd) : (s.modCmd k f).lastBand = s.lastBand := rfl
@[simp] theorem modCmd_pages (s : State) (k : Nat) (f : Cmd → Cmd) : (s.modCmd k f).pages = s.pages := rfl
@[simp] theorem modCmd_answered (s : State) (k : Nat) (f : Cmd → Cmd) : (s.modCmd k f).answered = s.answered := rfl
@[simp] theorem modCmd_rings (s : State) (k : Nat) (f : Cmd → Cmd) : (s.modCmd k f).rings = s.rings := rfl
@[simp] theorem modCmd_seqs (s : State) (k : Nat) (f : Cmd → Cmd) : (s.modCmd k f).seqs = s.seqs := rfl
@[simp] theorem modCmd_msix (s : State) (k : Nat) (f : Cmd → Cmd) : (s.modCmd k f).msix = s.msix := rfl
@[simp] theorem modCmd_records (s : State) (k : Nat) (f : Cmd → Cmd) : (s.modCmd k f).records = s.records := rfl
@[simp] theorem modCmd_dm (s : State) (k : Nat) (f : Cmd → Cmd) : (s.modCmd k f).dm = s.dm := rfl
@[simp] theorem modCmd_ds (s : State) (k : Nat) (f : Cmd → Cmd) : (s.modCmd k f).ds = s.ds := rfl
@[simp] theorem modCmd_hm (s : State) (k : Nat) (f : Cmd → Cmd) : (s.modCmd k f).hm = s.hm := rfl
@[simp] theorem modCmd_tags (s : State) (k : Nat) (f : Cmd → Cmd) : (s.modCmd k f).tags = s.tags := rfl
@[simp] theorem modCmd_poisoned (s : State) (k : Nat) (f : Cmd → Cmd) : (s.modCmd k f).poisoned = s.poisoned := rfl
@[simp] theorem modCmd_lineKey (s : State) (k : Nat) (f : Cmd → Cmd) : (s.modCmd k f).lineKey = s.lineKey := rfl
@[simp] theorem modCmd_keyGen (s : State) (k : Nat) (f : Cmd → Cmd) : (s.modCmd k f).keyGen = s.keyGen := rfl
@[simp] theorem modCmd_issued (s : State) (k : Nat) (f : Cmd → Cmd) : (s.modCmd k f).issued = s.issued := rfl
@[simp] theorem modCmd_rdup (s : State) (k : Nat) (f : Cmd → Cmd) : (s.modCmd k f).rdup = s.rdup := rfl
@[simp] theorem modCmd_macOn (s : State) (k : Nat) (f : Cmd → Cmd) : (s.modCmd k f).macOn = s.macOn := rfl
@[simp] theorem modCmd_parityOn (s : State) (k : Nat) (f : Cmd → Cmd) : (s.modCmd k f).parityOn = s.parityOn := rfl
@[simp] theorem modCmd_otAddr (s : State) (k : Nat) (f : Cmd → Cmd) : (s.modCmd k f).otAddr = s.otAddr := rfl
@[simp] theorem modCmd_isl (s : State) (k : Nat) (f : Cmd → Cmd) : (s.modCmd k f).isl = s.isl := rfl
@[simp] theorem modCmd_ports (s : State) (k : Nat) (f : Cmd → Cmd) : (s.modCmd k f).ports = s.ports := rfl
@[simp] theorem modCmd_sessions (s : State) (k : Nat) (f : Cmd → Cmd) : (s.modCmd k f).sessions = s.sessions := rfl
@[simp] theorem modCmd_ackOut (s : State) (k : Nat) (f : Cmd → Cmd) : (s.modCmd k f).ackOut = s.ackOut := rfl
@[simp] theorem modCmd_collOut (s : State) (k : Nat) (f : Cmd → Cmd) : (s.modCmd k f).collOut = s.collOut := rfl
@[simp] theorem modCmd_collEarly (s : State) (k : Nat) (f : Cmd → Cmd) : (s.modCmd k f).collEarly = s.collEarly := rfl
@[simp] theorem modCmd_elig (s : State) (k : Nat) (f : Cmd → Cmd) : (s.modCmd k f).elig = s.elig := rfl
@[simp] theorem modCmd_pkgNo (s : State) (k : Nat) (f : Cmd → Cmd) : (s.modCmd k f).pkgNo = s.pkgNo := rfl
@[simp] theorem modCmd_spdm (s : State) (k : Nat) (f : Cmd → Cmd) : (s.modCmd k f).spdm = s.spdm := rfl
@[simp] theorem modCmd_puf (s : State) (k : Nat) (f : Cmd → Cmd) : (s.modCmd k f).puf = s.puf := rfl
@[simp] theorem modCmd_recovery (s : State) (k : Nat) (f : Cmd → Cmd) : (s.modCmd k f).recovery = s.recovery := rfl
@[simp] theorem modCmd_powered (s : State) (k : Nat) (f : Cmd → Cmd) : (s.modCmd k f).powered = s.powered := rfl
@[simp] theorem modCmd_life (s : State) (k : Nat) (f : Cmd → Cmd) : (s.modCmd k f).life = s.life := rfl
@[simp] theorem modCmd_invals (s : State) (k : Nat) (f : Cmd → Cmd) : (s.modCmd k f).invals = s.invals := rfl
@[simp] theorem modCmd_invalDone (s : State) (k : Nat) (f : Cmd → Cmd) : (s.modCmd k f).invalDone = s.invalDone := rfl
@[simp] theorem modCmd_turns (s : State) (k : Nat) (f : Cmd → Cmd) : (s.modCmd k f).turns = s.turns := rfl
@[simp] theorem modCmd_images (s : State) (k : Nat) (f : Cmd → Cmd) : (s.modCmd k f).images = s.images := rfl
@[simp] theorem modCmd_roms (s : State) (k : Nat) (f : Cmd → Cmd) : (s.modCmd k f).roms = s.roms := rfl
@[simp] theorem modCmd_parkQ (s : State) (k : Nat) (f : Cmd → Cmd) : (s.modCmd k f).parkQ = s.parkQ := rfl
@[simp] theorem modCmd_chanEvs (s : State) (k : Nat) (f : Cmd → Cmd) : (s.modCmd k f).chanEvs = s.chanEvs := rfl
@[simp] theorem modCmd_parity (s : State) (k : Nat) (f : Cmd → Cmd) : (s.modCmd k f).parity = s.parity := rfl
@[simp] theorem modCmd_shadow (s : State) (k : Nat) (f : Cmd → Cmd) : (s.modCmd k f).shadow = s.shadow := rfl
@[simp] theorem modCmd_hmClock (s : State) (k : Nat) (f : Cmd → Cmd) : (s.modCmd k f).hmClock = s.hmClock := rfl
@[simp] theorem modCmd_hostClock (s : State) (k : Nat) (f : Cmd → Cmd) : (s.modCmd k f).hostClock = s.hostClock := rfl
@[simp] theorem modCmd_pmDone (s : State) (k : Nat) (f : Cmd → Cmd) : (s.modCmd k f).pmDone = s.pmDone := rfl
@[simp] theorem modCmd_parityTags (s : State) (k : Nat) (f : Cmd → Cmd) : (s.modCmd k f).parityTags = s.parityTags := rfl
@[simp] theorem modCmd_lineClock (s : State) (k : Nat) (f : Cmd → Cmd) : (s.modCmd k f).lineClock = s.lineClock := rfl
@[simp] theorem modCmd_temps (s : State) (k : Nat) (f : Cmd → Cmd) : (s.modCmd k f).temps = s.temps := rfl

/-! ### modGrid -/

@[simp] theorem modGrid_pane (s : State) (g : Nat) (f : Grid → Grid) : (s.modGrid g f).pane = s.pane := rfl
@[simp] theorem modGrid_panes (s : State) (g : Nat) (f : Grid → Grid) : (s.modGrid g f).panes = s.panes := rfl
@[simp] theorem modGrid_issue (s : State) (g : Nat) (f : Grid → Grid) : (s.modGrid g f).issue = s.issue := rfl
@[simp] theorem modGrid_word (s : State) (g : Nat) (f : Grid → Grid) : (s.modGrid g f).word = s.word := rfl
@[simp] theorem modGrid_sill (s : State) (g : Nat) (f : Grid → Grid) : (s.modGrid g f).sill = s.sill := rfl
@[simp] theorem modGrid_after (s : State) (g : Nat) (f : Grid → Grid) : (s.modGrid g f).after = s.after := rfl
@[simp] theorem modGrid_agenda (s : State) (g : Nat) (f : Grid → Grid) : (s.modGrid g f).agenda = s.agenda := rfl
@[simp] theorem modGrid_cycle (s : State) (g : Nat) (f : Grid → Grid) : (s.modGrid g f).cycle = s.cycle := rfl
@[simp] theorem modGrid_cursor (s : State) (g : Nat) (f : Grid → Grid) : (s.modGrid g f).cursor = s.cursor := rfl
@[simp] theorem modGrid_time (s : State) (g : Nat) (f : Grid → Grid) : (s.modGrid g f).time = s.time := rfl
@[simp] theorem modGrid_freeCount (s : State) (g : Nat) (f : Grid → Grid) : (s.modGrid g f).freeCount = s.freeCount := rfl
@[simp] theorem modGrid_nextRid (s : State) (g : Nat) (f : Grid → Grid) : (s.modGrid g f).nextRid = s.nextRid := rfl
@[simp] theorem modGrid_nextPid (s : State) (g : Nat) (f : Grid → Grid) : (s.modGrid g f).nextPid = s.nextPid := rfl
@[simp] theorem modGrid_nextGrid (s : State) (g : Nat) (f : Grid → Grid) : (s.modGrid g f).nextGrid = s.nextGrid := rfl
@[simp] theorem modGrid_nextSeq (s : State) (g : Nat) (f : Grid → Grid) : (s.modGrid g f).nextSeq = s.nextSeq := rfl
@[simp] theorem modGrid_teams (s : State) (g : Nat) (f : Grid → Grid) : (s.modGrid g f).teams = s.teams := rfl
@[simp] theorem modGrid_cores (s : State) (g : Nat) (f : Grid → Grid) : (s.modGrid g f).cores = s.cores := rfl
@[simp] theorem modGrid_dies (s : State) (g : Nat) (f : Grid → Grid) : (s.modGrid g f).dies = s.dies := rfl
@[simp] theorem modGrid_bases (s : State) (g : Nat) (f : Grid → Grid) : (s.modGrid g f).bases = s.bases := rfl
@[simp] theorem modGrid_parts (s : State) (g : Nat) (f : Grid → Grid) : (s.modGrid g f).parts = s.parts := rfl
@[simp] theorem modGrid_reqs (s : State) (g : Nat) (f : Grid → Grid) : (s.modGrid g f).reqs = s.reqs := rfl
@[simp] theorem modGrid_cmds (s : State) (g : Nat) (f : Grid → Grid) : (s.modGrid g f).cmds = s.cmds := rfl
@[simp] theorem modGrid_colls (s : State) (g : Nat) (f : Grid → Grid) : (s.modGrid g f).colls = s.colls := rfl
@[simp] theorem modGrid_chanQ (s : State) (g : Nat) (f : Grid → Grid) : (s.modGrid g f).chanQ = s.chanQ := rfl
@[simp] theorem modGrid_ref (s : State) (g : Nat) (f : Grid → Grid) : (s.modGrid g f).ref = s.ref := rfl
@[simp] theorem modGrid_grids (s : State) (g : Nat) (f : Grid → Grid) : (s.modGrid g f).grids = Tab.mod s.grids g f := rfl
@[simp] theorem modGrid_accepted (s : State) (g : Nat) (f : Grid → Grid) : (s.modGrid g f).accepted = s.accepted := rfl
@[simp] theorem modGrid_children (s : State) (g : Nat) (f : Grid → Grid) : (s.modGrid g f).children = s.children := rfl
@[simp] theorem modGrid_queues (s : State) (g : Nat) (f : Grid → Grid) : (s.modGrid g f).queues = s.queues := rfl
@[simp] theorem modGrid_rrQueue (s : State) (g : Nat) (f : Grid → Grid) : (s.modGrid g f).rrQueue = s.rrQueue := rfl
@[simp] theorem modGrid_ctrs (s : State) (g : Nat) (f : Grid → Grid) : (s.modGrid g f).ctrs = s.ctrs := rfl
@[simp] theorem modGrid_buckets (s : State) (g : Nat) (f : Grid → Grid) : (s.modGrid g f).buckets = s.buckets := rfl
@[simp] theorem modGrid_lastBand (s : State) (g : Nat) (f : Grid → Grid) : (s.modGrid g f).lastBand = s.lastBand := rfl
@[simp] theorem modGrid_pages (s : State) (g : Nat) (f : Grid → Grid) : (s.modGrid g f).pages = s.pages := rfl
@[simp] theorem modGrid_answered (s : State) (g : Nat) (f : Grid → Grid) : (s.modGrid g f).answered = s.answered := rfl
@[simp] theorem modGrid_rings (s : State) (g : Nat) (f : Grid → Grid) : (s.modGrid g f).rings = s.rings := rfl
@[simp] theorem modGrid_seqs (s : State) (g : Nat) (f : Grid → Grid) : (s.modGrid g f).seqs = s.seqs := rfl
@[simp] theorem modGrid_msix (s : State) (g : Nat) (f : Grid → Grid) : (s.modGrid g f).msix = s.msix := rfl
@[simp] theorem modGrid_records (s : State) (g : Nat) (f : Grid → Grid) : (s.modGrid g f).records = s.records := rfl
@[simp] theorem modGrid_dm (s : State) (g : Nat) (f : Grid → Grid) : (s.modGrid g f).dm = s.dm := rfl
@[simp] theorem modGrid_ds (s : State) (g : Nat) (f : Grid → Grid) : (s.modGrid g f).ds = s.ds := rfl
@[simp] theorem modGrid_hm (s : State) (g : Nat) (f : Grid → Grid) : (s.modGrid g f).hm = s.hm := rfl
@[simp] theorem modGrid_tags (s : State) (g : Nat) (f : Grid → Grid) : (s.modGrid g f).tags = s.tags := rfl
@[simp] theorem modGrid_poisoned (s : State) (g : Nat) (f : Grid → Grid) : (s.modGrid g f).poisoned = s.poisoned := rfl
@[simp] theorem modGrid_lineKey (s : State) (g : Nat) (f : Grid → Grid) : (s.modGrid g f).lineKey = s.lineKey := rfl
@[simp] theorem modGrid_keyGen (s : State) (g : Nat) (f : Grid → Grid) : (s.modGrid g f).keyGen = s.keyGen := rfl
@[simp] theorem modGrid_issued (s : State) (g : Nat) (f : Grid → Grid) : (s.modGrid g f).issued = s.issued := rfl
@[simp] theorem modGrid_rdup (s : State) (g : Nat) (f : Grid → Grid) : (s.modGrid g f).rdup = s.rdup := rfl
@[simp] theorem modGrid_macOn (s : State) (g : Nat) (f : Grid → Grid) : (s.modGrid g f).macOn = s.macOn := rfl
@[simp] theorem modGrid_parityOn (s : State) (g : Nat) (f : Grid → Grid) : (s.modGrid g f).parityOn = s.parityOn := rfl
@[simp] theorem modGrid_otAddr (s : State) (g : Nat) (f : Grid → Grid) : (s.modGrid g f).otAddr = s.otAddr := rfl
@[simp] theorem modGrid_isl (s : State) (g : Nat) (f : Grid → Grid) : (s.modGrid g f).isl = s.isl := rfl
@[simp] theorem modGrid_ports (s : State) (g : Nat) (f : Grid → Grid) : (s.modGrid g f).ports = s.ports := rfl
@[simp] theorem modGrid_sessions (s : State) (g : Nat) (f : Grid → Grid) : (s.modGrid g f).sessions = s.sessions := rfl
@[simp] theorem modGrid_ackOut (s : State) (g : Nat) (f : Grid → Grid) : (s.modGrid g f).ackOut = s.ackOut := rfl
@[simp] theorem modGrid_collOut (s : State) (g : Nat) (f : Grid → Grid) : (s.modGrid g f).collOut = s.collOut := rfl
@[simp] theorem modGrid_collEarly (s : State) (g : Nat) (f : Grid → Grid) : (s.modGrid g f).collEarly = s.collEarly := rfl
@[simp] theorem modGrid_elig (s : State) (g : Nat) (f : Grid → Grid) : (s.modGrid g f).elig = s.elig := rfl
@[simp] theorem modGrid_pkgNo (s : State) (g : Nat) (f : Grid → Grid) : (s.modGrid g f).pkgNo = s.pkgNo := rfl
@[simp] theorem modGrid_spdm (s : State) (g : Nat) (f : Grid → Grid) : (s.modGrid g f).spdm = s.spdm := rfl
@[simp] theorem modGrid_puf (s : State) (g : Nat) (f : Grid → Grid) : (s.modGrid g f).puf = s.puf := rfl
@[simp] theorem modGrid_recovery (s : State) (g : Nat) (f : Grid → Grid) : (s.modGrid g f).recovery = s.recovery := rfl
@[simp] theorem modGrid_powered (s : State) (g : Nat) (f : Grid → Grid) : (s.modGrid g f).powered = s.powered := rfl
@[simp] theorem modGrid_life (s : State) (g : Nat) (f : Grid → Grid) : (s.modGrid g f).life = s.life := rfl
@[simp] theorem modGrid_invals (s : State) (g : Nat) (f : Grid → Grid) : (s.modGrid g f).invals = s.invals := rfl
@[simp] theorem modGrid_invalDone (s : State) (g : Nat) (f : Grid → Grid) : (s.modGrid g f).invalDone = s.invalDone := rfl
@[simp] theorem modGrid_turns (s : State) (g : Nat) (f : Grid → Grid) : (s.modGrid g f).turns = s.turns := rfl
@[simp] theorem modGrid_images (s : State) (g : Nat) (f : Grid → Grid) : (s.modGrid g f).images = s.images := rfl
@[simp] theorem modGrid_roms (s : State) (g : Nat) (f : Grid → Grid) : (s.modGrid g f).roms = s.roms := rfl
@[simp] theorem modGrid_parkQ (s : State) (g : Nat) (f : Grid → Grid) : (s.modGrid g f).parkQ = s.parkQ := rfl
@[simp] theorem modGrid_chanEvs (s : State) (g : Nat) (f : Grid → Grid) : (s.modGrid g f).chanEvs = s.chanEvs := rfl
@[simp] theorem modGrid_parity (s : State) (g : Nat) (f : Grid → Grid) : (s.modGrid g f).parity = s.parity := rfl
@[simp] theorem modGrid_shadow (s : State) (g : Nat) (f : Grid → Grid) : (s.modGrid g f).shadow = s.shadow := rfl
@[simp] theorem modGrid_hmClock (s : State) (g : Nat) (f : Grid → Grid) : (s.modGrid g f).hmClock = s.hmClock := rfl
@[simp] theorem modGrid_hostClock (s : State) (g : Nat) (f : Grid → Grid) : (s.modGrid g f).hostClock = s.hostClock := rfl
@[simp] theorem modGrid_pmDone (s : State) (g : Nat) (f : Grid → Grid) : (s.modGrid g f).pmDone = s.pmDone := rfl
@[simp] theorem modGrid_parityTags (s : State) (g : Nat) (f : Grid → Grid) : (s.modGrid g f).parityTags = s.parityTags := rfl
@[simp] theorem modGrid_lineClock (s : State) (g : Nat) (f : Grid → Grid) : (s.modGrid g f).lineClock = s.lineClock := rfl
@[simp] theorem modGrid_temps (s : State) (g : Nat) (f : Grid → Grid) : (s.modGrid g f).temps = s.temps := rfl

/-! ### modTeam -/

@[simp] theorem modTeam_pane (s : State) (g t : Nat) (f : Team → Team) : (s.modTeam g t f).pane = s.pane := rfl
@[simp] theorem modTeam_panes (s : State) (g t : Nat) (f : Team → Team) : (s.modTeam g t f).panes = s.panes := rfl
@[simp] theorem modTeam_issue (s : State) (g t : Nat) (f : Team → Team) : (s.modTeam g t f).issue = s.issue := rfl
@[simp] theorem modTeam_word (s : State) (g t : Nat) (f : Team → Team) : (s.modTeam g t f).word = s.word := rfl
@[simp] theorem modTeam_sill (s : State) (g t : Nat) (f : Team → Team) : (s.modTeam g t f).sill = s.sill := rfl
@[simp] theorem modTeam_after (s : State) (g t : Nat) (f : Team → Team) : (s.modTeam g t f).after = s.after := rfl
@[simp] theorem modTeam_agenda (s : State) (g t : Nat) (f : Team → Team) : (s.modTeam g t f).agenda = s.agenda := rfl
@[simp] theorem modTeam_cycle (s : State) (g t : Nat) (f : Team → Team) : (s.modTeam g t f).cycle = s.cycle := rfl
@[simp] theorem modTeam_cursor (s : State) (g t : Nat) (f : Team → Team) : (s.modTeam g t f).cursor = s.cursor := rfl
@[simp] theorem modTeam_time (s : State) (g t : Nat) (f : Team → Team) : (s.modTeam g t f).time = s.time := rfl
@[simp] theorem modTeam_freeCount (s : State) (g t : Nat) (f : Team → Team) : (s.modTeam g t f).freeCount = s.freeCount := rfl
@[simp] theorem modTeam_nextRid (s : State) (g t : Nat) (f : Team → Team) : (s.modTeam g t f).nextRid = s.nextRid := rfl
@[simp] theorem modTeam_nextPid (s : State) (g t : Nat) (f : Team → Team) : (s.modTeam g t f).nextPid = s.nextPid := rfl
@[simp] theorem modTeam_nextGrid (s : State) (g t : Nat) (f : Team → Team) : (s.modTeam g t f).nextGrid = s.nextGrid := rfl
@[simp] theorem modTeam_nextSeq (s : State) (g t : Nat) (f : Team → Team) : (s.modTeam g t f).nextSeq = s.nextSeq := rfl
@[simp] theorem modTeam_teams (s : State) (g t : Nat) (f : Team → Team) : (s.modTeam g t f).teams = Tab.mod s.teams (teamKey g t) f := rfl
@[simp] theorem modTeam_cores (s : State) (g t : Nat) (f : Team → Team) : (s.modTeam g t f).cores = s.cores := rfl
@[simp] theorem modTeam_dies (s : State) (g t : Nat) (f : Team → Team) : (s.modTeam g t f).dies = s.dies := rfl
@[simp] theorem modTeam_bases (s : State) (g t : Nat) (f : Team → Team) : (s.modTeam g t f).bases = s.bases := rfl
@[simp] theorem modTeam_parts (s : State) (g t : Nat) (f : Team → Team) : (s.modTeam g t f).parts = s.parts := rfl
@[simp] theorem modTeam_reqs (s : State) (g t : Nat) (f : Team → Team) : (s.modTeam g t f).reqs = s.reqs := rfl
@[simp] theorem modTeam_cmds (s : State) (g t : Nat) (f : Team → Team) : (s.modTeam g t f).cmds = s.cmds := rfl
@[simp] theorem modTeam_colls (s : State) (g t : Nat) (f : Team → Team) : (s.modTeam g t f).colls = s.colls := rfl
@[simp] theorem modTeam_chanQ (s : State) (g t : Nat) (f : Team → Team) : (s.modTeam g t f).chanQ = s.chanQ := rfl
@[simp] theorem modTeam_ref (s : State) (g t : Nat) (f : Team → Team) : (s.modTeam g t f).ref = s.ref := rfl
@[simp] theorem modTeam_grids (s : State) (g t : Nat) (f : Team → Team) : (s.modTeam g t f).grids = s.grids := rfl
@[simp] theorem modTeam_accepted (s : State) (g t : Nat) (f : Team → Team) : (s.modTeam g t f).accepted = s.accepted := rfl
@[simp] theorem modTeam_children (s : State) (g t : Nat) (f : Team → Team) : (s.modTeam g t f).children = s.children := rfl
@[simp] theorem modTeam_queues (s : State) (g t : Nat) (f : Team → Team) : (s.modTeam g t f).queues = s.queues := rfl
@[simp] theorem modTeam_rrQueue (s : State) (g t : Nat) (f : Team → Team) : (s.modTeam g t f).rrQueue = s.rrQueue := rfl
@[simp] theorem modTeam_ctrs (s : State) (g t : Nat) (f : Team → Team) : (s.modTeam g t f).ctrs = s.ctrs := rfl
@[simp] theorem modTeam_buckets (s : State) (g t : Nat) (f : Team → Team) : (s.modTeam g t f).buckets = s.buckets := rfl
@[simp] theorem modTeam_lastBand (s : State) (g t : Nat) (f : Team → Team) : (s.modTeam g t f).lastBand = s.lastBand := rfl
@[simp] theorem modTeam_pages (s : State) (g t : Nat) (f : Team → Team) : (s.modTeam g t f).pages = s.pages := rfl
@[simp] theorem modTeam_answered (s : State) (g t : Nat) (f : Team → Team) : (s.modTeam g t f).answered = s.answered := rfl
@[simp] theorem modTeam_rings (s : State) (g t : Nat) (f : Team → Team) : (s.modTeam g t f).rings = s.rings := rfl
@[simp] theorem modTeam_seqs (s : State) (g t : Nat) (f : Team → Team) : (s.modTeam g t f).seqs = s.seqs := rfl
@[simp] theorem modTeam_msix (s : State) (g t : Nat) (f : Team → Team) : (s.modTeam g t f).msix = s.msix := rfl
@[simp] theorem modTeam_records (s : State) (g t : Nat) (f : Team → Team) : (s.modTeam g t f).records = s.records := rfl
@[simp] theorem modTeam_dm (s : State) (g t : Nat) (f : Team → Team) : (s.modTeam g t f).dm = s.dm := rfl
@[simp] theorem modTeam_ds (s : State) (g t : Nat) (f : Team → Team) : (s.modTeam g t f).ds = s.ds := rfl
@[simp] theorem modTeam_hm (s : State) (g t : Nat) (f : Team → Team) : (s.modTeam g t f).hm = s.hm := rfl
@[simp] theorem modTeam_tags (s : State) (g t : Nat) (f : Team → Team) : (s.modTeam g t f).tags = s.tags := rfl
@[simp] theorem modTeam_poisoned (s : State) (g t : Nat) (f : Team → Team) : (s.modTeam g t f).poisoned = s.poisoned := rfl
@[simp] theorem modTeam_lineKey (s : State) (g t : Nat) (f : Team → Team) : (s.modTeam g t f).lineKey = s.lineKey := rfl
@[simp] theorem modTeam_keyGen (s : State) (g t : Nat) (f : Team → Team) : (s.modTeam g t f).keyGen = s.keyGen := rfl
@[simp] theorem modTeam_issued (s : State) (g t : Nat) (f : Team → Team) : (s.modTeam g t f).issued = s.issued := rfl
@[simp] theorem modTeam_rdup (s : State) (g t : Nat) (f : Team → Team) : (s.modTeam g t f).rdup = s.rdup := rfl
@[simp] theorem modTeam_macOn (s : State) (g t : Nat) (f : Team → Team) : (s.modTeam g t f).macOn = s.macOn := rfl
@[simp] theorem modTeam_parityOn (s : State) (g t : Nat) (f : Team → Team) : (s.modTeam g t f).parityOn = s.parityOn := rfl
@[simp] theorem modTeam_otAddr (s : State) (g t : Nat) (f : Team → Team) : (s.modTeam g t f).otAddr = s.otAddr := rfl
@[simp] theorem modTeam_isl (s : State) (g t : Nat) (f : Team → Team) : (s.modTeam g t f).isl = s.isl := rfl
@[simp] theorem modTeam_ports (s : State) (g t : Nat) (f : Team → Team) : (s.modTeam g t f).ports = s.ports := rfl
@[simp] theorem modTeam_sessions (s : State) (g t : Nat) (f : Team → Team) : (s.modTeam g t f).sessions = s.sessions := rfl
@[simp] theorem modTeam_ackOut (s : State) (g t : Nat) (f : Team → Team) : (s.modTeam g t f).ackOut = s.ackOut := rfl
@[simp] theorem modTeam_collOut (s : State) (g t : Nat) (f : Team → Team) : (s.modTeam g t f).collOut = s.collOut := rfl
@[simp] theorem modTeam_collEarly (s : State) (g t : Nat) (f : Team → Team) : (s.modTeam g t f).collEarly = s.collEarly := rfl
@[simp] theorem modTeam_elig (s : State) (g t : Nat) (f : Team → Team) : (s.modTeam g t f).elig = s.elig := rfl
@[simp] theorem modTeam_pkgNo (s : State) (g t : Nat) (f : Team → Team) : (s.modTeam g t f).pkgNo = s.pkgNo := rfl
@[simp] theorem modTeam_spdm (s : State) (g t : Nat) (f : Team → Team) : (s.modTeam g t f).spdm = s.spdm := rfl
@[simp] theorem modTeam_puf (s : State) (g t : Nat) (f : Team → Team) : (s.modTeam g t f).puf = s.puf := rfl
@[simp] theorem modTeam_recovery (s : State) (g t : Nat) (f : Team → Team) : (s.modTeam g t f).recovery = s.recovery := rfl
@[simp] theorem modTeam_powered (s : State) (g t : Nat) (f : Team → Team) : (s.modTeam g t f).powered = s.powered := rfl
@[simp] theorem modTeam_life (s : State) (g t : Nat) (f : Team → Team) : (s.modTeam g t f).life = s.life := rfl
@[simp] theorem modTeam_invals (s : State) (g t : Nat) (f : Team → Team) : (s.modTeam g t f).invals = s.invals := rfl
@[simp] theorem modTeam_invalDone (s : State) (g t : Nat) (f : Team → Team) : (s.modTeam g t f).invalDone = s.invalDone := rfl
@[simp] theorem modTeam_turns (s : State) (g t : Nat) (f : Team → Team) : (s.modTeam g t f).turns = s.turns := rfl
@[simp] theorem modTeam_images (s : State) (g t : Nat) (f : Team → Team) : (s.modTeam g t f).images = s.images := rfl
@[simp] theorem modTeam_roms (s : State) (g t : Nat) (f : Team → Team) : (s.modTeam g t f).roms = s.roms := rfl
@[simp] theorem modTeam_parkQ (s : State) (g t : Nat) (f : Team → Team) : (s.modTeam g t f).parkQ = s.parkQ := rfl
@[simp] theorem modTeam_chanEvs (s : State) (g t : Nat) (f : Team → Team) : (s.modTeam g t f).chanEvs = s.chanEvs := rfl
@[simp] theorem modTeam_parity (s : State) (g t : Nat) (f : Team → Team) : (s.modTeam g t f).parity = s.parity := rfl
@[simp] theorem modTeam_shadow (s : State) (g t : Nat) (f : Team → Team) : (s.modTeam g t f).shadow = s.shadow := rfl
@[simp] theorem modTeam_hmClock (s : State) (g t : Nat) (f : Team → Team) : (s.modTeam g t f).hmClock = s.hmClock := rfl
@[simp] theorem modTeam_hostClock (s : State) (g t : Nat) (f : Team → Team) : (s.modTeam g t f).hostClock = s.hostClock := rfl
@[simp] theorem modTeam_pmDone (s : State) (g t : Nat) (f : Team → Team) : (s.modTeam g t f).pmDone = s.pmDone := rfl
@[simp] theorem modTeam_parityTags (s : State) (g t : Nat) (f : Team → Team) : (s.modTeam g t f).parityTags = s.parityTags := rfl
@[simp] theorem modTeam_lineClock (s : State) (g t : Nat) (f : Team → Team) : (s.modTeam g t f).lineClock = s.lineClock := rfl
@[simp] theorem modTeam_temps (s : State) (g t : Nat) (f : Team → Team) : (s.modTeam g t f).temps = s.temps := rfl

/-! ### Pane.flag -/

@[simp] theorem pane_flag_pid (p : Pane) (f : Word) : (p.flag f).pid = p.pid := rfl
@[simp] theorem pane_flag_grid (p : Pane) (f : Word) : (p.flag f).grid = p.grid := rfl
@[simp] theorem pane_flag_team (p : Pane) (f : Word) : (p.flag f).team = p.team := rfl
@[simp] theorem pane_flag_pord (p : Pane) (f : Word) : (p.flag f).pord = p.pord := rfl
@[simp] theorem pane_flag_npane (p : Pane) (f : Word) : (p.flag f).npane = p.npane := rfl
@[simp] theorem pane_flag_depth (p : Pane) (f : Word) : (p.flag f).depth = p.depth := rfl
@[simp] theorem pane_flag_spawned (p : Pane) (f : Word) : (p.flag f).spawned = p.spawned := rfl
@[simp] theorem pane_flag_part (p : Pane) (f : Word) : (p.flag f).part = p.part := rfl
@[simp] theorem pane_flag_prio (p : Pane) (f : Word) : (p.flag f).prio = p.prio := rfl
@[simp] theorem pane_flag_core (p : Pane) (f : Word) : (p.flag f).core = p.core := rfl
@[simp] theorem pane_flag_place (p : Pane) (f : Word) : (p.flag f).place = p.place := rfl
@[simp] theorem pane_flag_inCore (p : Pane) (f : Word) : (p.flag f).inCore = p.inCore := rfl
@[simp] theorem pane_flag_moving (p : Pane) (f : Word) : (p.flag f).moving = p.moving := rfl
@[simp] theorem pane_flag_swapped (p : Pane) (f : Word) : (p.flag f).swapped = p.swapped := rfl
@[simp] theorem pane_flag_restoring (p : Pane) (f : Word) : (p.flag f).restoring = p.restoring := rfl
@[simp] theorem pane_flag_lastSlot (p : Pane) (f : Word) : (p.flag f).lastSlot = p.lastSlot := rfl
@[simp] theorem pane_flag_since (p : Pane) (f : Word) : (p.flag f).since = p.since := rfl
@[simp] theorem pane_flag_nregs (p : Pane) (f : Word) : (p.flag f).nregs = p.nregs := rfl
@[simp] theorem pane_flag_pc (p : Pane) (f : Word) : (p.flag f).pc = p.pc := rfl
@[simp] theorem pane_flag_nextPc (p : Pane) (f : Word) : (p.flag f).nextPc = p.nextPc := rfl
@[simp] theorem pane_flag_exiting (p : Pane) (f : Word) : (p.flag f).exiting = p.exiting := rfl
@[simp] theorem pane_flag_wait (p : Pane) (f : Word) : (p.flag f).wait = p.wait := rfl
@[simp] theorem pane_flag_ibuf (p : Pane) (f : Word) : (p.flag f).ibuf = p.ibuf := rfl
@[simp] theorem pane_flag_lbuf0 (p : Pane) (f : Word) : (p.flag f).lbuf0 = p.lbuf0 := rfl
@[simp] theorem pane_flag_lbuf1 (p : Pane) (f : Word) : (p.flag f).lbuf1 = p.lbuf1 := rfl
@[simp] theorem pane_flag_v (p : Pane) (f : Word) : (p.flag f).v = p.v := rfl
@[simp] theorem pane_flag_s (p : Pane) (f : Word) : (p.flag f).s = p.s := rfl
@[simp] theorem pane_flag_p (p : Pane) (f : Word) : (p.flag f).p = p.p := rfl
@[simp] theorem pane_flag_xm (p : Pane) (f : Word) : (p.flag f).xm = p.xm := rfl
@[simp] theorem pane_flag_c (p : Pane) (f : Word) : (p.flag f).c = p.c := rfl
@[simp] theorem pane_flag_y0 (p : Pane) (f : Word) : (p.flag f).y0 = p.y0 := rfl
@[simp] theorem pane_flag_y1 (p : Pane) (f : Word) : (p.flag f).y1 = p.y1 := rfl
@[simp] theorem pane_flag_y2 (p : Pane) (f : Word) : (p.flag f).y2 = p.y2 := rfl
@[simp] theorem pane_flag_y3 (p : Pane) (f : Word) : (p.flag f).y3 = p.y3 := rfl
@[simp] theorem pane_flag_ac (p : Pane) (f : Word) : (p.flag f).ac = p.ac := rfl
@[simp] theorem pane_flag_acData (p : Pane) (f : Word) : (p.flag f).acData = p.acData := rfl
@[simp] theorem pane_flag_acEng (p : Pane) (f : Word) : (p.flag f).acEng = p.acEng := rfl
@[simp] theorem pane_flag_tk (p : Pane) (f : Word) : (p.flag f).tk = p.tk := rfl
@[simp] theorem pane_flag_mx (p : Pane) (f : Word) : (p.flag f).mx = p.mx := rfl
@[simp] theorem pane_flag_stack (p : Pane) (f : Word) : (p.flag f).stack = p.stack := rfl
@[simp] theorem pane_flag_deep (p : Pane) (f : Word) : (p.flag f).deep = p.deep := rfl
@[simp] theorem pane_flag_saveAcc (p : Pane) (f : Word) : (p.flag f).saveAcc = p.saveAcc := rfl
@[simp] theorem pane_flag_saveBad (p : Pane) (f : Word) : (p.flag f).saveBad = p.saveBad := rfl
@[simp] theorem pane_flag_pendTrap (p : Pane) (f : Word) : (p.flag f).pendTrap = p.pendTrap := rfl
@[simp] theorem pane_flag_cPend (p : Pane) (f : Word) : (p.flag f).cPend = p.cPend := rfl
@[simp] theorem pane_flag_sPend (p : Pane) (f : Word) : (p.flag f).sPend = p.sPend := rfl
@[simp] theorem pane_flag_relMark (p : Pane) (f : Word) : (p.flag f).relMark = p.relMark := rfl
@[simp] theorem pane_flag_acqMark (p : Pane) (f : Word) : (p.flag f).acqMark = p.acqMark := rfl
@[simp] theorem pane_flag_sysMark (p : Pane) (f : Word) : (p.flag f).sysMark = p.sysMark := rfl
@[simp] theorem pane_flag_barRec (p : Pane) (f : Word) : (p.flag f).barRec = p.barRec := rfl
@[simp] theorem pane_flag_clbRec (p : Pane) (f : Word) : (p.flag f).clbRec = p.clbRec := rfl
@[simp] theorem pane_flag_clbHome (p : Pane) (f : Word) : (p.flag f).clbHome = p.clbHome := rfl
@[simp] theorem pane_flag_xstat (p : Pane) (f : Word) : (p.flag f).xstat = p.xstat ||| f := rfl
@[simp] theorem pane_flag_xctl (p : Pane) (f : Word) : (p.flag f).xctl = p.xctl := rfl
@[simp] theorem pane_flag_trapvecL (p : Pane) (f : Word) : (p.flag f).trapvecL = p.trapvecL := rfl
@[simp] theorem pane_flag_trapvecH (p : Pane) (f : Word) : (p.flag f).trapvecH = p.trapvecH := rfl
@[simp] theorem pane_flag_stksaveL (p : Pane) (f : Word) : (p.flag f).stksaveL = p.stksaveL := rfl
@[simp] theorem pane_flag_stksaveH (p : Pane) (f : Word) : (p.flag f).stksaveH = p.stksaveH := rfl
@[simp] theorem pane_flag_stklim (p : Pane) (f : Word) : (p.flag f).stklim = p.stklim := rfl
@[simp] theorem pane_flag_bconf (p : Pane) (f : Word) : (p.flag f).bconf = p.bconf := rfl
@[simp] theorem pane_flag_saveRec (p : Pane) (f : Word) : (p.flag f).saveRec = p.saveRec := rfl
@[simp] theorem pane_flag_stkArea (p : Pane) (f : Word) : (p.flag f).stkArea = p.stkArea := rfl
@[simp] theorem pane_flag_clock (p : Pane) (f : Word) : (p.flag f).clock = p.clock := rfl
@[simp] theorem pane_flag_watch (p : Pane) (f : Word) : (p.flag f).watch = p.watch := rfl
@[simp] theorem pane_flag_waitOn (p : Pane) (f : Word) : (p.flag f).waitOn = p.waitOn := rfl
@[simp] theorem pane_flag_ctxs (p : Pane) (f : Word) : (p.flag f).ctxs = p.ctxs := rfl
@[simp] theorem pane_flag_seen (p : Pane) (f : Word) : (p.flag f).seen = p.seen := rfl
@[simp] theorem pane_flag_midGroup (p : Pane) (f : Word) : (p.flag f).midGroup = p.midGroup := rfl

/-! ### Pane.vset -/

@[simp] theorem pane_vset_pid (p : Pane) (n : Nat) (m : Word) (f : Nat → Word) : (p.vset n m f).pid = p.pid := rfl
@[simp] theorem pane_vset_grid (p : Pane) (n : Nat) (m : Word) (f : Nat → Word) : (p.vset n m f).grid = p.grid := rfl
@[simp] theorem pane_vset_team (p : Pane) (n : Nat) (m : Word) (f : Nat → Word) : (p.vset n m f).team = p.team := rfl
@[simp] theorem pane_vset_pord (p : Pane) (n : Nat) (m : Word) (f : Nat → Word) : (p.vset n m f).pord = p.pord := rfl
@[simp] theorem pane_vset_npane (p : Pane) (n : Nat) (m : Word) (f : Nat → Word) : (p.vset n m f).npane = p.npane := rfl
@[simp] theorem pane_vset_depth (p : Pane) (n : Nat) (m : Word) (f : Nat → Word) : (p.vset n m f).depth = p.depth := rfl
@[simp] theorem pane_vset_spawned (p : Pane) (n : Nat) (m : Word) (f : Nat → Word) : (p.vset n m f).spawned = p.spawned := rfl
@[simp] theorem pane_vset_part (p : Pane) (n : Nat) (m : Word) (f : Nat → Word) : (p.vset n m f).part = p.part := rfl
@[simp] theorem pane_vset_prio (p : Pane) (n : Nat) (m : Word) (f : Nat → Word) : (p.vset n m f).prio = p.prio := rfl
@[simp] theorem pane_vset_core (p : Pane) (n : Nat) (m : Word) (f : Nat → Word) : (p.vset n m f).core = p.core := rfl
@[simp] theorem pane_vset_place (p : Pane) (n : Nat) (m : Word) (f : Nat → Word) : (p.vset n m f).place = p.place := rfl
@[simp] theorem pane_vset_inCore (p : Pane) (n : Nat) (m : Word) (f : Nat → Word) : (p.vset n m f).inCore = p.inCore := rfl
@[simp] theorem pane_vset_moving (p : Pane) (n : Nat) (m : Word) (f : Nat → Word) : (p.vset n m f).moving = p.moving := rfl
@[simp] theorem pane_vset_swapped (p : Pane) (n : Nat) (m : Word) (f : Nat → Word) : (p.vset n m f).swapped = p.swapped := rfl
@[simp] theorem pane_vset_restoring (p : Pane) (n : Nat) (m : Word) (f : Nat → Word) : (p.vset n m f).restoring = p.restoring := rfl
@[simp] theorem pane_vset_lastSlot (p : Pane) (n : Nat) (m : Word) (f : Nat → Word) : (p.vset n m f).lastSlot = p.lastSlot := rfl
@[simp] theorem pane_vset_since (p : Pane) (n : Nat) (m : Word) (f : Nat → Word) : (p.vset n m f).since = p.since := rfl
@[simp] theorem pane_vset_nregs (p : Pane) (n : Nat) (m : Word) (f : Nat → Word) : (p.vset n m f).nregs = p.nregs := rfl
@[simp] theorem pane_vset_pc (p : Pane) (n : Nat) (m : Word) (f : Nat → Word) : (p.vset n m f).pc = p.pc := rfl
@[simp] theorem pane_vset_nextPc (p : Pane) (n : Nat) (m : Word) (f : Nat → Word) : (p.vset n m f).nextPc = p.nextPc := rfl
@[simp] theorem pane_vset_exiting (p : Pane) (n : Nat) (m : Word) (f : Nat → Word) : (p.vset n m f).exiting = p.exiting := rfl
@[simp] theorem pane_vset_wait (p : Pane) (n : Nat) (m : Word) (f : Nat → Word) : (p.vset n m f).wait = p.wait := rfl
@[simp] theorem pane_vset_ibuf (p : Pane) (n : Nat) (m : Word) (f : Nat → Word) : (p.vset n m f).ibuf = p.ibuf := rfl
@[simp] theorem pane_vset_lbuf0 (p : Pane) (n : Nat) (m : Word) (f : Nat → Word) : (p.vset n m f).lbuf0 = p.lbuf0 := rfl
@[simp] theorem pane_vset_lbuf1 (p : Pane) (n : Nat) (m : Word) (f : Nat → Word) : (p.vset n m f).lbuf1 = p.lbuf1 := rfl
@[simp] theorem pane_vset_s (p : Pane) (n : Nat) (m : Word) (f : Nat → Word) : (p.vset n m f).s = p.s := rfl
@[simp] theorem pane_vset_p (p : Pane) (n : Nat) (m : Word) (f : Nat → Word) : (p.vset n m f).p = p.p := rfl
@[simp] theorem pane_vset_xm (p : Pane) (n : Nat) (m : Word) (f : Nat → Word) : (p.vset n m f).xm = p.xm := rfl
@[simp] theorem pane_vset_c (p : Pane) (n : Nat) (m : Word) (f : Nat → Word) : (p.vset n m f).c = p.c := rfl
@[simp] theorem pane_vset_y0 (p : Pane) (n : Nat) (m : Word) (f : Nat → Word) : (p.vset n m f).y0 = p.y0 := rfl
@[simp] theorem pane_vset_y1 (p : Pane) (n : Nat) (m : Word) (f : Nat → Word) : (p.vset n m f).y1 = p.y1 := rfl
@[simp] theorem pane_vset_y2 (p : Pane) (n : Nat) (m : Word) (f : Nat → Word) : (p.vset n m f).y2 = p.y2 := rfl
@[simp] theorem pane_vset_y3 (p : Pane) (n : Nat) (m : Word) (f : Nat → Word) : (p.vset n m f).y3 = p.y3 := rfl
@[simp] theorem pane_vset_ac (p : Pane) (n : Nat) (m : Word) (f : Nat → Word) : (p.vset n m f).ac = p.ac := rfl
@[simp] theorem pane_vset_acData (p : Pane) (n : Nat) (m : Word) (f : Nat → Word) : (p.vset n m f).acData = p.acData := rfl
@[simp] theorem pane_vset_acEng (p : Pane) (n : Nat) (m : Word) (f : Nat → Word) : (p.vset n m f).acEng = p.acEng := rfl
@[simp] theorem pane_vset_tk (p : Pane) (n : Nat) (m : Word) (f : Nat → Word) : (p.vset n m f).tk = p.tk := rfl
@[simp] theorem pane_vset_mx (p : Pane) (n : Nat) (m : Word) (f : Nat → Word) : (p.vset n m f).mx = p.mx := rfl
@[simp] theorem pane_vset_stack (p : Pane) (n : Nat) (m : Word) (f : Nat → Word) : (p.vset n m f).stack = p.stack := rfl
@[simp] theorem pane_vset_deep (p : Pane) (n : Nat) (m : Word) (f : Nat → Word) : (p.vset n m f).deep = p.deep := rfl
@[simp] theorem pane_vset_saveAcc (p : Pane) (n : Nat) (m : Word) (f : Nat → Word) : (p.vset n m f).saveAcc = p.saveAcc := rfl
@[simp] theorem pane_vset_saveBad (p : Pane) (n : Nat) (m : Word) (f : Nat → Word) : (p.vset n m f).saveBad = p.saveBad := rfl
@[simp] theorem pane_vset_pendTrap (p : Pane) (n : Nat) (m : Word) (f : Nat → Word) : (p.vset n m f).pendTrap = p.pendTrap := rfl
@[simp] theorem pane_vset_cPend (p : Pane) (n : Nat) (m : Word) (f : Nat → Word) : (p.vset n m f).cPend = p.cPend := rfl
@[simp] theorem pane_vset_sPend (p : Pane) (n : Nat) (m : Word) (f : Nat → Word) : (p.vset n m f).sPend = p.sPend := rfl
@[simp] theorem pane_vset_relMark (p : Pane) (n : Nat) (m : Word) (f : Nat → Word) : (p.vset n m f).relMark = p.relMark := rfl
@[simp] theorem pane_vset_acqMark (p : Pane) (n : Nat) (m : Word) (f : Nat → Word) : (p.vset n m f).acqMark = p.acqMark := rfl
@[simp] theorem pane_vset_sysMark (p : Pane) (n : Nat) (m : Word) (f : Nat → Word) : (p.vset n m f).sysMark = p.sysMark := rfl
@[simp] theorem pane_vset_barRec (p : Pane) (n : Nat) (m : Word) (f : Nat → Word) : (p.vset n m f).barRec = p.barRec := rfl
@[simp] theorem pane_vset_clbRec (p : Pane) (n : Nat) (m : Word) (f : Nat → Word) : (p.vset n m f).clbRec = p.clbRec := rfl
@[simp] theorem pane_vset_clbHome (p : Pane) (n : Nat) (m : Word) (f : Nat → Word) : (p.vset n m f).clbHome = p.clbHome := rfl
@[simp] theorem pane_vset_xstat (p : Pane) (n : Nat) (m : Word) (f : Nat → Word) : (p.vset n m f).xstat = p.xstat := rfl
@[simp] theorem pane_vset_xctl (p : Pane) (n : Nat) (m : Word) (f : Nat → Word) : (p.vset n m f).xctl = p.xctl := rfl
@[simp] theorem pane_vset_trapvecL (p : Pane) (n : Nat) (m : Word) (f : Nat → Word) : (p.vset n m f).trapvecL = p.trapvecL := rfl
@[simp] theorem pane_vset_trapvecH (p : Pane) (n : Nat) (m : Word) (f : Nat → Word) : (p.vset n m f).trapvecH = p.trapvecH := rfl
@[simp] theorem pane_vset_stksaveL (p : Pane) (n : Nat) (m : Word) (f : Nat → Word) : (p.vset n m f).stksaveL = p.stksaveL := rfl
@[simp] theorem pane_vset_stksaveH (p : Pane) (n : Nat) (m : Word) (f : Nat → Word) : (p.vset n m f).stksaveH = p.stksaveH := rfl
@[simp] theorem pane_vset_stklim (p : Pane) (n : Nat) (m : Word) (f : Nat → Word) : (p.vset n m f).stklim = p.stklim := rfl
@[simp] theorem pane_vset_bconf (p : Pane) (n : Nat) (m : Word) (f : Nat → Word) : (p.vset n m f).bconf = p.bconf := rfl
@[simp] theorem pane_vset_saveRec (p : Pane) (n : Nat) (m : Word) (f : Nat → Word) : (p.vset n m f).saveRec = p.saveRec := rfl
@[simp] theorem pane_vset_stkArea (p : Pane) (n : Nat) (m : Word) (f : Nat → Word) : (p.vset n m f).stkArea = p.stkArea := rfl
@[simp] theorem pane_vset_clock (p : Pane) (n : Nat) (m : Word) (f : Nat → Word) : (p.vset n m f).clock = p.clock := rfl
@[simp] theorem pane_vset_watch (p : Pane) (n : Nat) (m : Word) (f : Nat → Word) : (p.vset n m f).watch = p.watch := rfl
@[simp] theorem pane_vset_waitOn (p : Pane) (n : Nat) (m : Word) (f : Nat → Word) : (p.vset n m f).waitOn = p.waitOn := rfl
@[simp] theorem pane_vset_ctxs (p : Pane) (n : Nat) (m : Word) (f : Nat → Word) : (p.vset n m f).ctxs = p.ctxs := rfl
@[simp] theorem pane_vset_seen (p : Pane) (n : Nat) (m : Word) (f : Nat → Word) : (p.vset n m f).seen = p.seen := rfl
@[simp] theorem pane_vset_midGroup (p : Pane) (n : Nat) (m : Word) (f : Nat → Word) : (p.vset n m f).midGroup = p.midGroup := rfl

/-! ### Pane.sset -/

@[simp] theorem pane_sset_pid (p : Pane) (n : Nat) (x : Word) : (p.sset n x).pid = p.pid := rfl
@[simp] theorem pane_sset_grid (p : Pane) (n : Nat) (x : Word) : (p.sset n x).grid = p.grid := rfl
@[simp] theorem pane_sset_team (p : Pane) (n : Nat) (x : Word) : (p.sset n x).team = p.team := rfl
@[simp] theorem pane_sset_pord (p : Pane) (n : Nat) (x : Word) : (p.sset n x).pord = p.pord := rfl
@[simp] theorem pane_sset_npane (p : Pane) (n : Nat) (x : Word) : (p.sset n x).npane = p.npane := rfl
@[simp] theorem pane_sset_depth (p : Pane) (n : Nat) (x : Word) : (p.sset n x).depth = p.depth := rfl
@[simp] theorem pane_sset_spawned (p : Pane) (n : Nat) (x : Word) : (p.sset n x).spawned = p.spawned := rfl
@[simp] theorem pane_sset_part (p : Pane) (n : Nat) (x : Word) : (p.sset n x).part = p.part := rfl
@[simp] theorem pane_sset_prio (p : Pane) (n : Nat) (x : Word) : (p.sset n x).prio = p.prio := rfl
@[simp] theorem pane_sset_core (p : Pane) (n : Nat) (x : Word) : (p.sset n x).core = p.core := rfl
@[simp] theorem pane_sset_place (p : Pane) (n : Nat) (x : Word) : (p.sset n x).place = p.place := rfl
@[simp] theorem pane_sset_inCore (p : Pane) (n : Nat) (x : Word) : (p.sset n x).inCore = p.inCore := rfl
@[simp] theorem pane_sset_moving (p : Pane) (n : Nat) (x : Word) : (p.sset n x).moving = p.moving := rfl
@[simp] theorem pane_sset_swapped (p : Pane) (n : Nat) (x : Word) : (p.sset n x).swapped = p.swapped := rfl
@[simp] theorem pane_sset_restoring (p : Pane) (n : Nat) (x : Word) : (p.sset n x).restoring = p.restoring := rfl
@[simp] theorem pane_sset_lastSlot (p : Pane) (n : Nat) (x : Word) : (p.sset n x).lastSlot = p.lastSlot := rfl
@[simp] theorem pane_sset_since (p : Pane) (n : Nat) (x : Word) : (p.sset n x).since = p.since := rfl
@[simp] theorem pane_sset_nregs (p : Pane) (n : Nat) (x : Word) : (p.sset n x).nregs = p.nregs := rfl
@[simp] theorem pane_sset_pc (p : Pane) (n : Nat) (x : Word) : (p.sset n x).pc = p.pc := rfl
@[simp] theorem pane_sset_nextPc (p : Pane) (n : Nat) (x : Word) : (p.sset n x).nextPc = p.nextPc := rfl
@[simp] theorem pane_sset_exiting (p : Pane) (n : Nat) (x : Word) : (p.sset n x).exiting = p.exiting := rfl
@[simp] theorem pane_sset_wait (p : Pane) (n : Nat) (x : Word) : (p.sset n x).wait = p.wait := rfl
@[simp] theorem pane_sset_ibuf (p : Pane) (n : Nat) (x : Word) : (p.sset n x).ibuf = p.ibuf := rfl
@[simp] theorem pane_sset_lbuf0 (p : Pane) (n : Nat) (x : Word) : (p.sset n x).lbuf0 = p.lbuf0 := rfl
@[simp] theorem pane_sset_lbuf1 (p : Pane) (n : Nat) (x : Word) : (p.sset n x).lbuf1 = p.lbuf1 := rfl
@[simp] theorem pane_sset_v (p : Pane) (n : Nat) (x : Word) : (p.sset n x).v = p.v := rfl
@[simp] theorem pane_sset_s (p : Pane) (n : Nat) (x : Word) : (p.sset n x).s = setAt p.s n x := rfl
@[simp] theorem pane_sset_p (p : Pane) (n : Nat) (x : Word) : (p.sset n x).p = p.p := rfl
@[simp] theorem pane_sset_xm (p : Pane) (n : Nat) (x : Word) : (p.sset n x).xm = p.xm := rfl
@[simp] theorem pane_sset_c (p : Pane) (n : Nat) (x : Word) : (p.sset n x).c = p.c := rfl
@[simp] theorem pane_sset_y0 (p : Pane) (n : Nat) (x : Word) : (p.sset n x).y0 = p.y0 := rfl
@[simp] theorem pane_sset_y1 (p : Pane) (n : Nat) (x : Word) : (p.sset n x).y1 = p.y1 := rfl
@[simp] theorem pane_sset_y2 (p : Pane) (n : Nat) (x : Word) : (p.sset n x).y2 = p.y2 := rfl
@[simp] theorem pane_sset_y3 (p : Pane) (n : Nat) (x : Word) : (p.sset n x).y3 = p.y3 := rfl
@[simp] theorem pane_sset_ac (p : Pane) (n : Nat) (x : Word) : (p.sset n x).ac = p.ac := rfl
@[simp] theorem pane_sset_acData (p : Pane) (n : Nat) (x : Word) : (p.sset n x).acData = p.acData := rfl
@[simp] theorem pane_sset_acEng (p : Pane) (n : Nat) (x : Word) : (p.sset n x).acEng = p.acEng := rfl
@[simp] theorem pane_sset_tk (p : Pane) (n : Nat) (x : Word) : (p.sset n x).tk = p.tk := rfl
@[simp] theorem pane_sset_mx (p : Pane) (n : Nat) (x : Word) : (p.sset n x).mx = p.mx := rfl
@[simp] theorem pane_sset_stack (p : Pane) (n : Nat) (x : Word) : (p.sset n x).stack = p.stack := rfl
@[simp] theorem pane_sset_deep (p : Pane) (n : Nat) (x : Word) : (p.sset n x).deep = p.deep := rfl
@[simp] theorem pane_sset_saveAcc (p : Pane) (n : Nat) (x : Word) : (p.sset n x).saveAcc = p.saveAcc := rfl
@[simp] theorem pane_sset_saveBad (p : Pane) (n : Nat) (x : Word) : (p.sset n x).saveBad = p.saveBad := rfl
@[simp] theorem pane_sset_pendTrap (p : Pane) (n : Nat) (x : Word) : (p.sset n x).pendTrap = p.pendTrap := rfl
@[simp] theorem pane_sset_cPend (p : Pane) (n : Nat) (x : Word) : (p.sset n x).cPend = p.cPend := rfl
@[simp] theorem pane_sset_sPend (p : Pane) (n : Nat) (x : Word) : (p.sset n x).sPend = p.sPend := rfl
@[simp] theorem pane_sset_relMark (p : Pane) (n : Nat) (x : Word) : (p.sset n x).relMark = p.relMark := rfl
@[simp] theorem pane_sset_acqMark (p : Pane) (n : Nat) (x : Word) : (p.sset n x).acqMark = p.acqMark := rfl
@[simp] theorem pane_sset_sysMark (p : Pane) (n : Nat) (x : Word) : (p.sset n x).sysMark = p.sysMark := rfl
@[simp] theorem pane_sset_barRec (p : Pane) (n : Nat) (x : Word) : (p.sset n x).barRec = p.barRec := rfl
@[simp] theorem pane_sset_clbRec (p : Pane) (n : Nat) (x : Word) : (p.sset n x).clbRec = p.clbRec := rfl
@[simp] theorem pane_sset_clbHome (p : Pane) (n : Nat) (x : Word) : (p.sset n x).clbHome = p.clbHome := rfl
@[simp] theorem pane_sset_xstat (p : Pane) (n : Nat) (x : Word) : (p.sset n x).xstat = p.xstat := rfl
@[simp] theorem pane_sset_xctl (p : Pane) (n : Nat) (x : Word) : (p.sset n x).xctl = p.xctl := rfl
@[simp] theorem pane_sset_trapvecL (p : Pane) (n : Nat) (x : Word) : (p.sset n x).trapvecL = p.trapvecL := rfl
@[simp] theorem pane_sset_trapvecH (p : Pane) (n : Nat) (x : Word) : (p.sset n x).trapvecH = p.trapvecH := rfl
@[simp] theorem pane_sset_stksaveL (p : Pane) (n : Nat) (x : Word) : (p.sset n x).stksaveL = p.stksaveL := rfl
@[simp] theorem pane_sset_stksaveH (p : Pane) (n : Nat) (x : Word) : (p.sset n x).stksaveH = p.stksaveH := rfl
@[simp] theorem pane_sset_stklim (p : Pane) (n : Nat) (x : Word) : (p.sset n x).stklim = p.stklim := rfl
@[simp] theorem pane_sset_bconf (p : Pane) (n : Nat) (x : Word) : (p.sset n x).bconf = p.bconf := rfl
@[simp] theorem pane_sset_saveRec (p : Pane) (n : Nat) (x : Word) : (p.sset n x).saveRec = p.saveRec := rfl
@[simp] theorem pane_sset_stkArea (p : Pane) (n : Nat) (x : Word) : (p.sset n x).stkArea = p.stkArea := rfl
@[simp] theorem pane_sset_clock (p : Pane) (n : Nat) (x : Word) : (p.sset n x).clock = p.clock := rfl
@[simp] theorem pane_sset_watch (p : Pane) (n : Nat) (x : Word) : (p.sset n x).watch = p.watch := rfl
@[simp] theorem pane_sset_waitOn (p : Pane) (n : Nat) (x : Word) : (p.sset n x).waitOn = p.waitOn := rfl
@[simp] theorem pane_sset_ctxs (p : Pane) (n : Nat) (x : Word) : (p.sset n x).ctxs = p.ctxs := rfl
@[simp] theorem pane_sset_seen (p : Pane) (n : Nat) (x : Word) : (p.sset n x).seen = p.seen := rfl
@[simp] theorem pane_sset_midGroup (p : Pane) (n : Nat) (x : Word) : (p.sset n x).midGroup = p.midGroup := rfl

/-! ### Pane.cset -/

@[simp] theorem pane_cset_pid (p : Pane) (n : Nat) (x : Cap) : (p.cset n x).pid = p.pid := rfl
@[simp] theorem pane_cset_grid (p : Pane) (n : Nat) (x : Cap) : (p.cset n x).grid = p.grid := rfl
@[simp] theorem pane_cset_team (p : Pane) (n : Nat) (x : Cap) : (p.cset n x).team = p.team := rfl
@[simp] theorem pane_cset_pord (p : Pane) (n : Nat) (x : Cap) : (p.cset n x).pord = p.pord := rfl
@[simp] theorem pane_cset_npane (p : Pane) (n : Nat) (x : Cap) : (p.cset n x).npane = p.npane := rfl
@[simp] theorem pane_cset_depth (p : Pane) (n : Nat) (x : Cap) : (p.cset n x).depth = p.depth := rfl
@[simp] theorem pane_cset_spawned (p : Pane) (n : Nat) (x : Cap) : (p.cset n x).spawned = p.spawned := rfl
@[simp] theorem pane_cset_part (p : Pane) (n : Nat) (x : Cap) : (p.cset n x).part = p.part := rfl
@[simp] theorem pane_cset_prio (p : Pane) (n : Nat) (x : Cap) : (p.cset n x).prio = p.prio := rfl
@[simp] theorem pane_cset_core (p : Pane) (n : Nat) (x : Cap) : (p.cset n x).core = p.core := rfl
@[simp] theorem pane_cset_place (p : Pane) (n : Nat) (x : Cap) : (p.cset n x).place = p.place := rfl
@[simp] theorem pane_cset_inCore (p : Pane) (n : Nat) (x : Cap) : (p.cset n x).inCore = p.inCore := rfl
@[simp] theorem pane_cset_moving (p : Pane) (n : Nat) (x : Cap) : (p.cset n x).moving = p.moving := rfl
@[simp] theorem pane_cset_swapped (p : Pane) (n : Nat) (x : Cap) : (p.cset n x).swapped = p.swapped := rfl
@[simp] theorem pane_cset_restoring (p : Pane) (n : Nat) (x : Cap) : (p.cset n x).restoring = p.restoring := rfl
@[simp] theorem pane_cset_lastSlot (p : Pane) (n : Nat) (x : Cap) : (p.cset n x).lastSlot = p.lastSlot := rfl
@[simp] theorem pane_cset_since (p : Pane) (n : Nat) (x : Cap) : (p.cset n x).since = p.since := rfl
@[simp] theorem pane_cset_nregs (p : Pane) (n : Nat) (x : Cap) : (p.cset n x).nregs = p.nregs := rfl
@[simp] theorem pane_cset_pc (p : Pane) (n : Nat) (x : Cap) : (p.cset n x).pc = p.pc := rfl
@[simp] theorem pane_cset_nextPc (p : Pane) (n : Nat) (x : Cap) : (p.cset n x).nextPc = p.nextPc := rfl
@[simp] theorem pane_cset_exiting (p : Pane) (n : Nat) (x : Cap) : (p.cset n x).exiting = p.exiting := rfl
@[simp] theorem pane_cset_wait (p : Pane) (n : Nat) (x : Cap) : (p.cset n x).wait = p.wait := rfl
@[simp] theorem pane_cset_ibuf (p : Pane) (n : Nat) (x : Cap) : (p.cset n x).ibuf = p.ibuf := rfl
@[simp] theorem pane_cset_lbuf0 (p : Pane) (n : Nat) (x : Cap) : (p.cset n x).lbuf0 = p.lbuf0 := rfl
@[simp] theorem pane_cset_lbuf1 (p : Pane) (n : Nat) (x : Cap) : (p.cset n x).lbuf1 = p.lbuf1 := rfl
@[simp] theorem pane_cset_v (p : Pane) (n : Nat) (x : Cap) : (p.cset n x).v = p.v := rfl
@[simp] theorem pane_cset_s (p : Pane) (n : Nat) (x : Cap) : (p.cset n x).s = p.s := rfl
@[simp] theorem pane_cset_p (p : Pane) (n : Nat) (x : Cap) : (p.cset n x).p = p.p := rfl
@[simp] theorem pane_cset_xm (p : Pane) (n : Nat) (x : Cap) : (p.cset n x).xm = p.xm := rfl
@[simp] theorem pane_cset_c (p : Pane) (n : Nat) (x : Cap) : (p.cset n x).c = setAt p.c n x := rfl
@[simp] theorem pane_cset_y0 (p : Pane) (n : Nat) (x : Cap) : (p.cset n x).y0 = p.y0 := rfl
@[simp] theorem pane_cset_y1 (p : Pane) (n : Nat) (x : Cap) : (p.cset n x).y1 = p.y1 := rfl
@[simp] theorem pane_cset_y2 (p : Pane) (n : Nat) (x : Cap) : (p.cset n x).y2 = p.y2 := rfl
@[simp] theorem pane_cset_y3 (p : Pane) (n : Nat) (x : Cap) : (p.cset n x).y3 = p.y3 := rfl
@[simp] theorem pane_cset_ac (p : Pane) (n : Nat) (x : Cap) : (p.cset n x).ac = p.ac := rfl
@[simp] theorem pane_cset_acData (p : Pane) (n : Nat) (x : Cap) : (p.cset n x).acData = p.acData := rfl
@[simp] theorem pane_cset_acEng (p : Pane) (n : Nat) (x : Cap) : (p.cset n x).acEng = p.acEng := rfl
@[simp] theorem pane_cset_tk (p : Pane) (n : Nat) (x : Cap) : (p.cset n x).tk = p.tk := rfl
@[simp] theorem pane_cset_mx (p : Pane) (n : Nat) (x : Cap) : (p.cset n x).mx = p.mx := rfl
@[simp] theorem pane_cset_stack (p : Pane) (n : Nat) (x : Cap) : (p.cset n x).stack = p.stack := rfl
@[simp] theorem pane_cset_deep (p : Pane) (n : Nat) (x : Cap) : (p.cset n x).deep = p.deep := rfl
@[simp] theorem pane_cset_saveAcc (p : Pane) (n : Nat) (x : Cap) : (p.cset n x).saveAcc = p.saveAcc := rfl
@[simp] theorem pane_cset_saveBad (p : Pane) (n : Nat) (x : Cap) : (p.cset n x).saveBad = p.saveBad := rfl
@[simp] theorem pane_cset_pendTrap (p : Pane) (n : Nat) (x : Cap) : (p.cset n x).pendTrap = p.pendTrap := rfl
@[simp] theorem pane_cset_cPend (p : Pane) (n : Nat) (x : Cap) : (p.cset n x).cPend = p.cPend := rfl
@[simp] theorem pane_cset_sPend (p : Pane) (n : Nat) (x : Cap) : (p.cset n x).sPend = p.sPend := rfl
@[simp] theorem pane_cset_relMark (p : Pane) (n : Nat) (x : Cap) : (p.cset n x).relMark = p.relMark := rfl
@[simp] theorem pane_cset_acqMark (p : Pane) (n : Nat) (x : Cap) : (p.cset n x).acqMark = p.acqMark := rfl
@[simp] theorem pane_cset_sysMark (p : Pane) (n : Nat) (x : Cap) : (p.cset n x).sysMark = p.sysMark := rfl
@[simp] theorem pane_cset_barRec (p : Pane) (n : Nat) (x : Cap) : (p.cset n x).barRec = p.barRec := rfl
@[simp] theorem pane_cset_clbRec (p : Pane) (n : Nat) (x : Cap) : (p.cset n x).clbRec = p.clbRec := rfl
@[simp] theorem pane_cset_clbHome (p : Pane) (n : Nat) (x : Cap) : (p.cset n x).clbHome = p.clbHome := rfl
@[simp] theorem pane_cset_xstat (p : Pane) (n : Nat) (x : Cap) : (p.cset n x).xstat = p.xstat := rfl
@[simp] theorem pane_cset_xctl (p : Pane) (n : Nat) (x : Cap) : (p.cset n x).xctl = p.xctl := rfl
@[simp] theorem pane_cset_trapvecL (p : Pane) (n : Nat) (x : Cap) : (p.cset n x).trapvecL = p.trapvecL := rfl
@[simp] theorem pane_cset_trapvecH (p : Pane) (n : Nat) (x : Cap) : (p.cset n x).trapvecH = p.trapvecH := rfl
@[simp] theorem pane_cset_stksaveL (p : Pane) (n : Nat) (x : Cap) : (p.cset n x).stksaveL = p.stksaveL := rfl
@[simp] theorem pane_cset_stksaveH (p : Pane) (n : Nat) (x : Cap) : (p.cset n x).stksaveH = p.stksaveH := rfl
@[simp] theorem pane_cset_stklim (p : Pane) (n : Nat) (x : Cap) : (p.cset n x).stklim = p.stklim := rfl
@[simp] theorem pane_cset_bconf (p : Pane) (n : Nat) (x : Cap) : (p.cset n x).bconf = p.bconf := rfl
@[simp] theorem pane_cset_saveRec (p : Pane) (n : Nat) (x : Cap) : (p.cset n x).saveRec = p.saveRec := rfl
@[simp] theorem pane_cset_stkArea (p : Pane) (n : Nat) (x : Cap) : (p.cset n x).stkArea = p.stkArea := rfl
@[simp] theorem pane_cset_clock (p : Pane) (n : Nat) (x : Cap) : (p.cset n x).clock = p.clock := rfl
@[simp] theorem pane_cset_watch (p : Pane) (n : Nat) (x : Cap) : (p.cset n x).watch = p.watch := rfl
@[simp] theorem pane_cset_waitOn (p : Pane) (n : Nat) (x : Cap) : (p.cset n x).waitOn = p.waitOn := rfl
@[simp] theorem pane_cset_ctxs (p : Pane) (n : Nat) (x : Cap) : (p.cset n x).ctxs = p.ctxs := rfl
@[simp] theorem pane_cset_seen (p : Pane) (n : Nat) (x : Cap) : (p.cset n x).seen = p.seen := rfl
@[simp] theorem pane_cset_midGroup (p : Pane) (n : Nat) (x : Cap) : (p.cset n x).midGroup = p.midGroup := rfl

/-! ### Pane.latchX -/

@[simp] theorem pane_latchX_pid (p : Pane) (f : Nat → Word) : (p.latchX f).pid = p.pid := rfl
@[simp] theorem pane_latchX_grid (p : Pane) (f : Nat → Word) : (p.latchX f).grid = p.grid := rfl
@[simp] theorem pane_latchX_team (p : Pane) (f : Nat → Word) : (p.latchX f).team = p.team := rfl
@[simp] theorem pane_latchX_pord (p : Pane) (f : Nat → Word) : (p.latchX f).pord = p.pord := rfl
@[simp] theorem pane_latchX_npane (p : Pane) (f : Nat → Word) : (p.latchX f).npane = p.npane := rfl
@[simp] theorem pane_latchX_depth (p : Pane) (f : Nat → Word) : (p.latchX f).depth = p.depth := rfl
@[simp] theorem pane_latchX_spawned (p : Pane) (f : Nat → Word) : (p.latchX f).spawned = p.spawned := rfl
@[simp] theorem pane_latchX_part (p : Pane) (f : Nat → Word) : (p.latchX f).part = p.part := rfl
@[simp] theorem pane_latchX_prio (p : Pane) (f : Nat → Word) : (p.latchX f).prio = p.prio := rfl
@[simp] theorem pane_latchX_core (p : Pane) (f : Nat → Word) : (p.latchX f).core = p.core := rfl
@[simp] theorem pane_latchX_place (p : Pane) (f : Nat → Word) : (p.latchX f).place = p.place := rfl
@[simp] theorem pane_latchX_inCore (p : Pane) (f : Nat → Word) : (p.latchX f).inCore = p.inCore := rfl
@[simp] theorem pane_latchX_moving (p : Pane) (f : Nat → Word) : (p.latchX f).moving = p.moving := rfl
@[simp] theorem pane_latchX_swapped (p : Pane) (f : Nat → Word) : (p.latchX f).swapped = p.swapped := rfl
@[simp] theorem pane_latchX_restoring (p : Pane) (f : Nat → Word) : (p.latchX f).restoring = p.restoring := rfl
@[simp] theorem pane_latchX_lastSlot (p : Pane) (f : Nat → Word) : (p.latchX f).lastSlot = p.lastSlot := rfl
@[simp] theorem pane_latchX_since (p : Pane) (f : Nat → Word) : (p.latchX f).since = p.since := rfl
@[simp] theorem pane_latchX_nregs (p : Pane) (f : Nat → Word) : (p.latchX f).nregs = p.nregs := rfl
@[simp] theorem pane_latchX_pc (p : Pane) (f : Nat → Word) : (p.latchX f).pc = p.pc := rfl
@[simp] theorem pane_latchX_nextPc (p : Pane) (f : Nat → Word) : (p.latchX f).nextPc = p.nextPc := rfl
@[simp] theorem pane_latchX_exiting (p : Pane) (f : Nat → Word) : (p.latchX f).exiting = p.exiting := rfl
@[simp] theorem pane_latchX_wait (p : Pane) (f : Nat → Word) : (p.latchX f).wait = p.wait := rfl
@[simp] theorem pane_latchX_ibuf (p : Pane) (f : Nat → Word) : (p.latchX f).ibuf = p.ibuf := rfl
@[simp] theorem pane_latchX_lbuf0 (p : Pane) (f : Nat → Word) : (p.latchX f).lbuf0 = p.lbuf0 := rfl
@[simp] theorem pane_latchX_lbuf1 (p : Pane) (f : Nat → Word) : (p.latchX f).lbuf1 = p.lbuf1 := rfl
@[simp] theorem pane_latchX_v (p : Pane) (f : Nat → Word) : (p.latchX f).v = p.v := rfl
@[simp] theorem pane_latchX_s (p : Pane) (f : Nat → Word) : (p.latchX f).s = p.s := rfl
@[simp] theorem pane_latchX_p (p : Pane) (f : Nat → Word) : (p.latchX f).p = p.p := rfl
@[simp] theorem pane_latchX_xm (p : Pane) (f : Nat → Word) : (p.latchX f).xm = p.xm := rfl
@[simp] theorem pane_latchX_c (p : Pane) (f : Nat → Word) : (p.latchX f).c = p.c := rfl
@[simp] theorem pane_latchX_y1 (p : Pane) (f : Nat → Word) : (p.latchX f).y1 = p.y1 := rfl
@[simp] theorem pane_latchX_y2 (p : Pane) (f : Nat → Word) : (p.latchX f).y2 = p.y0 := rfl
@[simp] theorem pane_latchX_y3 (p : Pane) (f : Nat → Word) : (p.latchX f).y3 = p.y3 := rfl
@[simp] theorem pane_latchX_ac (p : Pane) (f : Nat → Word) : (p.latchX f).ac = p.ac := rfl
@[simp] theorem pane_latchX_acData (p : Pane) (f : Nat → Word) : (p.latchX f).acData = p.acData := rfl
@[simp] theorem pane_latchX_acEng (p : Pane) (f : Nat → Word) : (p.latchX f).acEng = p.acEng := rfl
@[simp] theorem pane_latchX_tk (p : Pane) (f : Nat → Word) : (p.latchX f).tk = p.tk := rfl
@[simp] theorem pane_latchX_mx (p : Pane) (f : Nat → Word) : (p.latchX f).mx = p.mx := rfl
@[simp] theorem pane_latchX_stack (p : Pane) (f : Nat → Word) : (p.latchX f).stack = p.stack := rfl
@[simp] theorem pane_latchX_deep (p : Pane) (f : Nat → Word) : (p.latchX f).deep = p.deep := rfl
@[simp] theorem pane_latchX_saveAcc (p : Pane) (f : Nat → Word) : (p.latchX f).saveAcc = p.saveAcc := rfl
@[simp] theorem pane_latchX_saveBad (p : Pane) (f : Nat → Word) : (p.latchX f).saveBad = p.saveBad := rfl
@[simp] theorem pane_latchX_pendTrap (p : Pane) (f : Nat → Word) : (p.latchX f).pendTrap = p.pendTrap := rfl
@[simp] theorem pane_latchX_cPend (p : Pane) (f : Nat → Word) : (p.latchX f).cPend = p.cPend := rfl
@[simp] theorem pane_latchX_sPend (p : Pane) (f : Nat → Word) : (p.latchX f).sPend = p.sPend := rfl
@[simp] theorem pane_latchX_relMark (p : Pane) (f : Nat → Word) : (p.latchX f).relMark = p.relMark := rfl
@[simp] theorem pane_latchX_acqMark (p : Pane) (f : Nat → Word) : (p.latchX f).acqMark = p.acqMark := rfl
@[simp] theorem pane_latchX_sysMark (p : Pane) (f : Nat → Word) : (p.latchX f).sysMark = p.sysMark := rfl
@[simp] theorem pane_latchX_barRec (p : Pane) (f : Nat → Word) : (p.latchX f).barRec = p.barRec := rfl
@[simp] theorem pane_latchX_clbRec (p : Pane) (f : Nat → Word) : (p.latchX f).clbRec = p.clbRec := rfl
@[simp] theorem pane_latchX_clbHome (p : Pane) (f : Nat → Word) : (p.latchX f).clbHome = p.clbHome := rfl
@[simp] theorem pane_latchX_xstat (p : Pane) (f : Nat → Word) : (p.latchX f).xstat = p.xstat := rfl
@[simp] theorem pane_latchX_xctl (p : Pane) (f : Nat → Word) : (p.latchX f).xctl = p.xctl := rfl
@[simp] theorem pane_latchX_trapvecL (p : Pane) (f : Nat → Word) : (p.latchX f).trapvecL = p.trapvecL := rfl
@[simp] theorem pane_latchX_trapvecH (p : Pane) (f : Nat → Word) : (p.latchX f).trapvecH = p.trapvecH := rfl
@[simp] theorem pane_latchX_stksaveL (p : Pane) (f : Nat → Word) : (p.latchX f).stksaveL = p.stksaveL := rfl
@[simp] theorem pane_latchX_stksaveH (p : Pane) (f : Nat → Word) : (p.latchX f).stksaveH = p.stksaveH := rfl
@[simp] theorem pane_latchX_stklim (p : Pane) (f : Nat → Word) : (p.latchX f).stklim = p.stklim := rfl
@[simp] theorem pane_latchX_bconf (p : Pane) (f : Nat → Word) : (p.latchX f).bconf = p.bconf := rfl
@[simp] theorem pane_latchX_saveRec (p : Pane) (f : Nat → Word) : (p.latchX f).saveRec = p.saveRec := rfl
@[simp] theorem pane_latchX_stkArea (p : Pane) (f : Nat → Word) : (p.latchX f).stkArea = p.stkArea := rfl
@[simp] theorem pane_latchX_clock (p : Pane) (f : Nat → Word) : (p.latchX f).clock = p.clock := rfl
@[simp] theorem pane_latchX_watch (p : Pane) (f : Nat → Word) : (p.latchX f).watch = p.watch := rfl
@[simp] theorem pane_latchX_waitOn (p : Pane) (f : Nat → Word) : (p.latchX f).waitOn = p.waitOn := rfl
@[simp] theorem pane_latchX_ctxs (p : Pane) (f : Nat → Word) : (p.latchX f).ctxs = p.ctxs := rfl
@[simp] theorem pane_latchX_seen (p : Pane) (f : Nat → Word) : (p.latchX f).seen = p.seen := rfl
@[simp] theorem pane_latchX_midGroup (p : Pane) (f : Nat → Word) : (p.latchX f).midGroup = p.midGroup := rfl

/-! ### Pane.latchY -/

@[simp] theorem pane_latchY_pid (p : Pane) (f : Nat → Word) : (p.latchY f).pid = p.pid := rfl
@[simp] theorem pane_latchY_grid (p : Pane) (f : Nat → Word) : (p.latchY f).grid = p.grid := rfl
@[simp] theorem pane_latchY_team (p : Pane) (f : Nat → Word) : (p.latchY f).team = p.team := rfl
@[simp] theorem pane_latchY_pord (p : Pane) (f : Nat → Word) : (p.latchY f).pord = p.pord := rfl
@[simp] theorem pane_latchY_npane (p : Pane) (f : Nat → Word) : (p.latchY f).npane = p.npane := rfl
@[simp] theorem pane_latchY_depth (p : Pane) (f : Nat → Word) : (p.latchY f).depth = p.depth := rfl
@[simp] theorem pane_latchY_spawned (p : Pane) (f : Nat → Word) : (p.latchY f).spawned = p.spawned := rfl
@[simp] theorem pane_latchY_part (p : Pane) (f : Nat → Word) : (p.latchY f).part = p.part := rfl
@[simp] theorem pane_latchY_prio (p : Pane) (f : Nat → Word) : (p.latchY f).prio = p.prio := rfl
@[simp] theorem pane_latchY_core (p : Pane) (f : Nat → Word) : (p.latchY f).core = p.core := rfl
@[simp] theorem pane_latchY_place (p : Pane) (f : Nat → Word) : (p.latchY f).place = p.place := rfl
@[simp] theorem pane_latchY_inCore (p : Pane) (f : Nat → Word) : (p.latchY f).inCore = p.inCore := rfl
@[simp] theorem pane_latchY_moving (p : Pane) (f : Nat → Word) : (p.latchY f).moving = p.moving := rfl
@[simp] theorem pane_latchY_swapped (p : Pane) (f : Nat → Word) : (p.latchY f).swapped = p.swapped := rfl
@[simp] theorem pane_latchY_restoring (p : Pane) (f : Nat → Word) : (p.latchY f).restoring = p.restoring := rfl
@[simp] theorem pane_latchY_lastSlot (p : Pane) (f : Nat → Word) : (p.latchY f).lastSlot = p.lastSlot := rfl
@[simp] theorem pane_latchY_since (p : Pane) (f : Nat → Word) : (p.latchY f).since = p.since := rfl
@[simp] theorem pane_latchY_nregs (p : Pane) (f : Nat → Word) : (p.latchY f).nregs = p.nregs := rfl
@[simp] theorem pane_latchY_pc (p : Pane) (f : Nat → Word) : (p.latchY f).pc = p.pc := rfl
@[simp] theorem pane_latchY_nextPc (p : Pane) (f : Nat → Word) : (p.latchY f).nextPc = p.nextPc := rfl
@[simp] theorem pane_latchY_exiting (p : Pane) (f : Nat → Word) : (p.latchY f).exiting = p.exiting := rfl
@[simp] theorem pane_latchY_wait (p : Pane) (f : Nat → Word) : (p.latchY f).wait = p.wait := rfl
@[simp] theorem pane_latchY_ibuf (p : Pane) (f : Nat → Word) : (p.latchY f).ibuf = p.ibuf := rfl
@[simp] theorem pane_latchY_lbuf0 (p : Pane) (f : Nat → Word) : (p.latchY f).lbuf0 = p.lbuf0 := rfl
@[simp] theorem pane_latchY_lbuf1 (p : Pane) (f : Nat → Word) : (p.latchY f).lbuf1 = p.lbuf1 := rfl
@[simp] theorem pane_latchY_v (p : Pane) (f : Nat → Word) : (p.latchY f).v = p.v := rfl
@[simp] theorem pane_latchY_s (p : Pane) (f : Nat → Word) : (p.latchY f).s = p.s := rfl
@[simp] theorem pane_latchY_p (p : Pane) (f : Nat → Word) : (p.latchY f).p = p.p := rfl
@[simp] theorem pane_latchY_xm (p : Pane) (f : Nat → Word) : (p.latchY f).xm = p.xm := rfl
@[simp] theorem pane_latchY_c (p : Pane) (f : Nat → Word) : (p.latchY f).c = p.c := rfl
@[simp] theorem pane_latchY_y0 (p : Pane) (f : Nat → Word) : (p.latchY f).y0 = p.y0 := rfl
@[simp] theorem pane_latchY_y2 (p : Pane) (f : Nat → Word) : (p.latchY f).y2 = p.y2 := rfl
@[simp] theorem pane_latchY_y3 (p : Pane) (f : Nat → Word) : (p.latchY f).y3 = p.y1 := rfl
@[simp] theorem pane_latchY_ac (p : Pane) (f : Nat → Word) : (p.latchY f).ac = p.ac := rfl
@[simp] theorem pane_latchY_acData (p : Pane) (f : Nat → Word) : (p.latchY f).acData = p.acData := rfl
@[simp] theorem pane_latchY_acEng (p : Pane) (f : Nat → Word) : (p.latchY f).acEng = p.acEng := rfl
@[simp] theorem pane_latchY_tk (p : Pane) (f : Nat → Word) : (p.latchY f).tk = p.tk := rfl
@[simp] theorem pane_latchY_mx (p : Pane) (f : Nat → Word) : (p.latchY f).mx = p.mx := rfl
@[simp] theorem pane_latchY_stack (p : Pane) (f : Nat → Word) : (p.latchY f).stack = p.stack := rfl
@[simp] theorem pane_latchY_deep (p : Pane) (f : Nat → Word) : (p.latchY f).deep = p.deep := rfl
@[simp] theorem pane_latchY_saveAcc (p : Pane) (f : Nat → Word) : (p.latchY f).saveAcc = p.saveAcc := rfl
@[simp] theorem pane_latchY_saveBad (p : Pane) (f : Nat → Word) : (p.latchY f).saveBad = p.saveBad := rfl
@[simp] theorem pane_latchY_pendTrap (p : Pane) (f : Nat → Word) : (p.latchY f).pendTrap = p.pendTrap := rfl
@[simp] theorem pane_latchY_cPend (p : Pane) (f : Nat → Word) : (p.latchY f).cPend = p.cPend := rfl
@[simp] theorem pane_latchY_sPend (p : Pane) (f : Nat → Word) : (p.latchY f).sPend = p.sPend := rfl
@[simp] theorem pane_latchY_relMark (p : Pane) (f : Nat → Word) : (p.latchY f).relMark = p.relMark := rfl
@[simp] theorem pane_latchY_acqMark (p : Pane) (f : Nat → Word) : (p.latchY f).acqMark = p.acqMark := rfl
@[simp] theorem pane_latchY_sysMark (p : Pane) (f : Nat → Word) : (p.latchY f).sysMark = p.sysMark := rfl
@[simp] theorem pane_latchY_barRec (p : Pane) (f : Nat → Word) : (p.latchY f).barRec = p.barRec := rfl
@[simp] theorem pane_latchY_clbRec (p : Pane) (f : Nat → Word) : (p.latchY f).clbRec = p.clbRec := rfl
@[simp] theorem pane_latchY_clbHome (p : Pane) (f : Nat → Word) : (p.latchY f).clbHome = p.clbHome := rfl
@[simp] theorem pane_latchY_xstat (p : Pane) (f : Nat → Word) : (p.latchY f).xstat = p.xstat := rfl
@[simp] theorem pane_latchY_xctl (p : Pane) (f : Nat → Word) : (p.latchY f).xctl = p.xctl := rfl
@[simp] theorem pane_latchY_trapvecL (p : Pane) (f : Nat → Word) : (p.latchY f).trapvecL = p.trapvecL := rfl
@[simp] theorem pane_latchY_trapvecH (p : Pane) (f : Nat → Word) : (p.latchY f).trapvecH = p.trapvecH := rfl
@[simp] theorem pane_latchY_stksaveL (p : Pane) (f : Nat → Word) : (p.latchY f).stksaveL = p.stksaveL := rfl
@[simp] theorem pane_latchY_stksaveH (p : Pane) (f : Nat → Word) : (p.latchY f).stksaveH = p.stksaveH := rfl
@[simp] theorem pane_latchY_stklim (p : Pane) (f : Nat → Word) : (p.latchY f).stklim = p.stklim := rfl
@[simp] theorem pane_latchY_bconf (p : Pane) (f : Nat → Word) : (p.latchY f).bconf = p.bconf := rfl
@[simp] theorem pane_latchY_saveRec (p : Pane) (f : Nat → Word) : (p.latchY f).saveRec = p.saveRec := rfl
@[simp] theorem pane_latchY_stkArea (p : Pane) (f : Nat → Word) : (p.latchY f).stkArea = p.stkArea := rfl
@[simp] theorem pane_latchY_clock (p : Pane) (f : Nat → Word) : (p.latchY f).clock = p.clock := rfl
@[simp] theorem pane_latchY_watch (p : Pane) (f : Nat → Word) : (p.latchY f).watch = p.watch := rfl
@[simp] theorem pane_latchY_waitOn (p : Pane) (f : Nat → Word) : (p.latchY f).waitOn = p.waitOn := rfl
@[simp] theorem pane_latchY_ctxs (p : Pane) (f : Nat → Word) : (p.latchY f).ctxs = p.ctxs := rfl
@[simp] theorem pane_latchY_seen (p : Pane) (f : Nat → Word) : (p.latchY f).seen = p.seen := rfl
@[simp] theorem pane_latchY_midGroup (p : Pane) (f : Nat → Word) : (p.latchY f).midGroup = p.midGroup := rfl

/-! ### Pane.pop -/

@[simp] theorem pane_pop_pid (p : Pane) : (p.pop).pid = p.pid := rfl
@[simp] theorem pane_pop_grid (p : Pane) : (p.pop).grid = p.grid := rfl
@[simp] theorem pane_pop_team (p : Pane) : (p.pop).team = p.team := rfl
@[simp] theorem pane_pop_pord (p : Pane) : (p.pop).pord = p.pord := rfl
@[simp] theorem pane_pop_npane (p : Pane) : (p.pop).npane = p.npane := rfl
@[simp] theorem pane_pop_depth (p : Pane) : (p.pop).depth = p.depth := rfl
@[simp] theorem pane_pop_spawned (p : Pane) : (p.pop).spawned = p.spawned := rfl
@[simp] theorem pane_pop_part (p : Pane) : (p.pop).part = p.part := rfl
@[simp] theorem pane_pop_prio (p : Pane) : (p.pop).prio = p.prio := rfl
@[simp] theorem pane_pop_core (p : Pane) : (p.pop).core = p.core := rfl
@[simp] theorem pane_pop_place (p : Pane) : (p.pop).place = p.place := rfl
@[simp] theorem pane_pop_inCore (p : Pane) : (p.pop).inCore = p.inCore := rfl
@[simp] theorem pane_pop_moving (p : Pane) : (p.pop).moving = p.moving := rfl
@[simp] theorem pane_pop_swapped (p : Pane) : (p.pop).swapped = p.swapped := rfl
@[simp] theorem pane_pop_restoring (p : Pane) : (p.pop).restoring = p.restoring := rfl
@[simp] theorem pane_pop_lastSlot (p : Pane) : (p.pop).lastSlot = p.lastSlot := rfl
@[simp] theorem pane_pop_since (p : Pane) : (p.pop).since = p.since := rfl
@[simp] theorem pane_pop_nregs (p : Pane) : (p.pop).nregs = p.nregs := rfl
@[simp] theorem pane_pop_pc (p : Pane) : (p.pop).pc = p.pc := rfl
@[simp] theorem pane_pop_nextPc (p : Pane) : (p.pop).nextPc = p.nextPc := rfl
@[simp] theorem pane_pop_exiting (p : Pane) : (p.pop).exiting = p.exiting := rfl
@[simp] theorem pane_pop_wait (p : Pane) : (p.pop).wait = p.wait := rfl
@[simp] theorem pane_pop_ibuf (p : Pane) : (p.pop).ibuf = p.ibuf := rfl
@[simp] theorem pane_pop_lbuf0 (p : Pane) : (p.pop).lbuf0 = p.lbuf0 := rfl
@[simp] theorem pane_pop_lbuf1 (p : Pane) : (p.pop).lbuf1 = p.lbuf1 := rfl
@[simp] theorem pane_pop_v (p : Pane) : (p.pop).v = p.v := rfl
@[simp] theorem pane_pop_s (p : Pane) : (p.pop).s = p.s := rfl
@[simp] theorem pane_pop_p (p : Pane) : (p.pop).p = p.p := rfl
@[simp] theorem pane_pop_xm (p : Pane) : (p.pop).xm = p.xm := rfl
@[simp] theorem pane_pop_c (p : Pane) : (p.pop).c = p.c := rfl
@[simp] theorem pane_pop_y0 (p : Pane) : (p.pop).y0 = p.y0 := rfl
@[simp] theorem pane_pop_y1 (p : Pane) : (p.pop).y1 = p.y1 := rfl
@[simp] theorem pane_pop_y2 (p : Pane) : (p.pop).y2 = p.y2 := rfl
@[simp] theorem pane_pop_y3 (p : Pane) : (p.pop).y3 = p.y3 := rfl
@[simp] theorem pane_pop_ac (p : Pane) : (p.pop).ac = p.ac := rfl
@[simp] theorem pane_pop_acData (p : Pane) : (p.pop).acData = p.acData := rfl
@[simp] theorem pane_pop_acEng (p : Pane) : (p.pop).acEng = p.acEng := rfl
@[simp] theorem pane_pop_tk (p : Pane) : (p.pop).tk = p.tk := rfl
@[simp] theorem pane_pop_mx (p : Pane) : (p.pop).mx = p.mx := rfl
@[simp] theorem pane_pop_stack (p : Pane) : (p.pop).stack = p.stack.tail := rfl
@[simp] theorem pane_pop_deep (p : Pane) : (p.pop).deep = p.deep - 1 := rfl
@[simp] theorem pane_pop_saveAcc (p : Pane) : (p.pop).saveAcc = p.saveAcc := rfl
@[simp] theorem pane_pop_saveBad (p : Pane) : (p.pop).saveBad = p.saveBad := rfl
@[simp] theorem pane_pop_pendTrap (p : Pane) : (p.pop).pendTrap = p.pendTrap := rfl
@[simp] theorem pane_pop_cPend (p : Pane) : (p.pop).cPend = p.cPend := rfl
@[simp] theorem pane_pop_sPend (p : Pane) : (p.pop).sPend = p.sPend := rfl
@[simp] theorem pane_pop_relMark (p : Pane) : (p.pop).relMark = p.relMark := rfl
@[simp] theorem pane_pop_acqMark (p : Pane) : (p.pop).acqMark = p.acqMark := rfl
@[simp] theorem pane_pop_sysMark (p : Pane) : (p.pop).sysMark = p.sysMark := rfl
@[simp] theorem pane_pop_barRec (p : Pane) : (p.pop).barRec = p.barRec := rfl
@[simp] theorem pane_pop_clbRec (p : Pane) : (p.pop).clbRec = p.clbRec := rfl
@[simp] theorem pane_pop_clbHome (p : Pane) : (p.pop).clbHome = p.clbHome := rfl
@[simp] theorem pane_pop_xstat (p : Pane) : (p.pop).xstat = p.xstat := rfl
@[simp] theorem pane_pop_xctl (p : Pane) : (p.pop).xctl = p.xctl := rfl
@[simp] theorem pane_pop_trapvecL (p : Pane) : (p.pop).trapvecL = p.trapvecL := rfl
@[simp] theorem pane_pop_trapvecH (p : Pane) : (p.pop).trapvecH = p.trapvecH := rfl
@[simp] theorem pane_pop_stksaveL (p : Pane) : (p.pop).stksaveL = p.stksaveL := rfl
@[simp] theorem pane_pop_stksaveH (p : Pane) : (p.pop).stksaveH = p.stksaveH := rfl
@[simp] theorem pane_pop_stklim (p : Pane) : (p.pop).stklim = p.stklim := rfl
@[simp] theorem pane_pop_bconf (p : Pane) : (p.pop).bconf = p.bconf := rfl
@[simp] theorem pane_pop_saveRec (p : Pane) : (p.pop).saveRec = p.saveRec := rfl
@[simp] theorem pane_pop_stkArea (p : Pane) : (p.pop).stkArea = p.stkArea := rfl
@[simp] theorem pane_pop_clock (p : Pane) : (p.pop).clock = p.clock := rfl
@[simp] theorem pane_pop_watch (p : Pane) : (p.pop).watch = p.watch := rfl
@[simp] theorem pane_pop_waitOn (p : Pane) : (p.pop).waitOn = p.waitOn := rfl
@[simp] theorem pane_pop_ctxs (p : Pane) : (p.pop).ctxs = p.ctxs := rfl
@[simp] theorem pane_pop_seen (p : Pane) : (p.pop).seen = p.seen := rfl
@[simp] theorem pane_pop_midGroup (p : Pane) : (p.pop).midGroup = p.midGroup := rfl

end Sys2Proof.Machine
end

