-- ==== Sys2Proof/Tests/Slice0.lean ====
section
/-! SUPPORT. Small tests, each about one term or one step: ill-formed terms that are refused, words written out from the
spec's encoding tables, examples the spec works out, and, for each statement that has hypotheses, states and operands that
meet them. -/

namespace Sys2Proof.Tests

set_option Elab.async false

open Sys2Proof Sys2Proof.Machine

/-! ### Ill-formed terms, one for each check of WellFormed -/

/-- Two literals in one word (R28). -/
theorem test_wf_literals :
    (Instr.iadd false .wrap (.reg 0) (.lit 1) (.lit 2)).wf = false ∧ (Instr.imad false (.lit 1) (.reg 0) (.lit 2) .zero).wf = false ∧
    (Instr.sadd (.reg 0) (.lit 1) (.lit 2)).wf = false ∧ (Instr.stsp (.lit 1) (.lit 2) 0 0 none).wf = false ∧
    (Instr.iadd false .wrap (.reg 0) (.lit 1) (.lit 1)).wf = true := by decide

/-- A literal where the sill holds a modifier (R163, R273). -/
theorem test_wf_no_literal :
    (Instr.ldsp 0 (.lit 1) 0 0 (some {})).wf = false ∧ (Instr.stdm (.lit 1) .zero 0 0 (some {})).wf = false ∧
    (Instr.atdm (.reg 0) (.lit 1) 0 0 (some {})).wf = false ∧ (Instr.pfdm (.lit 1) 0 (some {})).wf = false ∧
    (Instr.cld 0 (.lit 1) 0 0 (some {})).wf = false ∧ (Instr.cst 0 (.lit 1) 0 0 (some {})).wf = false ∧
    (Instr.waitmem .zero (.lit 1) 0 (some 1)).wf = false ∧ (Instr.skupd 0 (.lit 1) .zero).wf = false ∧
    (Instr.atmass 0 .zero (.lit 1)).wf = false ∧ (Instr.skqry 0 (.lit 1) 0 0).wf = false := by decide

/-- Runs past v119 (R35). -/
theorem test_wf_runs :
    (Instr.lddm 117 (.reg 0) 0 0 (some { size := .q })).wf = false ∧ (Instr.lddm 0 (.reg 119) 0 0 (some { p := true })).wf = false ∧
    (Instr.stdm .zero (.reg 0) 0 0 (some { size := .d })).wf = false ∧
    (Instr.atdm (.reg 119) (.reg 0) 0 0 (some { opc := .cas })).wf = false ∧
    (Instr.tex 117 0 0 0 (some { nres := 3 })).wf = false ∧ (Instr.tex 0 119 0 0 none).wf = false ∧
    (Instr.hgrid 100 0 0 0 (some { nlev := 15, f4 := true })).wf = false ∧ (Instr.hgrid 0 118 0 0 none).wf = false ∧
    (Instr.spawn (.reg 113) 0 8).wf = false ∧ (Instr.pfdm (.reg 119) 0 (some { p := true })).wf = false := by decide

/-- Modifier values that R164 does not admit, and a conversion pair that R47 does not list. -/
theorem test_wf_modifiers :
    (Instr.ldsp 0 (.reg 0) 0 0 (some { ord := .rel })).wf = false ∧ (Instr.stsp (.reg 0) (.reg 0) 0 0 (some { sx := true })).wf = false ∧
    (Instr.atsp (.reg 0) (.reg 0) 0 0 (some { size := .q })).wf = false ∧ (Instr.lddm 0 (.reg 0) 0 0 (some { sx := true })).wf = false ∧
    (Instr.stdm (.reg 0) (.reg 0) 0 0 (some { ord := .acq })).wf = false ∧
    (Instr.atdm (.reg 0) (.reg 0) 0 0 (some { opc := .min, size := .d })).wf = false ∧
    (Instr.reddm (.reg 0) (.reg 0) 0 (some { opc := .cas })).wf = false ∧ (Instr.pfdm (.reg 0) 0 (some { ord := .acq })).wf = false ∧
    (Instr.stpm (.reg 0) (.reg 0) 0 (some { st := true })).wf = false ∧ (Instr.redpm (.reg 0) (.reg 0) 0 (some { opc := .xchg })).wf = false ∧
    (Instr.ldhm 0 (.reg 0) 0 0 (some { st := true })).wf = false ∧ (Instr.sthm (.reg 0) (.reg 0) 0 0 (some { st := true })).wf = false ∧
    (Instr.cld 0 .zero 0 0 (some { size := .q })).wf = false ∧ (Instr.cst 0 .zero 0 0 (some { scale := 1 })).wf = false ∧
    (Instr.lddm 0 (.reg 0) 0 0 (some { scope := .pkg })).wf = false ∧
    (Instr.cvt false .f32 .f32 .rn (.reg 0) (.reg 0)).wf = false ∧ (Instr.cvt false .i16 .i32 .rz (.reg 0) (.reg 0)).wf = false ∧
    (Instr.scat none 0 .zero 0 3 false (some .add)).wf = false ∧ (Instr.scat none 0 .zero 0 2 false (some .cas)).wf = false := by decide

/-! ### Words written out from the encoding tables (R33 to R47, R163, R172, R221, R299, R369): fields from bit 31 down -/

theorem test_decode_x_integer :
    decodeWord 0b0_0_0000000_0000001_0000010_0000011_01 0 = .ok (.iadd false .sat (.reg 1) (.reg 2) (.reg 3)) ∧
    decodeWord 0b0_1_0000001_1111100_1110111_1111110_00 0 = .ok (.iaddc true .discard (.reg 119) .lane) ∧
    decodeWord 0b0_0_0000010_1110111_1111000_1111011_10 0 = .ok (.isub false .usat (.reg 119) (.latch 0) (.latch 3)) ∧
    decodeWord 0b0_0_0000011_0000100_1111101_1111100_00 77 = .ok (.imul false (.reg 4) (.lit 77) .zero) ∧
    decodeWord 0b0_0_0000100_0000100_0000101_0000110_01 0 = .ok (.imulh false true (.reg 4) (.reg 5) (.reg 6)) ∧
    decodeWord 0b0_0_0000101_0000100_0000101_0000110_11 9 = .ok (.imad false (.lit 9) (.reg 4) (.reg 5) (.reg 6)) ∧
    decodeWord 0b0_0_0000110_0000100_0000101_0000110_10 0 = .ok (.idiv false .rem (.reg 4) (.reg 5) (.reg 6)) ∧
    decodeWord 0b0_0_0000111_0000100_0000101_0000110_00 0 = .ok (.imin false false (.reg 4) (.reg 5) (.reg 6)) ∧
    decodeWord 0b0_0_0001000_0000100_0000101_0000110_01 0 = .ok (.imax false true (.reg 4) (.reg 5) (.reg 6)) ∧
    decodeWord 0b0_0_0001001_0000100_0000101_0000000_00 0 = .ok (.iabs false (.reg 4) (.reg 5)) ∧
    decodeWord 0b0_0_0001010_0000100_0000101_0000110_11 0 = .ok (.lea false 3 (.reg 4) (.reg 5) (.reg 6)) ∧
    decodeWord 0b0_0_0001011_101_1001_0000001_0000010_10 0 = .ok (.iset 5 .geu .or (.reg 1) (.reg 2)) ∧
    decodeWord 0b0_0_0001100_0000100_0000101_0000110_10 0 = .ok (.sel false 2 (.reg 4) (.reg 5) (.reg 6)) ∧
    decodeWord 0b0_0_0001101_0000100_0000101_0000000_00 0 = .ok (.mov false (.reg 4) (.reg 5)) ∧
    decodeWord 0b0_0_0001110_0000100_0111111_0000000_00 0 = .ok (.movs false (.reg 4) (.reg 63)) ∧
    decodeWord 0b0_1_0001111_0000100_1000000000000001 0 = .ok (.movImm true (.reg 4) 0x8001) ∧
    decodeWord 0b0_0_0100000_0000100_0111111111111111 0 = .ok (.iaddImm false (.reg 4) 0x7FFF) := by
  repeat' constructor

theorem test_decode_x_float :
    decodeWord 0b0_0_0010000_0000001_0000010_0000011_11 0 = .ok (.fadd false .rd (.reg 1) (.reg 2) (.reg 3)) ∧
    decodeWord 0b0_0_0010001_0000001_0000010_0000011_10 0 = .ok (.fsub false .ru (.reg 1) (.reg 2) (.reg 3)) ∧
    decodeWord 0b0_0_0010010_0000001_0000010_0000011_01 0 = .ok (.fmul false .rz (.reg 1) (.reg 2) (.reg 3)) ∧
    decodeWord 0b0_0_0010011_0000001_0000010_0000011_10 0 = .ok (.ffma false .y1 (.reg 1) (.reg 2) (.reg 3)) ∧
    decodeWord 0b0_0_0010100_0000001_0000010_0000011_00 0 = .ok (.fmin false (.reg 1) (.reg 2) (.reg 3)) ∧
    decodeWord 0b0_0_0010101_0000001_0000010_0000011_00 0 = .ok (.fmax false (.reg 1) (.reg 2) (.reg 3)) ∧
    decodeWord 0b0_0_0010110_111_0110_0000001_0000010_01 0 = .ok (.fset 7 .un .and (.reg 1) (.reg 2)) ∧
    decodeWord 0b0_0_0010111_0000001_0000010_0000000_00 0 = .ok (.fclass false (.reg 1) (.reg 2)) ∧
    decodeWord 0b0_0_0011000_0000001_0000010_0000000_01 0 = .ok (.frnd false .rz (.reg 1) (.reg 2)) ∧
    decodeWord 0b0_0_0011001_0000001_0000010_0000011_01 0 = .ok (.hadd2 false .bf16 (.reg 1) (.reg 2) (.reg 3)) ∧
    decodeWord 0b0_0_0011010_0000001_0000010_0000011_00 0 = .ok (.hmul2 false .f16 (.reg 1) (.reg 2) (.reg 3)) ∧
    decodeWord 0b0_0_0011011_0000001_0000010_0000011_01 0 = .ok (.hfma2 false .bf16 (.reg 1) (.reg 2) (.reg 3)) ∧
    decodeWord 0b0_0_0011100_0000001_0000010_0000011_00 0 = .ok (.hmin2 false .f16 (.reg 1) (.reg 2) (.reg 3)) ∧
    decodeWord 0b0_0_0011101_0000001_0000010_0000011_01 0 = .ok (.hmax2 false .bf16 (.reg 1) (.reg 2) (.reg 3)) ∧
    decodeWord 0b0_0_0011110_0000001_0000010_1011_110_00 0 = .ok (.cvt false .u8 .i32 .rn (.reg 1) (.reg 2)) ∧
    decodeWord 0b0_0_0011111_0000001_0000010_0000011_10 0 = .ok (.ffmaRm false .ru (.reg 1) (.reg 2) (.reg 3)) := by
  repeat' constructor

theorem test_decode_y_logic :
    decodeWord 0b0_0_0101000_0000001_0000010_0000011_00 0 = .ok (.and false (.reg 1) (.reg 2) (.reg 3)) ∧
    decodeWord 0b0_0_0101001_0000001_0000010_0000011_00 0 = .ok (.or false (.reg 1) (.reg 2) (.reg 3)) ∧
    decodeWord 0b0_0_0101010_0000001_0000010_0000011_00 0 = .ok (.xor false (.reg 1) (.reg 2) (.reg 3)) ∧
    decodeWord 0b0_0_0101011_0000001_0000010_0000011_00 0 = .ok (.andn false (.reg 1) (.reg 2) (.reg 3)) ∧
    decodeWord 0b0_0_0101100_0000001_0000010_0000011_00 0 = .ok (.shl false (.reg 1) (.reg 2) (.reg 3)) ∧
    decodeWord 0b0_0_0101101_0000001_0000010_0000011_00 0 = .ok (.shr false (.reg 1) (.reg 2) (.reg 3)) ∧
    decodeWord 0b0_0_0101110_0000001_0000010_0000011_00 0 = .ok (.sar false (.reg 1) (.reg 2) (.reg 3)) ∧
    decodeWord 0b0_0_0101111_0000001_0000010_0000011_00 0 = .ok (.rotl false (.reg 1) (.reg 2) (.reg 3)) ∧
    decodeWord 0b0_0_0110000_0000001_0000010_0000011_01 0 = .ok (.bfx false true (.reg 1) (.reg 2) (.reg 3)) ∧
    decodeWord 0b0_0_0110001_0000001_0000010_0000011_00 0 = .ok (.bfi false (.reg 1) (.reg 2) (.reg 3)) ∧
    decodeWord 0b0_0_0110010_0000001_0000010_0000000_00 0 = .ok (.popc false (.reg 1) (.reg 2)) ∧
    decodeWord 0b0_0_0110010_0000001_0000010_0000001_00 0 = .ok (.clz false (.reg 1) (.reg 2)) ∧
    decodeWord 0b0_0_0110010_0000001_0000010_0000010_00 0 = .ok (.brev false (.reg 1) (.reg 2)) := by
  repeat' constructor

theorem test_decode_uniform :
    decodeWord 0b0_0_0110011_0000001_0000010_0111111_00 0 = .ok (.sadd (.reg 1) (.reg 2) (.reg 63)) ∧
    decodeWord 0b0_0_0110100_1111100_0000010_0000011_00 0 = .ok (.ssub .discard (.reg 2) (.reg 3)) ∧
    decodeWord 0b0_0_0110101_0000001_1111100_0000011_00 0 = .ok (.smul (.reg 1) .zero (.reg 3)) ∧
    decodeWord 0b0_0_0110110_0000001_0000010_0000011_10 0 = .ok (.sshl .asr (.reg 1) (.reg 2) (.reg 3)) ∧
    decodeWord 0b0_0_0110111_0000001_0000010_1111101_00 5 = .ok (.sand (.reg 1) (.reg 2) (.lit 5)) ∧
    decodeWord 0b0_0_0111000_0000001_0000010_0000011_00 0 = .ok (.sor (.reg 1) (.reg 2) (.reg 3)) ∧
    decodeWord 0b0_0_0111001_0000001_0000010_0000000_00 0 = .ok (.smov (.reg 1) (.reg 2)) ∧
    decodeWord 0b0_0_0111010_001_0010_0000011_0000100_00 0 = .ok (.sset 1 .lt .set (.reg 3) (.reg 4)) ∧
    decodeWord 0b0_0_0111011_0000001_0000010_0000011_10 0 = .ok (.slea 2 (.reg 1) (.reg 2) (.reg 3)) ∧
    decodeWord 0b0_0_0111100_0000001_1111111111111111 0 = .ok (.smovImm (.reg 1) 0xFFFF) ∧
    decodeWord 0b0_0_0111101_0111111_0000000000000010 0 = .ok (.saddImm (.reg 63) 2) := by
  repeat' constructor

theorem test_decode_control :
    decodeWord 0b0_0_1000000_111_11111111111111111111 0 = .ok (.bra 7 0xFFFFF) ∧
    decodeWord 0b0_0_1000001_0000000_0111110_0000000_00 0 = .ok (.brx 62) ∧
    decodeWord 0b0_0_1000010_011_00000000000000000101 0 = .ok (.call 3 5) ∧
    decodeWord 0b0_0_1000011_0000000_0000000_0000000_00 0 = .ok (.ret) ∧
    decodeWord 0b0_0_1000100_000_10000000000000000000 0 = .ok (.split 0 0x80000) ∧
    decodeWord 0b0_0_1000101_0000000_0000000_0000000_00 0 = .ok (.join) ∧
    decodeWord 0b0_0_1000110_110_00000000000000000001 0 = .ok (.brk 6 1) ∧
    decodeWord 0b0_0_1000111_0001001_1111000000000000 0b11_111111_10_000101_01_111110_00_000000 = .ok (.loop (.reg 9) 15 .none (.addNext 62) (.inc 5) (.dec 63)) ∧
    decodeWord 0b0_0_1001000_0001001_0000000_0000000_00 0 = .ok (.xmrd (.reg 9)) ∧
    decodeWord 0b0_0_1001000_0000000_0001001_0000001_00 0 = .ok (.xmwr (.reg 9)) ∧
    decodeWord 0b0_0_1001000_0000000_0000111_0000010_00 0 = .ok (.xmand 7) ∧
    decodeWord 0b0_0_1001001_001_010_011_00000_0000000_00 0 = .ok (.pand 1 2 3) ∧
    decodeWord 0b0_0_1001001_001_010_011_00000_0000001_00 0 = .ok (.por 1 2 3) ∧
    decodeWord 0b0_0_1001001_001_010_011_00000_0000010_00 0 = .ok (.pxor 1 2 3) ∧
    decodeWord 0b0_0_1001001_001_010_000_00000_0000011_00 0 = .ok (.pnot 1 2) ∧
    decodeWord 0b0_0_1001001_001_010_000_00000_0000100_00 0 = .ok (.pmov 1 2) ∧
    decodeWord 0b0_0_1001010_0000000_0000000_0000000_00 0 = .ok (.nop) ∧
    decodeWord 0b0_0_1001010_0000000_0000000_0000001_00 0 = .ok (.exit) ∧
    decodeWord 0b0_0_1001010_0000000_0000000_0000010_00 0 = .ok (.yield) ∧
    decodeWord 0b0_0_1001010_0000000_1111111_0000011_00 0 = .ok (.trap 127) ∧
    decodeWord 0b0_0_1001010_0000000_0000001_0000100_00 0 = .ok (.trapHost 1) ∧
    decodeWord 0b0_0_1001010_0000000_0000000_0000101_00 0 = .ok (.rtt) ∧
    decodeWord 0b0_0_1001010_0000000_0000000_0000110_00 0 = .ok (.bkpt) ∧
    decodeWord 0b0_0_1001010_0000000_00_11_110_0000111_00 0 = .ok (.fence .ar .sys) ∧
    decodeWord 0b0_0_1001011_0001001_0000000000001100 0 = .ok (.csrr (.reg 9) .spds) ∧
    decodeWord 0b0_0_1001100_0001001_0000000000001000 0 = .ok (.csrw (.reg 9) .bconf) ∧
    decodeWord 0b0_0_1001101_1111100_1111_00_01_00000000 0 = .ok (.barArrive .zero 15 .rel) ∧
    decodeWord 0b0_0_1001101_0000011_0010_01_10_00000000 0 = .ok (.barWait (.reg 3) 2 .acq) ∧
    decodeWord 0b0_0_1001101_0000011_0010_10_11_00000000 0 = .ok (.barSync (.reg 3) 2 .ar) ∧
    decodeWord 0b0_0_1001110_0000000_1000000000000001 0 = .ok (.waittk 0x8001) ∧
    decodeWord 0b0_0_1001111_1111100_1111_0000_11111111 0 = .ok (.waitac 15 (.imm 255)) ∧
    decodeWord 0b0_0_1011010_0000000_0000000010000000 0 = .ok (.waitmb 0x80) := by
  repeat' constructor

theorem test_decode_lanes :
    decodeWord 0b0_0_1010000_0000001_0000010_0000011_10 0 = .ok (.shfl false .dn (.reg 1) (.reg 2) (.reg 3)) ∧
    decodeWord 0b0_0_1010001_0000001_0000010_0000000_11 0 = .ok (.vote .eq (.reg 1) (.reg 2)) ∧
    decodeWord 0b0_0_1010010_0000001_0000010_0001010_00 0 = .ok (.lred .fmax (.reg 1) (.reg 2)) ∧
    decodeWord 0b0_0_1010011_0000001_0000010_0000111_01 0 = .ok (.lscan false .xor true (.reg 1) (.reg 2)) ∧
    decodeWord 0b0_0_1010100_0000001_0000010_0000000_00 0 = .ok (.matchLanes false (.reg 1) (.reg 2)) ∧
    decodeWord 0b0_0_1010101_0000001_0000010_0000011_00 0 = .ok (.reorder false (.reg 1) (.reg 2) (.reg 3)) ∧
    decodeWord 0b0_0_1010110_1110110_0000010_0000000_00 0 = .ok (.rebal false 118 (.reg 2)) ∧
    decodeWord 0b0_0_1010111_0000111_0000000_0000000_00 0 = .ok (.elect 7) ∧
    decodeWord 0b0_0_1011000_0000001_0000010_0111111_00 0 = .ok (.nzs false (.reg 1) (.reg 2) (.reg 63)) ∧
    decodeWord 0b0_0_1011001_0000001_0000010_1111_1001_0 0 = .ok (.sfn false .gelu 15 (.reg 1) (.reg 2)) := by
  repeat' constructor

theorem test_decode_memory :
    decodeWord 0b0_1_1100000_0000001_0000010_11111_1111 0b00000000_0000_001_10_0_1_0_000_001_000000 = .ok (.ldsp 1 (.reg 2) 31 15 (some { ord := .acq, scope := .team, sx := true, size := .b })) ∧
    decodeWord 0b0_0_1100001_1111101_0000010_00011_0100 6 = .ok (.stsp (.lit 6) (.reg 2) 3 4 none) ∧
    decodeWord 0b0_1_1100010_0000001_0000010_00011_0100 0b00000000_1110_000_00_0_0_0_000_011_000000 = .ok (.atsp (.reg 1) (.reg 2) 3 4 (some { opc := .cas, size := .d })) ∧
    decodeWord 0b0_0_1100011_0000001_0000010_00011_0100 0 = .ok (.ldds 1 (.reg 2) 3 4 none) ∧
    decodeWord 0b0_0_1100100_0000001_0000010_00011_0100 0 = .ok (.stds (.reg 1) (.reg 2) 3 4 none) ∧
    decodeWord 0b0_0_1100101_0000001_0000010_00011_0100 0 = .ok (.atds (.reg 1) (.reg 2) 3 4 none) ∧
    decodeWord 0b0_1_1100110_0000001_0000010_00011_0100 0b00000000_0000_000_00_1_0_1_100_100_000000 = .ok (.lddm 1 (.reg 2) 3 4 (some { p := true, scale := 4, size := .q, st := true })) ∧
    decodeWord 0b0_1_1100111_0000001_1111110_00011_0100 0b00000000_0000_110_01_0_0_0_000_010_000000 = .ok (.stdm (.reg 1) .lane 3 4 (some { size := .h, ord := .rel, scope := .sys })) ∧
    decodeWord 0b0_1_1101000_0000001_0000010_00011_0100 0b00000000_1101_000_00_0_0_0_000_000_000000 = .ok (.atdm (.reg 1) (.reg 2) 3 4 (some { opc := .xchg })) ∧
    decodeWord 0b0_1_1101001_0000001_0000010_00011_0000 0b00000000_1000_000_00_0_0_0_000_000_000000 = .ok (.reddm (.reg 1) (.reg 2) 3 (some { opc := .fadd })) ∧
    decodeWord 0b0_0_1101010_0000000_0000010_00011_0000 0 = .ok (.pfdm (.reg 2) 3 none) ∧
    decodeWord 0b0_1_1101011_0000001_0000010_00011_0100 0b00000000000000000000000000_1_1_00_11 = .ok (.tex 1 2 3 4 (some { clamp := true, lin := true, nres := 3 })) ∧
    decodeWord 0b0_1_1101100_0000001_0101000_00011_0100 0b0000000000000000000000_1111_1_00000 = .ok (.hgrid 1 40 3 4 (some { nlev := 15, f4 := true })) ∧
    decodeWord 0b0_0_1101101_0000001_0000010_00011_0000 0 = .ok (.stpm (.reg 1) (.reg 2) 3 none) ∧
    decodeWord 0b0_0_1101110_0000001_0000010_00011_0000 0 = .ok (.redpm (.reg 1) (.reg 2) 3 none) ∧
    decodeWord 0b0_0_1101111_0000001_0000010_00011_0100 0 = .ok (.ldhm 1 (.reg 2) 3 4 none) ∧
    decodeWord 0b0_0_1110000_0000001_0000010_00011_0100 0 = .ok (.sthm (.reg 1) (.reg 2) 3 4 none) ∧
    decodeWord 0b0_0_1110001_0011111_0000010_00011_0100 0 = .ok (.cld 31 (.reg 2) 3 4 none) ∧
    decodeWord 0b0_0_1110010_0000001_1111100_00011_0100 0 = .ok (.cst 1 .zero 3 4 none) ∧
    decodeWord 0b0_0_1110011_0000001_0000010_0111110_00 0 = .ok (.cbnd 1 2 62) ∧
    decodeWord 0b0_0_1110011_0000001_0000010_0000011_01 0 = .ok (.crgt 1 2 (.reg 3)) ∧
    decodeWord 0b0_0_1110011_0000001_0000010_0000000_10 0 = .ok (.cmov 1 2) ∧
    decodeWord 0b0_0_1110011_0111100_0000010_0000000_11 0 = .ok (.cget 60 2) ∧
    decodeWord 0b0_1_1110100_0000001_0000010_00011_0000 0b000000000000_11111111111111111111 = .ok (.waitmem (.reg 1) (.reg 2) 3 (some 0xFFFFF)) ∧
    decodeWord 0b0_0_1110101_1110000_0111110_0001000_00 0 = .ok (.spawn (.reg 112) 62 8) := by
  repeat' constructor

theorem test_decode_matrix :
    decodeWord 0b0_0_1110110_1110000_0111110_1_0_00000_00 0 = .ok (.mma 112 62 true false) ∧
    decodeWord 0b0_0_1110111_0000001_0000010_0_1_11111_00 0 = .ok (.mmas 1 2 false true 31) ∧
    decodeWord 0b0_0_1111000_0000001_0000010_1_0_00000_00 0 = .ok (.mmat 1 2 true) ∧
    decodeWord 0b0_0_1111001_0111110_1101000_1_1_00000_00 0 = .ok (.mxq 62 104 .had32) ∧
    decodeWord 0b0_0_1111010_0000001_0000000_1_11_0000_00 0 = .ok (.mxrd false 1 true 3) ∧
    decodeWord 0b0_0_1111011_0000000_0000010_1_000000_00 0 = .ok (.mxst 2 true) ∧
    decodeWord 0b0_0_1111100_0000000_0000000_1_000000_00 0 = .ok (.mxclr true) ∧
    decodeWord 0b0_0_1111100_0000000_0000000_0000000_01 0 = .ok (.mxfence) ∧
    decodeWord 0b0_0_1111101_0000011_0010_00_00_00000000 0 = .ok (.clbarArrive (.reg 3) 2 .none) ∧
    decodeWord 0b0_0_1111101_1111100_0010_01_00_00000000 0 = .ok (.clbarWait .zero 2 .none) ∧
    decodeWord 0b0_0_1111101_0000011_0010_10_01_00000000 0 = .ok (.clbarSync (.reg 3) 2 .rel) := by
  repeat' constructor

theorem test_decode_engines :
    decodeWord 0b0_0_1111110_0111110_0111000_0111111_00 0b000000000000_0_0000_1_1100_1111_000000 = .ok (.cpy (some 62) 56 (.reg 63) 15 12 true) ∧
    decodeWord 0b0_0_1111110_1111100_0000001_1111100_00 0b000000000000_0_0000_0_0010_0011_000001 = .ok (.gath none 1 .zero 3 2 false) ∧
    decodeWord 0b0_0_1111110_0000001_0000010_0000011_00 0b000000000000_1_1000_0_0010_0011_000010 = .ok (.scat (some 1) 2 (.reg 3) 3 2 false (some .fadd)) ∧
    decodeWord 0b0_0_1111110_0000001_0000010_0000011_00 0b000000000000_0_0000_0_0100_0011_000011 = .ok (.route (some 1) 2 (.reg 3) 3 4 false) ∧
    decodeWord 0b0_0_1111110_0000001_0000010_0000011_00 0b00000000000000000_1_10_01_0011_000100 = .ok (.chain (some 1) 2 (.reg 3) 3 .bf16 .f16 true) ∧
    decodeWord 0b0_0_1111111_0111101_0000010_0000000_00 0b0000000000000000000000_0011_000000 = .ok (.vpin (some 61) 2 3) ∧
    decodeWord 0b0_0_1111111_0000000_0000010_0000011_00 0b0000000000000000000000_0011_000001 = .ok (.vrel 2 (.reg 3) 3) ∧
    decodeWord 0b0_0_1111111_1111100_0000010_0111110_00 0b0000000000000000000000_0011_000010 = .ok (.vpub none 2 62 3) ∧
    decodeWord 0b0_0_1111111_0000001_0000010_1111110_00 0b0000000000000000000000_0000_000011 = .ok (.skupd 1 (.reg 2) .lane) ∧
    decodeWord 0b0_0_1111111_1110111_0000010_0011111_00 0b0000000000000000000000_0011_000100 = .ok (.skqry 119 (.reg 2) 31 3) ∧
    decodeWord 0b0_0_1111111_0000001_0000010_0000000_00 0b0000000000000000000000_0011_000101 = .ok (.skadd 1 2 3) ∧
    decodeWord 0b0_0_1111111_0000001_0000000_0000000_00 0b0000000000000000000000_0011_000110 = .ok (.skclr 1 3) ∧
    decodeWord 0b0_0_1111111_0000001_1101111_0111100_00 0b0000000000000000000010_0011_000111 = .ok (.raycast 1 111 60 3 .front) ∧
    decodeWord 0b0_0_1111111_0000001_0000010_0000011_00 0b0000000000000000000000_0000_001000 = .ok (.atmass 1 (.reg 2) (.reg 3)) ∧
    decodeWord 0b0_0_1111111_0000001_0111000_0000000_00 0b0000000000000000000000_0011_001001 = .ok (.evict (some 1) 56 3) ∧
    decodeWord 0b0_0_1111111_0000001_0000010_1110110_00 0b0000000000000000000000_0011_001010 = .ok (.posrd 1 2 118 3) ∧
    decodeWord 0b0_0_1111111_0000111_0111110_0000000_00 0b0000000000000000000000_0011_001011 = .ok (.launch 7 62 3) ∧
    decodeWord 0b0_0_1111111_0000000_0000010_1111100_00 0b0000000000000000000000_0000_001100 = .ok (.evsig (.reg 2) .zero) ∧
    decodeWord 0b0_0_1111111_0000001_0000010_0000000_00 0b0000000000000000001001_0011_001101 = .ok (.coll .maxI32 (some 1) 2 3) := by
  repeat' constructor

/-- What is no instruction (R34 to R36, R48): unassigned opcodes and subopcodes, reserved values, operand codes a class does not
list; a reserved value goes before an operand code. -/
theorem test_decode_refused :
    decodeWord 0b0_0_0100001_0000000_0000000_0000000_00 0 = .error .illegalInstruction ∧
    decodeWord 0b0_0_1011011_0000000_0000000_0000000_00 0 = .error .illegalInstruction ∧
    decodeWord 0b0_0_0000000_0000000_0000000_0000000_11 0 = .error .illegalInstruction ∧
    decodeWord 0b0_1_0001011_000_0000_0000000_0000000_00 0 = .error .illegalInstruction ∧
    decodeWord 0b0_0_1001010_0000000_0000000_0001000_00 0 = .error .illegalInstruction ∧
    decodeWord 0b0_0_0000000_1111111_0000000_0000000_00 0 = .error .illegalOperand ∧
    decodeWord 0b0_0_0000000_1111000_0000000_0000000_00 0 = .error .illegalOperand ∧
    decodeWord 0b0_0_0000000_1111111_0000000_0000000_11 0 = .error .illegalInstruction ∧
    decodeWord 0b0_0_0110011_1000000_0000000_0000000_00 0 = .error .illegalOperand ∧
    decodeWord 0b0_0_1000001_0000000_0111111_0000000_00 0 = .error .illegalOperand ∧
    decodeWord 0b0_0_1001011_0000000_0000_000000001101 0 = .error .illegalOperand ∧
    decodeWord 0b0_0_1111111_0000000_0000000_0000000_00 14 = .error .illegalInstruction ∧
    decodeWord 0b0_1_1100110_0000000_0000000_00000_0000 1 = .error .illegalInstruction := by
  repeat' constructor

/-- The host's numbering: a word of 32 bits, its packet's other words and its sill 0 (R27, R44). -/
theorem test_table_word : decodeTableWord 32 0b0_0_0000000_0000001_0000010_0000011_00 =
    some (.iadd false .wrap (.reg 1) (.reg 2) (.reg 3)) ∧ decodeTableWord 32 0b0_0_0100001_0000000_0000000_0000000_00 = none := by
  constructor <;> rfl

/-! ### A small machine: object 0 of partition 1 from virtual address 0, and a pane that has a capability for all of it -/

/-- A capability for a run of object 0 with every right. -/
def capFor (base len : Nat) : Cap := ⟨true, BitVec.ofNat 128 (base + len * 2 ^ 56 + 0xFF * 2 ^ 96 + 2 ^ 104)⟩

/-- The machine with a pane, changed. -/
def on (f : Pane → Pane) : State := onPane (fun p => f { p with c := List.replicate 32 (capFor 0 65536) }) (State.reset.boot 0)

def st : State := on id

/-- Bytes at a virtual address of object 0, written under the partition's key. -/
def put (s : State) (a : Nat) (b : List Byte) : State :=
  { s with dm := Mem.writeN s.dm (65536 + a) b,
           lineKey := (List.range ((a + b.length - 1) / 64 + 1 - a / 64)).foldl
             (fun t i => Tab.set t (1024 + a / 64 + i) (1, 0)) s.lineKey }

/-- Lines of zeros of object 0 under the partition's key. -/
def keyed (s : State) (a n : Nat) : State :=
  { s with lineKey := (List.range (n / 64)).foldl (fun t i => Tab.set t (1024 + a / 64 + i) (1, 0)) s.lineKey }

def put32 (s : State) (a : Nat) (l : List Nat) : State := put s a (l.map (toBytes 4)).flatten

def regs (l : List (Nat × Nat)) (p : Pane) : Pane := { p with s := l.foldl (fun s e => setAt s e.1 (BitVec.ofNat 32 e.2)) p.s }

theorem pairWith {α β : Type} {x : α × β} {y : β} {P : α → Prop} (h : x.2 = y) (hp : P x.1) : ∃ u, x = (u, y) ∧ P u :=
  ⟨x.1, by cases h; rfl, hp⟩

theorem someWith {α β : Type} {x : Option (α × β)} {y : β} {P : α → Prop} (h : x.map Prod.snd = some y)
    (hp : ∀ u ∈ x.map Prod.fst, P u) : ∃ u, x = some (u, y) ∧ P u := by
  obtain _ | ⟨a, b⟩ := x
  · cases h
  · simp at h hp
    exact ⟨a, by rw [h], hp⟩

def presIs {α β : Type} [DecidableEq β] (x : α × PRes β) (y : β) : Bool :=
  match x.2 with
  | .ok b => decide (b = y)
  | _ => false

theorem presWith {α β : Type} [DecidableEq β] {x : α × PRes β} {y : β} {P : α → Prop} (h : presIs x y = true) (hp : P x.1) :
    ∃ u, x = (u, .ok y) ∧ P u := by
  obtain ⟨u, r⟩ := x
  unfold presIs at h
  split at h
  · next b hb =>
    have := of_decide_eq_true h
    subst this
    exact ⟨u, by simp_all, hp⟩
  · cases h

/-! ### States and operands that meet the statements' hypotheses: register words -/

/-- The register files of the pane: its last registers, lanes and bits. -/
theorem wit_register_files : 6 < st.pane.p.length ∧ st.pane.s.length = 64 ∧ 119 < st.pane.v.length ∧ 31 < (st.pane.v.getD 119 []).length ∧
    (31 : Nat) < 32 := by decide

theorem wit_divide_zero : (VSrc.zero).val st.pane 0 = 0 ∧ (VSrc.lit 3).val st.pane 31 ≠ 0 := by decide

theorem wit_divide_overflow : (VSrc.lit 0x80000000).val st.pane 31 = 0x80000000 ∧ (VSrc.lit 0xFFFFFFFF).val st.pane 31 = 0xFFFFFFFF := by
  decide

theorem wit_divide_signed : (VSrc.lit 0xFFFFFFFF).val st.pane 0 ≠ 0 ∧
    ¬ ((VSrc.lit 0x80000001).val st.pane 0 = 0x80000000 ∧ (VSrc.lit 0xFFFFFFFF).val st.pane 0 = 0xFFFFFFFF) := by decide

theorem wit_nans : IsNan 0x7F800001 ∧ IsSnan 0xFFBFFFFF ∧ IsNan 0xFFFFFFFF ∧ ¬ IsSnan 0x7FC00000 ∧ ¬ IsNan 0x7F800000 ∧
    (0x80000000 : Word) &&& 0x7FFFFFFF = 0 ∧ (0xFF800000 : Word) &&& 0x7FFFFFFF = 0x7F800000 ∧
    (0x7F800000 : Word) = 0xFF800000 ^^^ 0x80000000 := by
  simp only [IsNan, IsSnan]
  decide

theorem wit_overflow : 0 < 1 ∧ 128 ≤ (Nat.log2 1 : Int) + 128 ∧ 0 < 0xFFFFFF ∧ 128 ≤ (Nat.log2 0xFFFFFF : Int) + 105 := by decide

/-- Exact values and finite patterns at the ends of their ranges. -/
theorem wit_float_values : F32 ∈ [F32, F16, BF16, F8E4, F8E5] ∧ F8E5 ∈ [F32, F16, BF16, F8E4, F8E5] ∧ 0 < 1 ∧ IsFinite F32 0x7F7FFFFF ∧
    IsFinite F32 0x80000001 ∧ ¬ IsFinite F32 0x7F800000 ∧ 0x4B000000 ≤ ((0xCB000000 : Word) &&& 0x7FFFFFFF).toNat ∧
    ((0x4AFFFFFF : Word) &&& 0x7FFFFFFF).toNat < 0x4B000000 := by
  simp only [IsFinite]
  decide

/-- Half-word patterns: the largest finite ones of both formats, and the first NaNs. -/
theorem wit_half_values : IsFinite F16 0x7BFF ∧ IsFinite BF16 0x7F7F ∧ IsFinite F16 0x8001 ∧ (2 ^ 5 - 1) * 2 ^ 10 < 0x7C01 % 32768 ∧
    (2 ^ 8 - 1) * 2 ^ 7 < 0xFF81 % 32768 ∧ (0xFFFF : Nat) < 65536 ∧ (0 : Nat) < 65536 := by
  simp only [IsFinite]
  decide

/-- Conversions between floating formats and into an integer format; a NaN, both infinities, the largest E8M0. -/
theorem wit_cvt_values : cvtFmt .f8e5 = some F8E5 ∧ cvtFmt .f32 = some F32 ∧ IsFinite F8E5 (0x17B % 2 ^ (1 + F8E5.eb + F8E5.fb)) ∧
    cvtInt .i32 = some (true, 32) ∧ IsFinite F32 (0xCF000000 : Word).toNat ∧ IsNan 0x7F800001 ∧
    ((0xFF800000 : Word) &&& 0x7FFFFFFF).toNat = 0x7F800000 ∧ (0x1FF : Word).toNat % 256 = 255 ∧ (0x1FE : Word).toNat % 256 < 255 := by
  simp only [IsFinite, IsNan]
  decide

theorem wit_count_reserved : (3 : Nat) < 128 ∧ (127 : Nat) < 128 ∧ 3 ≤ 3 ∧ (1 : Nat) < 4 ∧ (1 : Nat) ≠ 0 := by decide

/-! ### Control, masks and predicates -/

def entryOn (e : Entry) : State := on (fun p => { p with stack := [e], deep := 1 })

def callEntry : Entry := ⟨0xFF, 5, 2, .call, 0, 0⟩
def joinEntry (f : Word) : Entry := ⟨0xFF, 5, 0, .join, 0, f⟩
def loopEntry (n : Word) : Entry := ⟨0xFF, 1, 0, .loop, 0, n⟩
def trapEntry' (c : BitVec 8) : Entry := ⟨0xFF, 5, 2, .trap, c, 0⟩
def inLoop (n : Word) : State := on (fun p =>
  { p with stack := [loopEntry n], deep := 1, lbuf0 := some ⟨1, 2, [.none, .inc 3, .addNext 4, .dec 63]⟩, pc := 0x28 })

theorem wit_branch_taken : (7 : PReg).val = 7 ∧ (∀ e ∈ st.pane.stack.head?, e.kind ≠ .loop) ∧
    st.pane.sreg 62 &&& 3 = 0 ∧ st.pane.sreg 62 &&& 12 ≠ 12 := by decide

theorem wit_branch_not_taken : ¬ ((0 : PReg).val = 7 ∨ st.pane.preg (0 : PReg).val &&& st.pane.xm ≠ 0) := by decide

theorem wit_brx_traps : (on (regs [(0, 2)])).pane.sreg 0 &&& 3 ≠ 0 ∧
    (on (regs [(0, 12)])).pane.sreg 0 &&& 3 = 0 ∧ (on (regs [(0, 12)])).pane.sreg 0 &&& 12 = 12 := by decide

theorem wit_branch_in_loop : (inLoop 3).pane.stack = [loopEntry 3] ∧ (loopEntry 3).kind = .loop ∧ (loopEntry 3).slot ≠ 3 ∧
    (inLoop 3).pane.loopHeld (loopEntry 3) = some ⟨1, 2, [.none, .inc 3, .addNext 4, .dec 63]⟩ ∧ CanPop (inLoop 3).pane 1 := by
  unfold CanPop
  decide

theorem wit_call_none : (0 : PReg).val ≠ 7 ∧ st.pane.xm &&& st.pane.preg (0 : PReg).val = 0 := by decide

theorem wit_call : HasRoom st.pane ∧ (7 : PReg).val = 7 := by
  unfold HasRoom
  decide

theorem wit_ret : (entryOn callEntry).pane.stack = [callEntry] ∧ callEntry.kind = .call ∧ callEntry.slot ≠ 3 ∧
    CanPop (entryOn callEntry).pane 1 := by
  unfold CanPop
  decide

theorem wit_ret_mismatch : (∀ e ∈ st.pane.stack.head?, e.kind ≠ .call) ∧
    ∀ e ∈ (entryOn (joinEntry 0)).pane.stack.head?, e.kind ≠ .call := by decide

theorem wit_split : (let t := if (7 : PReg).val = 7 then st.pane.xm else st.pane.xm &&& st.pane.preg 7
    t ≠ 0) ∧ st.pane.xm &&& st.pane.preg (0 : PReg).val = 0 := by decide

theorem wit_join : (entryOn (joinEntry 0xF0)).pane.stack = [joinEntry 0xF0] ∧ (joinEntry 0xF0).kind = .join ∧
    (joinEntry 0xF0).slot ≠ 3 ∧ (joinEntry 0xF0).aux ≠ 0 ∧ (joinEntry 0).aux = 0 ∧ CanPop (entryOn (joinEntry 0)).pane 1 ∧
    (∀ e ∈ (entryOn callEntry).pane.stack.head?, e.kind ≠ .join) := by
  unfold CanPop
  decide

theorem wit_break_lanes : st.pane.xm &&& ~~~(st.pane.preg (0 : PReg).val) ≠ 0 ∧ (st.pane.xm &&& ~~~(0xFFFFFFFF : Word)) = 0 ∧
    (∀ e ∈ (entryOn callEntry).pane.stack.head?, e.kind ≠ .join ∧ e.kind ≠ .loop) := by decide

theorem wit_loop_third : ∃ e, (entryOn { loopEntry 3 with aux := 0x10003 }).pane.stack.head? = some e ∧ e.kind = .loop ∧
    bit e.aux 16 = true := ⟨_, rfl, rfl, by decide⟩

theorem wit_loop_bad : [LoopInc.none, .none, .none, .bad 127].any LoopInc.isBad = true ∧
    [LoopInc.none, .inc 63, .addNext 62, .dec 0].any LoopInc.isBad = false := by decide

theorem wit_loop : (∀ e ∈ (inLoop 3).pane.stack.head?, e.kind = .loop → bit e.aux 16 = false) ∧
    min ((SOpt.zero).val (inLoop 3).pane).toNat 65535 = 0 ∧
    min ((SOpt.reg 0).val (on (regs [(0, 65536)])).pane).toNat 65535 = 65535 ∧ HasRoom (on (regs [(0, 65536)])).pane := by
  unfold HasRoom
  decide

theorem wit_loop_pass : let s := { inLoop 2 with after := 0x30 }
    let e := loopEntry 2
    s.pane.exiting = false ∧ s.pane.nextPc = none ∧ s.pane.stack = [e] ∧ s.pane.deep = ([] : List Entry).length + 1 ∧ s.pane.saveBad = 0 ∧
    s.pane.s.length = 64 ∧ e.kind = .loop ∧ e.slot = 0 ∧ s.pane.loopHeld e = some ⟨1, 2, [.none, .inc 3, .addNext 4, .dec 63]⟩ ∧
    s.after = ((1 : BitVec 52) + BitVec.ofNat 52 2).setWidth 56 <<< 4 ∧ (∀ f ∈ ([] : List Entry).head?, f.kind ≠ .loop) ∧
    e.aux.setWidth 16 ≠ (1 : BitVec 16) ∧ (loopEntry 1).aux.setWidth 16 = (1 : BitVec 16) := by decide

theorem wit_csr_locked : 16 < (on (fun p => { p with deep := 17 })).pane.deep ∧ ¬ (16 < (on (fun p => { p with deep := 16 })).pane.deep) ∧
    st.pane.core < 2048 ∧ st.pane.depth < 16 ∧ st.pane.npane < 32 ∧ st.pane.pord < 32 ∧ st.pane.place = .resident 0 := by decide

theorem wit_exit : (on (fun p => { p with exiting := true })).pane.exiting = true ∧
    ∀ q ∈ Tab.vals (on (fun p => { p with exiting := true })).panes, q.pid ≠ st.pane.pid := by decide

theorem wit_yield : st.pane.wait ≠ .begun ∧ (on (fun p => { p with wait := .begun })).pane.wait = .begun ∧
    st.pane.core ≠ noCore ∧ st.pane.prio < (st.core st.pane.core).queues.length := by decide

theorem wit_trap_room : TrapRoom st.pane ∧ st.pane.trapvecH.toNat % 2 ^ 24 * 2 ^ 32 + st.pane.trapvecL.toNat / 16 * 16 = 0 ∧
    (on (fun p => { p with trapvecL := 0x40 })).pane.trapvecL.toNat / 16 * 16 ≠ 0 := by
  unfold TrapRoom
  decide

theorem wit_rtt : (entryOn (trapEntry' 0x0A)).pane.stack = [trapEntry' 0x0A] ∧ (trapEntry' 0x0A).kind = .trap ∧
    (trapEntry' 0x0A).slot ≠ 3 ∧ CanPop (entryOn (trapEntry' 0x0A)).pane 1 ∧ (∀ f ∈ ([] : List Entry).head?, f.kind ≠ .loop) ∧
    (∀ e ∈ st.pane.stack.head?, e.kind ≠ .trap) := by
  unfold CanPop
  decide

/-! ### Lanes and special functions -/

def xmOnly (x : Word) : State := on (fun p => { p with xm := x })

theorem wit_reorder_rank : let p := (xmOnly 0xA).pane
    (3 < 32 ∧ p.active 3 = true) ∧ ((List.range 3).filter p.active).length = 1 := by decide

theorem wit_nzs : let p := (xmOnly 0xA).pane
    let x := fun L => (VSrc.lane).val p L
    (3 < 32 ∧ p.active 3 = true) ∧ x 3 ≠ 0 ∧ ((List.range 3).filter (fun M => p.active M && x M != 0)).length =
      ((List.range 3).filter p.active).length := by decide

theorem wit_rebal : let p := (xmOnly 0xA).pane
    let n := fun L => ((VSrc.lane).val p L).toNat
    let sum := fun L => (((List.range L).filter p.active).map n).sum
    sum 3 ≤ 1 ∧ 1 < sum 3 + n 3 ∧ sum 32 = 4 := by decide

theorem wit_sfn_issue : st.pane.tk.length = 16 ∧ st.pane.tk.getD (15 : Fin 16).val .free = .free ∧ st.pane.xm ≠ 0 ∧
    (((st.core st.pane.core).sfnQ.getD st.pane.sfnQueue []).filter (fun e => decide (st.cycle < e))).length < 4 ∧
    st.pane.sfnQueue < (st.core st.pane.core).sfnQ.length ∧ (xmOnly 0).pane.xm = 0 ∧
    (on (fun p => { p with tk := .done :: p.tk.tail })).pane.tk.getD 0 .free ≠ .free := by decide

/-- Four issues that have passes to make, and a fifth that has made its last. -/
theorem wit_sfn_full : let s := st.modCore 0 (fun c => { c with sfnQ := setAt c.sfnQ st.pane.sfnQueue [1, 2, 3, 4] })
    4 ≤ (((s.core s.pane.core).sfnQ.getD s.pane.sfnQueue []).filter (fun e => decide (s.cycle < e))).length ∧
    ¬ (4 ≤ (((({ s with cycle := 1 } : State).core s.pane.core).sfnQ.getD s.pane.sfnQueue []).filter (fun e => decide (1 < e))).length) := by decide

theorem wit_sfn_completion : let s := on (fun p => { p with tk := .pending (some 7) [(0, 5)] 0 0 :: .pending none [] 0 1 :: p.tk.tail.tail, wait := .begun })
    s.pane.tk[(0 : Fin 16).val]? = some (.pending (some 7) [(0, 5)] 0 0) ∧ 0 ≤ s.cycle ∧
    s.pane.tk[(1 : Fin 16).val]? = some (.pending none [] 0 1) ∧ s.cycle < 1 := by decide

theorem wit_waittk : let s := on (fun p => { p with tk := .done :: p.tk.tail, wait := .begun })
    s.pane.wait = .begun ∧ ∀ i d v f q, (1 : BitVec 16).getLsbD i = true → s.pane.tk.getD i .free ≠ .pending d v f q := by
  refine ⟨rfl, fun i d v f q h => ?_⟩
  have : i = 0 := by
    by_contra hi
    simp [BitVec.getLsbD_one] at h
    omega
  subst this
  exact fun h => Tok.noConfusion h

/-! ### Memory words -/

theorem wit_can_send : CanSend st {} (some 15) true ∧ CanSend st { ord := .ar, scope := .sys } none true ∧ st.pane.xm ≠ 0 := by
  unfold CanSend
  decide

theorem wit_cap_admits : CapAdmits st.pane 31 0xFF := by
  unfold CapAdmits
  decide

/-- The last word of the object, and lanes at every offset. -/
theorem wit_lanes_fit : LanesFit (xmOnly 0x80000001).pane {} (.lit 65532) 0 ∧ LanesFit st.pane { scale := 2 } .lane 0 := by
  unfold LanesFit Act
  constructor
  all_goals
    intro L h
    have hL := h.1
    clear h
    revert L
    decide

/-- A team's scratchpad and a slice of the partition. -/
def theTeam : Team := { grid := 1, ord := 0, part := 1, home := some 0, spds := 0, scratch := 256 }

def inTeam : State :=
  { on (fun p => { p with grid := 1 }) with
    teams := [(teamKey 1 0, theTeam)],
    parts := [(1, { groups := 1 })] }

theorem wit_scratch_fits : ScratchFits inTeam {} (.lit 252) 0 ∧ SliceFits inTeam {} (.lit 0x0) 0 := by
  unfold ScratchFits SliceFits Act
  constructor
  all_goals
    intro L h
    have hL := h.1
    clear h
    revert L
    decide

theorem wit_slice_last : SliceFits (onPane (regs [(0, 0x3BFFFFC)]) inTeam) {} .zero 0 := by
  unfold SliceFits Act
  all_goals
    intro L h
    have hL := h.1
    clear h
    revert L
    decide

theorem wit_run_ok : (VSrc.zero).runOk (modOf none).size.regs = true ∧ (VSrc.reg 116).runOk 4 = true := by decide

theorem wit_prefetch : CanSend st (modOf none) none false ∧ (modOf none).ord = .none ∧ (st.pane.creg 0).base % 64 = 0 ∧
    64 ≤ (st.pane.creg 0).len := by
  unfold CanSend
  decide

theorem wit_granule : (capFor 0 65536).base + 65520 = 65520 ∧ 65520 % 16 = 0 ∧ 65520 + 16 ≤ (capFor 0 65536).len ∧
    (capFor 0 65536).rights.getLsbD 7 = true ∧ ((on (fun p => p.cset 3 ((capFor 0 16).withRights 1))).pane.creg 3).rights.getLsbD 7 = false := by
  decide

theorem wit_derivation : let p := (on (regs [(0, 16), (1, 65520), (2, 17), (3, 0x80000000)])).pane
    (p.creg 0).tag = true ∧ (p.sreg 0).toNat + (p.sreg 1).toNat ≤ (p.creg 0).len ∧ (p.creg 0).base + (p.creg 0).len ≤ 2 ^ 56 ∧
    (p.creg 0).len < (p.sreg 2).toNat + (p.sreg 1).toNat ∧ bit (p.sreg 3) 31 = true ∧
    ((on (fun p => p.cset 4 {})).pane.creg 4).tag = false := by decide

/-- Each kind of failing check (R157): no tag, another key, a right missing, a misaligned lane 3, lane 3 past the end. -/
theorem wit_memory_checks : st.memMayIssue = true ∧ (xmOnly 0).pane.xm = 0 ∧
    ((on (fun p => p.cset 1 { capFor 0 64 with tag := false })).pane.creg 1).tag = false ∧
    ((on (fun p => { p with part := 2 })).pane.creg 1).key ≠ 2 ∧
    (2 : BitVec 8) &&& ~~~((capFor 0 64).withRights 0xFD).rights ≠ 0 := by decide

theorem wit_misaligned_lane : Act (xmOnly 0x18).pane 3 ∧
    ((xmOnly 0x18).pane.creg 0).base + offsetOf (xmOnly 0x18).pane {} .lane 3 = 3 ∧ 3 % MSize.w.bytes ≠ 0 ∧
    (∀ k, k < 3 → (xmOnly 0x18).pane.active k = true → k % MSize.w.bytes = 0) := by
  unfold Act
  decide

theorem wit_out_of_bounds : let p := (on (fun p => { p with xm := 0x18, c := List.replicate 32 (capFor 0 15) })).pane
    Act p 3 ∧ CapAdmits p 0 2 ∧ (p.creg 0).len < offsetOf p { scale := 2 } .lane 3 + MSize.w.bytes ∧
    (∀ L, Act p L → ((p.creg 0).base + offsetOf p { scale := 2 } .lane L) % MSize.w.bytes = 0) ∧
    (∀ k, k < 3 → p.active k = true → offsetOf p { scale := 2 } .lane k + MSize.w.bytes ≤ (p.creg 0).len) := by
  unfold Act CapAdmits
  refine ⟨by decide, by decide, by decide, ?_, by decide⟩
  rintro L ⟨hL, -⟩
  revert L
  decide

theorem wit_waitac : let p := (on (fun p => { p with wait := .begun, ac := 3 :: p.ac.tail, acData := 1 })).pane
    p.wait = .begun ∧ (p.ac.getD (0 : Fin 16).val 0).toNat ≤ (3 : BitVec 8).toNat ∧ (2 : BitVec 8).toNat < (p.ac.getD 0 0).toNat ∧
    p.acData.getLsbD (0 : Fin 16).val = true ∧
    ¬ (p.acData.getLsbD (1 : Fin 16).val = true ∨ p.acEng.getLsbD (1 : Fin 16).val = true) := by decide

/-! ### Barriers, waits on memory, spawn bins, residency, fetches -/

theorem wit_team_barrier : inTeam.team inTeam.pane.grid inTeam.pane.team = some theTeam ∧ theTeam.bars.length = 16 ∧
    inTeam.pane.barRec.length = 16 ∧ (∀ r, SOpt.zero = .reg r → 1 ≤ (inTeam.pane.sreg r.val).toNat ∧
      (inTeam.pane.sreg r.val).toNat ≤ inTeam.pane.npane + 1) ∧
    inTeam.quiet inTeam.pane.pid inTeam.nextRid = true ∧ inTeam.pane.wait ≠ .begun ∧
    inTeam.pane.barRec.getD (3 : Fin 16).val none ≠ some (theTeam.bars.getD (3 : Fin 16).val {}).phase :=
  ⟨by decide, by decide, by decide, fun _ h => SOpt.noConfusion h, by decide, by decide, by decide⟩

theorem wit_team_barrier_count : ¬ (∀ r, SOpt.reg 0 = .reg r → 1 ≤ (inTeam.pane.sreg r.val).toNat ∧
      (inTeam.pane.sreg r.val).toNat ≤ inTeam.pane.npane + 1) ∧
    1 ≤ ((onPane (regs [(0, 1)]) inTeam).pane.sreg 0).toNat ∧ ((onPane (regs [(0, 1)]) inTeam).pane.sreg 0).toNat ≤ inTeam.pane.npane + 1 :=
  ⟨fun h => absurd (h 0 rfl).1 (by decide), by decide, by decide⟩

theorem wit_team_wait : let s := onPane (fun p => { p with wait := .begun, barRec := some 0 :: p.barRec.tail }) inTeam
    s.pane.wait = .begun ∧ s.pane.barRec.getD (0 : Fin 16).val none = some (({} : Bar)).phase := by decide

theorem wit_cluster_barrier : (inTeam.clBars (inTeam.pane.core / 6) inTeam.pane.part).length = 16 ∧ (inTeam.die 0).cls.length = 4 ∧
    (inTeam.cluster 0).failed = false ∧ inTeam.pane.clbRec.length = 16 ∧ ¬ (0 < (({} : Bar)).count) ∧
    1 ≤ ((onPane (regs [(0, 192)]) inTeam).pane.sreg 0).toNat ∧ ((onPane (regs [(0, 192)]) inTeam).pane.sreg 0).toNat ≤ 192 := by decide

/-- A phase of another grid is open: the arrival waits. -/
theorem wit_cluster_taken : let s := inTeam.modCluster 0 (fun c => { c with sets := [(1, ({ count := 1, grid := 9 } : Bar) ::
      List.replicate 15 {})] })
    0 < ((s.clBars 0 1).getD (0 : Fin 16).val {}).count ∧ ((s.clBars 0 1).getD (0 : Fin 16).val {}).grid ≠ s.pane.grid ∧
    (s.clBars 0 1).length = 16 := by decide

theorem wit_cluster_wait : let s := onPane (fun p => { p with wait := .begun, clbRec := some 0 :: p.clbRec.tail }) inTeam
    s.pane.wait = .begun ∧ s.pane.clbRec.getD (0 : Fin 16).val none = some ((s.clBars 0 1).getD (0 : Fin 16).val {}).phase ∧
    s.pane.clbRec.getD (1 : Fin 16).val none = none := by decide

theorem wit_waitmem : st.pane.wait = .none ∧ CapAdmits st.pane 0 1 ∧
    ((st.pane.creg 0).base + ((SSrc.lit 65532).val st.pane).toNat) % 4 = 0 ∧ ((SSrc.lit 65532).val st.pane).toNat + 4 ≤ (st.pane.creg 0).len ∧
    ((st.pane.creg 0).base + ((SSrc.lit 65533).val st.pane).toNat) % 4 ≠ 0 ∧
    st.watches st.pane.core < 32 ∧ st.tableRefuses (dieOf st.pane.core) st.pane.part (st.pane.creg 0).obj 65532 = false := by
  unfold CapAdmits
  decide +kernel

def theWatch : Watch := { addr := 64, obj := 0, expect := 7, d := some 5, until_ := some 0 }

def watching : State := put (on (fun p => { p with place := .parked .waitmem, wait := .begun, watch := some theWatch })) 64 [1, 0, 0, 0]

def watchU : State := (watching.unitObj watching.pane.watchVia 0 64).1

theorem wit_waitmem_wake : watching.pane.watch = some theWatch ∧ watching.pane.place = .parked .waitmem ∧
    watching.watchBlocked watching.pane theWatch = false ∧
    watching.parkedAt (dieOf watching.pane.core) watching.pane.part theWatch.obj none theWatch.addr 4 = false ∧
    watching.unitObj watching.pane.watchVia 0 64 = (watchU, .ok (65600, false)) ∧
    (∃ v, watchU.dieRead watching.pane.watchVia false 65600 4 false = (v, .ok [1, 0, 0, 0]) ∧ v.pane = watching.pane) ∧
    theWatch.looked = false ∧ BitVec.ofNat 32 (ofBytes [1, 0, 0, 0]) ≠ theWatch.expect :=
  ⟨rfl, rfl, by decide +kernel, by decide +kernel, Prod.ext rfl (by decide +kernel), presWith (by decide +kernel) (by decide +kernel), rfl, by decide⟩

/-- A watch that is woken, by its release or by a write; one that has found its word equal. -/
theorem wit_waitmem_woken : (({ theWatch with due := true } : Watch).due = true) ∧ (({ theWatch with got := some 9 } : Watch).got.isSome = true) ∧
    BitVec.ofNat 32 (ofBytes [1, 0, 0, 0]) = ({ theWatch with expect := 1 } : Watch).expect ∧
    ¬ (({ theWatch with looked := true } : Watch).due = true ∨ ({ theWatch with looked := true } : Watch).got.isSome = true) := by decide

theorem wit_waitmem_timeout : theWatch.due = false ∧ theWatch.got = none ∧ theWatch.until_ = some 0 ∧ 0 ≤ watching.cycle := by decide

def theGrid : Grid :=
  { part := 1, prio := 0, depth := 1, parent := none, entry := 64, nteam := 1, npm1 := 0, ftz := false, mxsat := false, stklim := 0,
    stksave := 0, psave := 0, psaven := 4, tsave := 0, tsaven := 4, sstk := 0, sstkn := 0, hint := 0, args := [], caps := [],
    wctr := [0xFFFF], wval := [0], sigctr := 0xFFFF, siginc := 0, regs := 8, scratch := 128, trapvec := 0, started := true }

def inGrid : State := { inTeam with grids := [(1, theGrid)] }

theorem wit_spawn : let p := (onPane (regs [(0, 64), (2, 65)]) inGrid).pane
    p.xm ≠ 0 ∧ inGrid.memMayIssue = true ∧ p.sreg 0 &&& 15 = 0 ∧ p.sreg 2 &&& 15 ≠ 0 ∧
    (inGrid.core p.core).pathHeld inGrid.cycle false (64, 1) ((activeLanes p).map (fun L => (threadWords p 0 0 L, none))) = false := by decide +kernel

/-- The formation path holds a pane, and a bin of the key has room for one thread. -/
theorem wit_spawn_held : let c : Core := { forming := [⟨64, 1, []⟩], bins := { key := some (64, 1), threads := List.replicate 31 ([], none) } :: List.replicate 15 {} }
    c.pathHeld 0 false (64, 1) (List.replicate 2 ([], none)) = true := by decide +kernel

/-- One thread that joins a bin, one that takes the lowest free bin, and one that fills a bin. -/
def oldBins : List Bin := { key := some (64, 1), threads := [([], none)] } :: List.replicate 15 {}

theorem wit_spawn_joins : oldBins.length = 16 ∧ (∀ k, k < 16 → (oldBins.getD k {}).threads.length < 32) ∧ (oldBins.getD 0 {}).key = some (64, 1) ∧
    (∀ k, k < 16 → k ≠ 0 → (oldBins.getD k {}).key ≠ some (64, 1)) ∧ oldBins.getD 1 {} = {} ∧ (oldBins.getD 0 {}).key ≠ none ∧
    (List.replicate 31 (([], none) : List Word × Option Nat)).length + 1 = 32 :=
  ⟨rfl, by decide, rfl, by decide, rfl, by decide, rfl⟩

/-- A bin whose timer is over. -/
theorem wit_bin_timer : let s := inGrid.modCore 0 (fun c => { c with bins := setAt c.bins 15 { key := some (64, 1), threads := [([], none)] } })
    ((s.core 0).bins.getD 15 {}).key = some (64, 1) ∧ ((s.core 0).bins.getD 15 {}).threads ≠ [] ∧
    ((s.core 0).bins.getD 15 {}).threads.length ≤ 32 ∧ (s.core 0).pend = [] ∧
    ((s.core 0).bins.getD 15 {}).ends ≤ s.cycle ∧ (s.core 0).forming = [] ∧ 15 < (s.core 0).bins.length := by decide

/-- A formation of 32 threads at an entry whose header stands before it. -/
def forming : State := (put32 inGrid 0 [0x4B480008, 128, 0, 0]).modCore 0 (fun c =>
  { c with forming := [⟨64, 1, List.replicate 32 ([1, 2], none)⟩] })

theorem wit_formation : (forming.core 0).forming = [⟨64, 1, List.replicate 32 ([1, 2], none)⟩] ∧ Tab.find forming.grids 1 = some theGrid ∧
    (∃ u, forming.readKernel { who := .kernel 0, die := 0, part := theGrid.part, hold := true, again := true, core := some 0 } 64 = (u, .ok ⟨8, 128, 0, 0⟩) ∧
      (u.formationRoom 0 theGrid ⟨8, 128, 0, 0⟩ = some (0, 256, none) ∧ u.pane.pid ≠ u.nextPid)) ∧ theGrid.prio < 8 :=
  ⟨rfl, rfl, pairWith (by decide +kernel) (by decide +kernel), by decide⟩

/-- A ready pane of the grid, pid 9. -/
def ready : Pane := { inGrid.pane with pid := 9, place := .ready }

def withReady : State := { inGrid with panes := [(9, ready)] }.modCore 0 (fun c => { c with queues := [9] :: c.queues.tail })

/-- Slot 1 is the lowest that the ready pane can take: the other pane stands in slot 0. -/
theorem wit_slot_grant : (withReady.core 0).part ≠ 0 ∧ (withReady.core 0).out = false ∧ (withReady.core 0).headQueue = [ready.pid] ∧
    withReady.getPane ready.pid = some ready ∧ ready.moving = false ∧ ready.core = 0 ∧ withReady.slotPane 0 1 = none ∧
    ready.mx.tileSet = none ∧ withReady.blocksUsed 0 + ready.nregs / 8 ≤ 384 ∧ withReady.tilesUsed 0 0 < 16 ∧
    withReady.slotPane 0 0 ≠ none := by
  decide +kernel

/-- Sixteen parked panes hold the tile sets of engine 0, sixteen those of engine 1: the first of them begins to leave. -/
def tilesHeld : State :=
  { withReady with panes := (9, ready) :: (List.range 32).map (fun k =>
      (k + 100, { inGrid.pane with pid := k + 100, place := .parked .waitmem, nregs := 8, mx := { inGrid.pane.mx with tileSet := some (k / 16) } })) }

theorem wit_slot_moves_out : ∃ v vs u, (tilesHeld.core 0).part ≠ 0 ∧ (tilesHeld.core 0).out = false ∧ (tilesHeld.core 0).headQueue = [ready.pid] ∧
    tilesHeld.getPane ready.pid = some ready ∧ (tilesHeld.freeSlots 0).any ready.engineOk = true ∧ tilesHeld.slotFor ready = none ∧
    tilesHeld.movable 0 = v :: vs ∧ tilesHeld.coveredIn ready (tilesHeld.freeSlots 0) = false ∧ tilesHeld.helps ready v = true ∧
    v.restoring = false ∧ tilesHeld.getPane v.pid = some v ∧ tilesHeld.beginLeave v.pid = some u ∧
    u.coveredIn ready (u.freeSlots 0) = true :=
  ⟨(tilesHeld.movable 0).headD ready, (tilesHeld.movable 0).tail, (tilesHeld.beginLeave ((tilesHeld.movable 0).headD ready).pid).getD st,
    by decide +kernel, by decide +kernel, by decide +kernel, by decide +kernel, by decide +kernel, by decide +kernel, by decide +kernel,
    by decide +kernel, by decide +kernel, by decide +kernel, by decide +kernel, by decide +kernel, by decide +kernel⟩

/-- Every slot is taken, and a pane of priority 1 is ready. -/
def fullCore : State :=
  { inGrid with panes := (List.range 31).map (fun k => (k + 1, { inGrid.pane with pid := k + 1, place := .resident (k + 1), nregs := 8 })) ++
      [(40, { inGrid.pane with pid := 40, place := .ready, prio := 1, nregs := 8 })] }.modCore 0 (fun c =>
    { c with queues := [] :: [40] :: c.queues.tail.tail })

def risen : Pane := { inGrid.pane with pid := 40, place := .ready, prio := 1, nregs := 8 }

theorem wit_displacement : (fullCore.core 0).out = false ∧ fullCore.waiters 0 = [risen] ∧ risen.core = 0 ∧
    fullCore.coveredIn risen (fullCore.slotsSoon 0) = false ∧ fullCore.canMoveOut risen = false ∧ inGrid.pane ∈ fullCore.corePanes 0 ∧
    inGrid.pane.moving = false ∧ inGrid.pane.prio < risen.prio ∧ inGrid.pane.place.slot = some 0 ∧ risen.engineOk 0 = true ∧
    (∀ q ∈ fullCore.corePanes 0, q.place.slot.isSome = true → q.pid ≠ inGrid.pane.pid →
      inGrid.pane.prio < q.prio ∨ (inGrid.pane.prio = q.prio ∧ longerResident inGrid.pane q = true)) ∧
    (fullCore.beginLeave inGrid.pane.pid).isSome = true := by decide +kernel

theorem wit_quantum : (({ st with cycle := 65536 } : State).core 0).lastTick < ({ st with cycle := 65536 } : State).cycle / 65536 ∧
    (Residents inGrid 0 0).length = 1 := by
  simp only [Residents]
  decide

/-- The lowest save record is free; every one is taken. -/
theorem wit_leave : inGrid.getPane inGrid.pane.pid = some inGrid.pane ∧ inGrid.pane.moving = false ∧ inGrid.pane.restoring = false ∧
    Tab.find inGrid.grids inGrid.pane.grid = some theGrid ∧ 3 < theGrid.psaven ∧ 3 ∉ [0, 1, 2] ∧ (∀ j, j < 3 → j ∈ [0, 1, 2]) ∧
    (∀ r, r < theGrid.psaven → r ∈ [3, 1, 2, 0]) := by decide

theorem wit_restore : let s := on (fun p => { p with restoring := true })
    s.pane.restoring = true ∧ (s.die (dieOf s.pane.core)).covers s.pane.clock = true := by decide

def leaving : State := onPane (fun p => { p with moving := true, saveRec := some 0 }) inGrid

theorem wit_save : leaving.pane.moving = true ∧ leaving.departReady leaving.pane = true ∧ leaving.pane.place = .resident 0 ∧
    leaving.pane.waitOn = none ∧ (∃ u, leaving.areaOk { who := .save leaving.pane.pid, die := dieOf leaving.pane.core, part := leaving.pane.part, core := some leaving.pane.core }
      (((Tab.find leaving.grids leaving.pane.grid).map Grid.psave).getD 0 + 65536 * leaving.pane.saveRec.getD 0) 65536 = (u, .ok ()) ∧
      u.pane = leaving.pane ∧ (u.core leaving.pane.core).out = false) :=
  ⟨rfl, by decide, rfl, rfl, pairWith (by decide +kernel) (by decide +kernel)⟩

theorem wit_team_restore : let s := { inGrid with teams := [(teamKey 1 5, { theTeam with ord := 5, home := none })] }
    let tm : Team := { theTeam with ord := 5, home := none }
    Tab.find s.teams (teamKey 1 5) = some tm ∧ tm.home = none ∧ Tab.find s.grids tm.grid = some theGrid ∧
    s.placeCore theGrid tm.scratch (s.tied tm) = some 0 ∧ s.teamWaits theGrid.part theGrid.prio none (some (teamKey 1 5)) = false ∧
    s.scratchAt 0 tm.scratch = some 0 := by
  decide +kernel

theorem wit_fetch : st.pane.place.slot.isSome = true ∧ st.pane.restoring = false ∧ st.pane.ibuf = none ∧
    (∃ u, st.readPacket st.pane.fetchVia ((st.pane.pc >>> 4).setWidth 52) = (u, .ok ⟨0, 0, 0, 0, 0, false⟩) ∧ u.pane = st.pane) :=
  ⟨by decide, by decide, by decide, pairWith (by decide +kernel) (by decide +kernel)⟩

/-- A loop entry whose body follows a packet with a LOOP word, and whose values the buffer does not hold. -/
def refetch : State := put32 (on (fun p => { p with stack := [loopEntry 3], deep := 1 })) 0 [0x23801000]

theorem wit_refetch : refetch.pane.place.slot.isSome = true ∧ refetch.pane.restoring = false ∧ refetch.pane.moving = false ∧
    refetch.pane.stack = [loopEntry 3] ∧ refetch.pane.loopHeld (loopEntry 3) = none ∧
    (∃ u, refetch.readPacket refetch.pane.fetchVia ((loopEntry 3).pkt - 1) = (u, .ok ⟨0, 0x23801000, 0, 0, 0, false⟩) ∧
      u.pane = refetch.pane) ∧
    (⟨0, 0x23801000, 0, 0, 0, false⟩ : Packet).loop = some ⟨1, 2, [.none, .none, .none, .none]⟩ :=
  ⟨by decide, by decide, by decide, by decide, by decide, pairWith (by decide +kernel) (by decide +kernel), by decide⟩

def spilling : State := on (fun p => { p with stack := List.replicate 16 callEntry, deep := 16, stklim := 1, saveAcc := some (.spill false) })

theorem wit_spill : spilling.pane.saveAcc = some (.spill false) ∧ spilling.pane.pendTrap = none ∧
    spilling.quiet spilling.pane.pid spilling.nextRid = true ∧ spilling.pane.stack = List.replicate 15 callEntry ++ [callEntry] ∧
    (∃ u, spilling.writeVA spilling.pane.stackVia
      (spilling.pane.stksave + 16 * (spilling.pane.deep - spilling.pane.stack.length)) callEntry.bytes = (u, .ok ()) ∧ u.pane = spilling.pane) :=
  ⟨rfl, rfl, by decide, by decide, pairWith (by decide +kernel) (by decide +kernel)⟩

def refilling : State := put (on (fun p => { p with stack := [], deep := 1, saveAcc := some .refill })) 0 callEntry.bytes

theorem wit_refill : refilling.pane.saveAcc = some .refill ∧ refilling.quiet refilling.pane.pid refilling.nextRid = true ∧
    (∃ u, refilling.readVA refilling.pane.stackVia
      (refilling.pane.stksave + 16 * (refilling.pane.deep - refilling.pane.stack.length - 1)) 16 = (u, .ok callEntry.bytes) ∧
      u.pane = refilling.pane) :=
  ⟨rfl, by decide, pairWith (by decide +kernel) (by decide +kernel)⟩

/-! ### The matrix engines -/

/-- A layout of n units of w bytes, one behind the other from address 0, at team address 4096; a format block of zeros (FP16,
R187) at 4128. -/
def withLayout (n w : Nat) : State :=
  let s := onPane (fun p => { regs [(0, 4096), (1, 4128), (2, 4097), (3, 8192)] p with mx := { tileSet := some 0 } })
    { inTeam with teams := [(teamKey 1 0, { theTeam with scratch := 8192 })] }
  { s with ds := Mem.writeN s.ds 4096 ([0, n + w * 4096, 1, 1, 1, 0, 0, 0].map (toBytes 4)).flatten }

theorem wit_matrix_word : (withLayout 1024 4).pane.xm ≠ 0 ∧ (withLayout 1024 4).memMayIssue = true ∧ (withLayout 1024 4).pane.mx.units.length < 16 ∧
    (withLayout 1024 4).spSettled (withLayout 1024 4).pane.pid = true ∧ (xmOnly 0).pane.xm = 0 ∧
    16 ≤ (List.replicate 16 ({ kind := .mxclr, xm := 0 } : MUnit)).length := by decide

/-- What a matrix word leaves, and the unit it queues. -/
def after (i : Instr) (s : State) : State :=
  match exec i s with
  | .next t => t
  | _ => s

def runs (i : Instr) (s : State) : Bool :=
  match exec i s with
  | .next _ => true
  | _ => false

theorem runs_after {i : Instr} {s : State} (h : runs i s = true) : exec i s = .next (after i s) := by
  unfold runs at h
  unfold after
  split at h
  · next hx => rw [hx]
  · cases h

def lastUnit (s : State) : MUnit := s.pane.mx.units.getLast?.getD { kind := .mxclr, xm := 0 }

theorem wit_mxst : let s := withLayout 1024 4
    let t := after (.mxst 0 false) s
    exec (.mxst 0 false) s = .next t ∧ Queued s t (lastUnit t) := by
  refine ⟨runs_after (by decide +kernel), ?_⟩
  unfold Queued
  decide +kernel

theorem wit_mxst_records : let s := withLayout 1024 4
    let x := spNumber s s.pane (s.pane.sreg 0).toNat 32
    ((s.pane.sreg 0).toNat % 32 = 0 ∧ (s.pane.sreg 0).toNat + 32 ≤ s.scratch s.pane) ∧ LayoutValid x ∧
    extOf x 0 * extOf x 1 * extOf x 2 * extOf x 3 = 1024 ∧
    (∀ k, k < 1024 → 0 ≤ unitAddr x k ∧ unitAddr x k % (4 : Nat) = 0 ∧ unitAddr x k + (4 : Nat) ≤ s.scratch s.pane) := by
  unfold LayoutValid unitAddr
  decide +kernel

/-- Layouts that are misplaced, of no unit, of too few units, and with a unit past the allocation. -/
theorem wit_mxst_bad : (¬ (((withLayout 1024 4).pane.sreg 2).toNat % 32 = 0)) ∧
    (let s := withLayout 0 4; ¬ LayoutValid (spNumber s s.pane 4096 32)) ∧
    (let s := withLayout 1023 4; let x := spNumber s s.pane 4096 32
      LayoutValid x ∧ extOf x 0 * extOf x 1 * extOf x 2 * extOf x 3 ≠ 1024) ∧
    (let s := withLayout 1024 16; let x := spNumber s s.pane 4096 32
      LayoutValid x ∧ ¬ (unitAddr x 1023 + (4 : Nat) ≤ s.scratch s.pane)) := by
  unfold LayoutValid unitAddr
  decide +kernel

theorem wit_mma : let s := withLayout 512 2
    let t := after (.mma 112 0 true false) s
    let x := spNumber s s.pane 4096 32
    let f := spNumber s s.pane 4128 16
    exec (.mma 112 0 true false) s = .next t ∧ Queued s t (lastUnit t) ∧
    f % 8 < 2 ∧ f / 8 % 2 ^ 29 = 0 ∧ f / 2 ^ 96 = 0 ∧ extOf x 0 * extOf x 1 * extOf x 2 * extOf x 3 = 512 ∧
    (∀ k, k < 512 → 0 ≤ unitAddr x k ∧ unitAddr x k % (2 : Nat) = 0 ∧ unitAddr x k + (2 : Nat) ≤ s.scratch s.pane) ∧ s.pane.mx.coll = none := by
  refine ⟨runs_after (by decide +kernel), ?_⟩
  unfold Queued unitAddr
  decide +kernel

/-- Format blocks with FMT 3 and with a bit of APL beside FMT 0. -/
theorem wit_format_bad : 2 < 3 % 8 ∧ (8 : Nat) % 8 < 2 ∧ (8 : Nat) / 8 % 2 ^ 10 ≠ 0 ∧ (2 ^ 13 : Nat) / 2 ^ 13 % 2 ^ 19 ≠ 0 ∧
    ¬ (8192 % 16 = 0 ∧ 8192 + 16 ≤ (withLayout 512 2).scratch (withLayout 512 2).pane) := by decide

def unitsOn (us : List MUnit) : State := on (fun p =>
  { p with mx := { tileSet := some 0, units := us, openN := us.length } })

def mmaUnit (bad : Nat) : MUnit := { kind := .mma, xm := 0xFFFF0001, bad := bad, lay := { base := 0, dims := [(2, 512), (0, 1), (0, 1), (0, 1)] } }

theorem wit_tile_step : EngineHas (unitsOn [mmaUnit 0]) 0 0 (unitsOn [mmaUnit 0]).pane (mmaUnit 0) [] ∧
    EngineHas (unitsOn [mmaUnit 3]) 0 0 (unitsOn [mmaUnit 3]).pane (mmaUnit 3) [] ∧ (mmaUnit 0).fmt.fmt < 2 ∧ (mmaUnit 0).step = 0 ∧
    bit (mmaUnit 0).xm 0 = true ∧ bit (mmaUnit 0).xm 1 = false ∧ bit (mmaUnit 0).xm 31 = true ∧ (31 / 8 ∈ [3]) ∧ 0 / 8 ∉ [3] := by
  unfold EngineHas
  decide +kernel

theorem wit_mmat_step : let u : MUnit := { kind := .mmat, xm := 1, k := 32 }
    EngineHas (unitsOn [u]) 0 0 (unitsOn [u]).pane u [] ∧ u.step + 1 < u.k / u.fmt.depth := by
  unfold EngineHas
  decide +kernel

/-- A batch with a unit left behind the step. -/
theorem wit_tile_batch : let u : MUnit := { mmaUnit 0 with batch := some 7 }
    let s := unitsOn [u, u]
    EngineHas s 0 0 s.pane u [u] ∧ u.batch = some 7 ∧ 7 < s.pane.mx.errs.length ∧ (∃ x ∈ [u], x.batch = some 7) ∧
    (s.pane.mx.errs.getD 7 {}).kind = 0 ∧ (∀ c ∈ s.pane.mx.order, c = 7) := by
  unfold EngineHas
  decide +kernel

/-- Units of a pane whose team has 8,192 bytes of scratchpad; an index list at its address 512. -/
def unitsIn (list : List Nat) (us : List MUnit) : State :=
  let s := onPane (fun p => { p with mx := { tileSet := some 0, units := us, openN := us.length } }) (withLayout 1 4)
  { s with ds := Mem.writeN s.ds (s.spds s.pane + 512) (list.map (toBytes 2)).flatten }

def mmasUnit (top : Nat) : MUnit :=
  { kind := .mmas, xm := 1, k := 32, idx := 512, lay := { base := top, dims := [(2, 1024), (0, 1), (0, 1), (0, 1)] } }

/-- The last of the sixteen entries names no row, the first the layout's last row. -/
theorem wit_mmas_step : let s := unitsIn (31 :: List.replicate 14 0 ++ [0xFFFF]) [mmasUnit 0]
    let entry := fun (i : Nat) => spNumber s s.pane (512 + 2 * i) 2
    EngineHas s 0 0 s.pane (mmasUnit 0) [] ∧ entry 0 = 31 ∧ entry 15 = 0xFFFF ∧ (∀ r, r < 16 → entry r ≠ 0xFFFF → entry r < 32) ∧
    (∀ r, r < 16 → ∀ n, n < 32 → entry r ≠ 0xFFFF → (mmasUnit 0).lay.addr (n * 32 + entry r) % 2 = 0 ∧
      0 ≤ (mmasUnit 0).lay.addr (n * 32 + entry r) ∧ (mmasUnit 0).lay.addr (n * 32 + entry r) + 2 ≤ s.scratch s.pane) ∧
    (mmasUnit 0).fmt.fmt ≠ 2 ∧ bit (mmasUnit 0).xm 0 = true ∧ 0 / 8 ∉ [3] := by
  unfold EngineHas
  decide +kernel

/-- An entry just past the layout's rows; a unit whose address lies behind the allocation. -/
theorem wit_mmas_bad : (let s := unitsIn (List.replicate 15 0 ++ [32]) [mmasUnit 0];
      EngineHas s 0 0 s.pane (mmasUnit 0) [] ∧ (mmasUnit 0).bad = 0 ∧ spNumber s s.pane (512 + 2 * 15) 2 = 32) ∧
    (let s := unitsIn (List.replicate 16 0) [mmasUnit 8192];
      EngineHas s 0 0 s.pane (mmasUnit 8192) [] ∧ ¬ ((mmasUnit 8192).lay.addr 0 + 2 ≤ s.scratch s.pane)) := by
  unfold EngineHas
  decide +kernel

/-- Bit-plane units: an MMA of one step, an MMAT at its last. -/
theorem wit_bit_plane_step : (let u : MUnit := { kind := .mma, xm := 1, k := 64, fmt := { word := 2 } };
      EngineHas (unitsOn [u]) 0 0 (unitsOn [u]).pane u [] ∧ u.fmt.fmt = 2 ∧ u.step = 0) ∧
    (let u : MUnit := { kind := .mmat, xm := 1, k := 128, step := 1, fmt := { word := 2 } };
      EngineHas (unitsOn [u]) 0 0 (unitsOn [u]).pane u [] ∧ u.fmt.fmt = 2 ∧ ¬ (u.step + 1 < u.k / u.fmt.depth)) := by
  unfold EngineHas
  decide +kernel

/-- Elements at the ends of their formats; a product at the end of its range; 64 elements, and eight planes. -/
theorem wit_matrix_values : ([0x7BFF, 0x8001] : List Nat).length = ([0xFBFF, 1] : List Nat).length ∧ (∀ x ∈ [0x7BFF, 0x8001], IsFinite F16 x) ∧
    (∀ y ∈ [0xFBFF, 1], IsFinite F16 y) ∧ IsFinite F32 (0xFF7FFFFF : Word).toNat ∧ 254 < 255 ∧
    (List.zipWith (fun x y => x * y) [(33554430 : Int)] [-1]).sum.natAbs * 2 ^ (0 + 0) < 2 ^ 25 - 1 ∧
    (List.replicate 64 (-128 : Int)).length = 64 ∧ 2 ≤ (List.replicate 8 (0 : Word)).length ∧ (List.replicate 8 (0 : Word)).length ≤ 8 := by
  refine ⟨rfl, ?_, ?_, ?_, by decide, by decide,
    by decide, by decide, by decide⟩ <;> (simp only [IsFinite]; decide)

theorem wit_matrix_arithmetic : (0xFFFFFFFF : Word) &&& 0x7FFFFFFF > 0x7F800000#32 ∧ (0xFF800000 : Word) &&& 0x7FFFFFFF ≤ 0x7F800000#32 ∧
    (∃ n ∈ [FNum.fin false 0 0, unpack F32 false 0x7FC00000], n.isNan = true) ∧
    (∀ n ∈ [FNum.fin true 0 3], ∃ sg g, n = .fin sg 0 g) :=
  ⟨by decide, by decide, ⟨_, List.mem_cons_of_mem _ List.mem_cons_self, by decide⟩, fun n h => by
    simp at h
    exact ⟨true, 3, h⟩⟩

def oneUnit (k : MKind) (d xm : Nat) : MUnit :=
  { kind := k, xm := BitVec.ofNat 32 xm, d := d, lay := { base := 0, dims := [(32, 32), (0, 1), (0, 1), (0, 1)] } }

theorem wit_matrix_operation : ∀ k ∈ [MKind.mxrd, .mxclr, .mxst, .mxq],
    EngineHas (unitsOn [oneUnit k 112 1]) 0 0 (unitsOn [oneUnit k 112 1]).pane (oneUnit k 112 1) [] ∧ (oneUnit k 112 1).bad = 0 := by
  unfold EngineHas
  decide +kernel

theorem wit_mxst_apart : let u := { oneUnit .mxst 0 1 with lay := { base := 0, dims := [(4, 1024), (0, 1), (0, 1), (0, 1)] } }
    bit u.xm (31 / 32) = true ∧ bit u.xm (5 / 32) = true ∧ ((u.lay.addr 31).toNat + 4 ≤ (u.lay.addr 5).toNat ∨
      (u.lay.addr 5).toNat + 4 ≤ (u.lay.addr 31).toNat) ∧ (oneUnit .mxq 0 (2 ^ 31)).xm = 1#32 <<< 31 := by decide +kernel

theorem wit_mxfence : let m := (unitsOn [mmaUnit 0]).pane.mx
    m.batches.length = 8 ∧ m.errs.length = 8 ∧ (m.batches.getD m.next.toNat {}).pending = false ∧ m.marked = false ∧
    (∃ u ∈ m.units, u.batch = none) ∧ (unitsOn []).pane.mx.units = [] ∧ (unitsOn []).pane.mx.order = [] ∧
    (unitsOn []).pane.mx.openErr.lost = false ∧ (unitsOn []).pane.mx.openErr.kind = 0 := by decide

def batchOn (b : Batch) : State := on (fun p => { p with wait := .begun, mx := { batches := List.replicate 7 {} ++ [b] } })

theorem wit_waitmb : (∀ b, b < 8 → (0x80 : BitVec 8).getLsbD b = true → ((batchOn {}).pane.mx.batches.getD b {}).pending = false ∧
      ((batchOn {}).pane.mx.batches.getD b {}).status = .ok) ∧
    (let m := (batchOn { status := .mxerr, kind := 3 }).pane.mx; (m.batches.getD 7 {}).status ≠ .ok ∧ (∀ c, c < 8 → (0xFF : BitVec 8).getLsbD c = true → (m.batches.getD c {}).pending = false) ∧
      ∀ c, c < 7 → (m.batches.getD c {}).status = .ok) ∧
    (∃ b, b < 8 ∧ (0x80 : BitVec 8).getLsbD b = true ∧ ((batchOn { pending := true }).pane.mx.batches.getD b {}).pending = true) :=
  ⟨by decide, by decide, 7, by decide, by decide, by decide⟩

theorem wit_matrix_reset : let s := unitsOn [mmaUnit 0]
    s.mxUp 0 0 = some s.pane ∧ s.getPane s.pane.pid = some s.pane ∧ 0 < (s.core 0).engs.length ∧ (s.core 0).engs.length = 2 ∧
    (∀ a b, a ∈ s.allPanes → b ∈ s.allPanes → a.pid = b.pid → a = b) ∧ s.pane ∈ s.allPanes ∧ s.pane.core = 0 ∧
    s.pane.place.live = true ∧ s.pane.mx.tileSet = some 0 ∧
    (((s.modCore 0 (fun c => { c with engs := [{ hung := true }, {}] })).core 0).engs.getD 0 {}).hung = true := by
  refine ⟨by decide +kernel, by decide +kernel, by decide, by decide, ?_, by decide +kernel, by decide, by decide, by decide, by decide⟩
  intro a b ha hb _
  have h : (unitsOn [mmaUnit 0]).allPanes = [(unitsOn [mmaUnit 0]).pane] := by decide +kernel
  rw [h] at ha hb
  simp at ha hb
  rw [ha, hb]

/-! ### The die engines -/

def okIs {α β : Type} [DecidableEq β] (x : α × ERes β) (y : β) : Bool :=
  match x.2 with
  | .ok b => decide (b = y)
  | _ => false

theorem okWith {α β : Type} [DecidableEq β] {x : α × ERes β} {y : β} {P : α → Prop} (h : okIs x y = true) (hp : P x.1) :
    ∃ u, x = (u, .ok y) ∧ P u := by
  obtain ⟨u, r⟩ := x
  unfold okIs at h
  split at h
  · next b hb =>
    have := of_decide_eq_true h
    subst this
    exact ⟨u, by simp_all, hp⟩
  · cases h

def aReq (kind : ReqKind) (space : Space) (l : Lane) : Req :=
  { rid := 1, kind := kind, space := space, pid := 0, core := 0, part := 1, grid := 1, team := 0, pord := 0, pkt := 0, slot := 0, op := 0,
    d := some 7, ac := some 3, lanes := [l], left := true }

def withReq (r : Req) : State := { inTeam with reqs := [(1, r)], nextRid := 2 }

/-- Four elements of four bytes from 0 to 4096, with the index list at 8192; CD, CS, CI and CX are c0 to c3. -/
def described : State := on (fun p => { regs [(0, 0 + 32 + 2 * 1024 + 3 * 32768), (1, 4096), (2, 0), (3, 8192), (4, 16384), (9, 4)] p with part := 1 })

theorem wit_engine_word : UseFits described.pane 0 0 2 1 4 16 ∧ UseFits described.pane 0 1 1 2 4 16 ∧ UseFits described.pane 0 2 3 3 4 16 ∧
    UseFits described.pane 0 3 9 4 4 4 ∧ UseFits described.pane 0 2 1 3 64 64 ∧ countOf described.pane (.reg 9) = 4 ∧ 4 ≤ 16777215 ∧
    (described.pane.sreg 0).toNat / 2 ^ 20 = 0 ∧ descWord described.pane 0 7 = 0 ∧ (described.blk 0 0).cmds.length < 64 ∧
    described.pane.ac.getD (15 : Fin 16).val 0 ≠ 255 ∧ 0 < (described.die 0).blks.length ∧ described.pane.ac.length = 16 ∧
    described.memMayIssue = true ∧ countOf described.pane .zero = 0 ∧
    UseFits described.pane 0 3 1 4 2 8 ∧ (onPane (fun p => { p with relMark := 2 }) (withReq (aReq .store .dm { lane := 0, addr := 0 }))).memMayIssue = false := by
  unfold UseFits
  decide

/-- CD untagged, and no capability of the descriptor pending. -/
theorem wit_engine_untagged : let s := onPane (fun p => p.cset 0 { p.creg 0 with tag := false }) described
    s.memMayIssue = true ∧ countOf s.pane (.reg 9) ≤ 16777215 ∧ (s.pane.sreg 0).toNat / 2 ^ 20 = 0 ∧ descWord s.pane 0 7 = 0 ∧
    (∀ j, j < 4 → bit s.pane.cPend (descCap s.pane 0 j) = false) ∧ (s.pane.creg (descCap s.pane 0 0)).tag = false := by decide +kernel

theorem wit_engine_word_bad : 16777215 < countOf (onPane (regs [(9, 16777216)]) described).pane (.reg 9) ∧
    ((onPane (regs [(0, 2 ^ 20)]) described).pane.sreg 0).toNat / 2 ^ 20 ≠ 0 ∧ descWord (onPane (regs [(7, 1)]) described).pane 0 7 ≠ 0 := by
  decide

def aCmd (i : Instr) : Cmd :=
  { id := 1, i := i, pid := 0, core := 0, part := 1, grid := 0, team := 0, pord := 0, pkt := 0, slot := 0, caps := List.replicate 4 (capFor 0 65536),
    words := [0, 16, 0, 0, 0, 0, 0, 0], ac := some 3, mark := 1 }

def aCpy : Instr := .cpy (some 4) 0 (.reg 9) 3 2 false

/-- A command in block 0, its port's bucket full. -/
def blockWith (c : ECmd) : State :=
  { st.modDie 0 (fun d => { d with blks := { cmds := [c] } :: d.blks.tail }) with buckets := [(1536, 65536)] }

theorem wit_engine_start : let c : ECmd := { cmd := aCmd aCpy, n := 1 }
    BlockHas (blockWith c) 0 0 c ∧ (blockWith c).engParked c = false ∧ (blockWith c).engReplay c = none ∧ c.running = false ∧ c.n ≠ 0 ∧
    (blockWith c).quiet c.cmd.pid c.cmd.mark = true ∧ c.cmd.i = aCpy := by
  unfold BlockHas
  decide

/-- E * C of exactly 2^31, and the largest below it. -/
def routeWith (e c : Word) : ECmd :=
  { cmd := { aCmd (.route none 0 .zero 3 2 false) with words := [0, 0, 0, 0, 0, e, c, 0] }, n := 1 }

theorem wit_route_start : BlockHas (blockWith (routeWith 65536 32768)) 0 0 (routeWith 65536 32768) ∧
    2 ^ 31 ≤ (routeWith 65536 32768).word 5 * (routeWith 65536 32768).word 6 ∧
    BlockHas (blockWith (routeWith 1 0x7FFFFFFF)) 0 0 (routeWith 1 0x7FFFFFFF) ∧ 1 ≤ (routeWith 1 0x7FFFFFFF).word 5 ∧
    (routeWith 1 0x7FFFFFFF).word 5 * (routeWith 1 0x7FFFFFFF).word 6 < 2 ^ 31 ∧
    (blockWith (routeWith 1 1)).quiet (routeWith 1 1).cmd.pid (routeWith 1 1).cmd.mark = true := by
  unfold BlockHas
  decide

/-- A CHAIN with a record of zeros, with one whose first word is 13, with one that stands in poison. -/
def chaining (w : Nat) : ECmd := { cmd := { aCmd (.chain none 0 (.reg 9) 3 .f32 .f32 false) with words := [0, 4096, 0, BitVec.ofNat 32 w, 0, 0, 0, 0] }, n := 1 }

theorem wit_chain_start : let s := put32 (blockWith (chaining 64)) 64 (13 :: List.replicate 15 0)
    presIs (s.engRecord (chaining 0)) (List.replicate 64 0) = true ∧ presIs (s.engRecord (chaining 64)) (13 :: List.replicate 63 0) = true ∧
    chainOk (List.replicate 16 0) = true ∧ chainStream (List.replicate 16 0) = false ∧ chainOk (13 :: List.replicate 15 0) = false ∧
    (((s.engRecord (chaining 64)).1.die 0).blks = (s.die 0).blks) ∧
    ((({ s with poisoned := [1025] } : State).engRecord (chaining 64)).2 = .fail .poisoned) := by
  decide +kernel

theorem wit_chain_waits : BlockHas (blockWith (chaining 0)) 0 0 (chaining 0) ∧ (chaining 0).running = false ∧ (chaining 0).n ≠ 0 ∧
    (blockWith (chaining 0)).quiet (chaining 0).cmd.pid (chaining 0).cmd.mark = true ∧ (blockWith (chaining 0)).engParked (chaining 0) = false ∧
    (blockWith (chaining 0)).engReplay (chaining 0) = none := by
  unfold BlockHas
  decide

def running : ECmd := { cmd := aCmd aCpy, n := 1, running := true }

/-- Whether an element's bytes are read, and written; what the reads leave. -/
def reads (s : State) (c : ECmd) (k off n : Nat) (x : List Byte) : Bool := okIs (s.engRead c k off n) x

def readSt (s : State) (c : ECmd) (k off n : Nat) : State := (s.engRead c k off n).1

def writes (s u : State) (c : ECmd) (off : Nat) (x : List Byte) (op : Option AOp) : Bool :=
  okIs (u.engWrite c [0] off x op) () && decide ((((u.engWrite c [0] off x op).1).die 0).blks = (s.die 0).blks)

theorem reads_ok {s : State} {c : ECmd} {k off n : Nat} {x : List Byte} (h : reads s c k off n x = true) :
    s.engRead c k off n = (readSt s c k off n, .ok x) := by
  obtain ⟨u, hu, rfl⟩ := okWith (P := fun u => u = (s.engRead c k off n).1) h rfl
  exact hu

theorem writes_ok {s u : State} {c : ECmd} {off : Nat} {x : List Byte} {op : Option AOp} (h : writes s u c off x op = true) :
    ∃ v, u.engWrite c [0] off x op = (v, .ok ()) ∧ (v.die 0).blks = (s.die 0).blks := by
  unfold writes at h
  rw [Bool.and_eq_true, decide_eq_true_iff] at h
  exact okWith (P := fun v => (v.die 0).blks = (s.die 0).blks) h.1 h.2

theorem wit_engine_chunk : let s := blockWith running
    LastElement s 0 0 running ∧ running.next = 0 ∧ reads s running 1 (running.word 2) (2 ^ 2) [0, 0, 0, 0] = true ∧
    writes s (readSt s running 1 (running.word 2) 4) running (running.word 1) [0, 0, 0, 0] none = true := by
  unfold LastElement BlockHas
  decide +kernel

/-- Poison in the source line fails the element. -/
theorem wit_engine_chunk_fails : let s := { blockWith running with poisoned := [1024] }
    (match (s.engRead running 1 (running.word 2) 4).2 with
      | .fail => true
      | _ => false) = true ∧ ((s.engRead running 1 (running.word 2) 4).1.die 0).blks = (s.die 0).blks := by decide +kernel

/-- One element of a GATH, SCAT, ROUTE or CHAIN; CD, CS, CI and CX are c0. -/
def lastOf (i : Instr) (w : List Word) : ECmd := { cmd := { aCmd i with words := w }, n := 1, running := true, record := List.replicate 16 0 }

def gathing (ci : Word) : ECmd := lastOf (.gath none 0 (.reg 9) 3 2 false) [0, 4096, 0, ci, 0, 0, 0, 0]

/-- An index of 2, and the index 0xFFFF_FFFF. -/
def indexed (c : ECmd) : State := put32 (put32 (put32 (blockWith c) 4096 [0]) 8192 [0]) 64 [2, 0xFFFFFFFF]

theorem wit_chunk_gath : let c := gathing 64
    let s := indexed c
    let u := readSt s c 2 64 4
    LastElement s 0 0 c ∧ reads s c 2 (c.word 3) 4 [2, 0, 0, 0] = true ∧ reads u c 1 (c.word 2 + 2 * 2 ^ 2) (2 ^ 2) [0, 0, 0, 0] = true ∧
    writes s (readSt u c 1 8 4) c (c.word 1) [0, 0, 0, 0] none = true ∧
    (let c := gathing 68
     let s := indexed c
     LastElement s 0 0 c ∧ reads s c 2 (c.word 3) 4 [255, 255, 255, 255] = true ∧
      writes s (readSt s c 2 68 4) c (c.word 1) (List.replicate 4 0) none = true) := by
  unfold LastElement BlockHas
  decide +kernel

def scatting (red : Option AOp) (ci : Word) : ECmd := lastOf (.scat none 0 (.reg 9) 3 2 false red) [0, 4096, 64, ci, 0, 0, 0, 0]

theorem wit_chunk_scat : ∀ red ∈ [none, some AOp.add], let c := scatting red 64
    let s := indexed c
    let u := readSt s c 2 64 4
    LastElement s 0 0 c ∧ reads s c 2 (c.word 3) 4 [2, 0, 0, 0] = true ∧ reads u c 1 (c.word 2) (2 ^ 2) [2, 0, 0, 0] = true ∧
    writes s (readSt u c 1 64 4) c (c.word 1 + 2 * 2 ^ 2) [2, 0, 0, 0] red = true ∧
    reads (indexed (scatting red 68)) (scatting red 68) 2 68 4 [255, 255, 255, 255] = true := by
  unfold LastElement BlockHas
  decide +kernel

/-- ROUTE over three experts of one row each: the expert of the token is the last. -/
def routing (next : Nat) (routes : List (Nat × Nat)) (e c : Word) : ECmd :=
  { lastOf (.route none 0 (.reg 9) 3 2 false) [0, 4096, 0, 64, 8192, e, c, 0] with next := next, routes := routes }

def routed (c : ECmd) (k : Nat) : State := put32 (indexed c) 8200 [k]

theorem wit_chunk_route : let c := routing 0 [] 3 1
    (let s := routed c 0
     let u := readSt s c 2 64 4
     let f := fun (old : List Byte) => (if ofBytes old < 1 then some (ofBytes old + 1) else none).map (toBytes 4)
     let v := (u.engOp c 3 (8192 + 4 * 2) f).1
     LastElement s 0 0 c ∧ reads s c 2 64 4 [2, 0, 0, 0] = true ∧ okIs (u.engOp c 3 (c.word 4 + 4 * 2) f) 0 = true ∧
      okIs (v.engIdxPut c 0 (2 * 1 + 0)) () = true ∧ ((v.engIdxPut c 0 2).1.die 0).blks = (s.die 0).blks) ∧
    (let s := routed c 1
     let u := readSt s c 2 64 4
     let f := fun (old : List Byte) => (if ofBytes old < 1 then some (ofBytes old + 1) else none).map (toBytes 4)
     let g := fun (old : List Byte) => (some (ofBytes old + 1)).map (toBytes 4)
     let v := (u.engOp c 3 (8192 + 4 * 2) f).1
     let w := (v.engOp c 3 (8192 + 4 * 3) g).1
     okIs (u.engOp c 3 (c.word 4 + 4 * 2) f) 1 = true ∧ okIs (v.engOp c 3 (c.word 4 + 4 * 3) g) 0 = true ∧
      okIs (w.engIdxPut c 0 (2 ^ 31 + 0)) () = true ∧ ((w.engIdxPut c 0 (2 ^ 31)).1.die 0).blks = (s.die 0).blks) := by
  unfold LastElement BlockHas
  decide +kernel

/-- An expert just past the last, no expert, and the second phase. -/
theorem wit_chunk_route_more : (let c := routing 0 [] 2 1; LastElement (indexed c) 0 0 c ∧ reads (indexed c) c 2 64 4 [2, 0, 0, 0] = true) ∧
    (let c := routing 1 [(0, 2)] 3 1; let s := indexed c
     LastElement s 0 0 c ∧ c.sent = 0 ∧ reads s c 1 0 (2 ^ 2) [0, 0, 0, 0] = true ∧
      writes s (readSt s c 1 0 4) c (c.word 1 + 2 * 2 ^ 2) [0, 0, 0, 0] none = true) := by
  unfold LastElement BlockHas
  decide +kernel

theorem wit_chunk_chain : (let c := { chaining 0 with running := true, record := List.replicate 16 0 }; let s := indexed c
     LastElement s 0 0 c ∧ c.inPlace = false ∧ chainStream c.record = false ∧ reads s c 1 0 4 [0, 0, 0, 0] = true ∧
      writes s (readSt s c 1 0 4) c (c.word 1) (chainOut .f32 (chainVal c.record (chainIn .f32 [0, 0, 0, 0]) 0)) none = true) ∧
    (let c := { chaining 0 with running := true, record := 0x101 :: List.replicate 15 0 }; let s := indexed c
     let u := readSt s c 1 0 4
     LastElement s 0 0 c ∧ chainStream c.record = true ∧ reads u c 3 (c.word 4) 4 [0, 0, 0, 0] = true ∧
      writes s (readSt u c 3 0 4) c (c.word 1) (chainOut .f32 (chainVal c.record (chainIn .f32 [0, 0, 0, 0]) (chainIn .f32 [0, 0, 0, 0]))) none = true) := by
  unfold LastElement BlockHas
  decide +kernel

/-- An extent that is not resident (STATE 0): the element waits. -/
def absentSt (s : State) : State := { s with dm := Mem.writeN s.dm 0x1100 (toBytes 16 (1 + 1 * 2 ^ 48)) }

theorem wit_engine_chunk_absent : let s := absentSt (blockWith running)
    (match (s.engRead running 1 (running.word 2) 4) with
      | (u, .absent o [g]) => decide ((u.sendPage 1 o g (.blk 0 0)).2 = some 0 ∧ ((u.sendPage 1 o g (.blk 0 0)).1.die 0).blks = (s.die 0).blks)
      | _ => false) = true := by decide +kernel

theorem wit_engine_done : let c := { running with next := 1, failed := [0] }
    let s := blockWith c
    BlockHas s 0 0 c ∧ s.engParked c = false ∧ s.engReplay c = none ∧ c.n ≤ c.next ∧ c.code = 0 ∧ c.waiting = [] ∧ c.ready = [] ∧ s.pane.pid = c.cmd.pid ∧ s.pane.place.live = true ∧
    (4 : Fin 63).val + 1 < s.pane.s.length ∧ (3 : Fin 16).val < s.pane.ac.length ∧ c.failed.length < 2 ^ 24 ∧
    0 ∈ c.failed ∧ (∀ j ∈ c.failed, 0 ≤ j) := by
  unfold BlockHas
  decide

/-- A command without elements ends whatever its fork. -/
theorem wit_engine_empty : let c : ECmd := { cmd := aCmd aCpy, n := 0 }
    BlockHas (blockWith c) 0 0 c ∧ (blockWith c).engParked c = false ∧ (blockWith c).engReplay c = none ∧ c.n = 0 ∧ c.code = 0 ∧
    c.waiting = [] ∧ c.ready = [] := by
  unfold BlockHas
  decide

theorem wit_engine_faults : let s := blockWith running
    (s.modDie 0 (fun d => { d with blks := { hung := true } :: d.blks.tail })).blk 0 0 = { hung := true } ∧ (s.blk 0 0).cmds = [running] ∧
    (s.die 0).links.contains 5 = false ∧ (s.die 0).cls.length = 4 ∧ (s.cluster 3).failed = false := by decide

/-- A reset with one command, of which an element failed. -/
theorem wit_engine_reset : let c := { running with failed := [7] }
    let s := blockWith c
    (s.blk 0 0).cmds = [c] ∧ 0 < (s.die 0).blks.length ∧ engDst c.cmd.i = some 4 ∧ c.cmd.ac = some 3 ∧ s.pane.pid = c.cmd.pid ∧
    s.pane.place.live = true ∧ 4 + 1 < s.pane.s.length ∧ (3 : Fin 16).val < s.pane.ac.length ∧ c.failed.length < 2 ^ 24 ∧
    7 ∈ c.failed ∧ ∀ j ∈ c.failed, 7 ≤ j := by decide

/-! ### Requests under way -/

/-- A release fence behind a store that is not accepted holds every memory word. -/
theorem wit_fence_holds : (onPane (fun p => { p with relMark := 2 }) (withReq (aReq .store .dm { lane := 0, addr := 0 }))).memMayIssue = false := by
  decide

theorem wit_reply : let r := { aReq .load .dm { lane := 31, addr := 0, got := [0x80, 0, 0, 0], stage := .landed } with size := 1, sx := true }
    let s := withReq r
    Open s r ∧ s.getPane r.pid = some s.pane ∧ s.pane.pid = r.pid ∧ (∀ l ∈ r.lanes, l.stage = .landed) ∧
    (∀ a ∈ r.lanes, ∀ b ∈ r.lanes, a.lane = b.lane → a = b) ∧ r.d = some 7 ∧ 7 + r.regs ≤ s.pane.v.length ∧ (3 : Fin 16).val < s.pane.ac.length := by
  unfold Open
  decide +kernel

theorem wit_reply_failed : let r := aReq .atomic .dm { lane := 0, addr := 0, stage := .failed .refused }
    let s := withReq r
    Open s r ∧ s.replyHeld r = false ∧ (∀ l ∈ r.lanes, l.stage = .failed .refused) := by
  unfold Open
  decide

theorem wit_cld_reply : let l : Lane := { lane := 0, addr := 0, got := List.replicate 16 1, gotTag := true, stage := .landed }
    let r := { aReq .cld .dm l with d := some 31, tag := true }
    let s := withReq r
    Open s r ∧ r.lanes = [l] ∧ r.d = some 31 ∧ 31 < s.pane.c.length := by
  unfold Open
  decide

/-- Object 0 in the port's cache, as the table gives it. -/
def cachedObj : Obj := ((State.reset.boot 0).lookupObj 0 1 0).2.getD { gen := 0, part := 0, obj := 0, valid := false, key := 0, kind := 0, vbase := 0, len := 0, exts := [] }

def cached (s : State) : State := (s.lookupObj 0 1 0).1

def loadReq (a : Nat) : Req := aReq .load .dm { lane := 0, addr := a }

/-- The object's last byte, and the one behind it. -/
theorem wit_port_load : let s := cached (withReq (loadReq 65535))
    Open s (loadReq 65535) ∧ OneLane (loadReq 65535) { lane := 0, addr := 65535 } ∧ s.stopFailed 0 = false ∧
    s.blocked (loadReq 65535) { lane := 0, addr := 65535 } = false ∧ s.lookupObj 0 1 0 = (s, some cachedObj) ∧ (∀ e, cachedObj.ext (65535 - cachedObj.vbase) = some e → s.dupRead 0 1 0 cachedObj e (65535 - cachedObj.vbase) 131071 = none) ∧
    s.transObj cachedObj 1 0 65535 = .ok 131071 false ∧ s.pathFailed 0 (131071 / 2 ^ 36) = false ∧
    s.parkedHere (loadReq 65535) { lane := 0, addr := 65535 } = false ∧ s.transObj cachedObj 1 0 65536 = .refused := by
  unfold Open OneLane
  decide +kernel

/-- A line the die holds, with a tagged granule. -/
theorem wit_port_held : let l : Lane := { lane := 0, addr := 16, stage := .ported 65552 false false }
    let x : CLine := ⟨1024, 1, List.replicate 64 7, false, [1]⟩
    let s := (withReq (aReq .load .dm l)).modDie 0 (fun d => { d with lines := [x] })
    Open s (aReq .load .dm l) ∧ OneLane (aReq .load .dm l) l ∧ s.stopFailed 0 = false ∧
    (s.die 0).lines.find? (fun y => y.line == 65552 / 64 && y.key == 1) = some x ∧ s.ownBusy 0 (65552 / 64) = false ∧
    s.lineBusy 0 (65552 / 64) = false := by
  unfold Open OneLane
  decide

/-- The same object with its extent not resident. -/
theorem wit_port_absent : let s := cached (absentSt (withReq (loadReq 0)))
    let o := { cachedObj with exts := cachedObj.exts.map (fun e => { e with state := 0 }), win := 1 + 2 ^ 48 }
    s.lookupObj 0 1 0 = (s, some o) ∧ s.transObj o 1 0 0 = .absent { dup := 0, state := 0, tier1 := false, pfn := 1, voff := 0, nlen := 1 } ∧
    (s.sendPage 1 0 ((0 - o.vbase) / 4096) (.req 1)).2 = some 0 := by decide +kernel

theorem wit_store_accept : let l : Lane := { lane := 0, addr := 0, data := [1, 2, 3, 4], stage := .ported 65536 false false }
    let r := aReq .store .dm l
    Open (withReq r) r ∧ OneLane r l ∧ r.accepted = false ∧ r.ac = some 3 ∧ (withReq r).pane.pid = r.pid ∧
    (3 : Fin 16).val < (withReq r).pane.ac.length := by
  unfold Open OneLane
  decide

theorem wit_page_answer : let l : Lane := { lane := 0, addr := 0, stage := .held 4095 }
    let r := aReq .load .dm l
    let e : PageReq := ⟨1, 0, 0, 9, .req 1⟩
    let s := { withReq r with pages := [(7, ⟨2, 0, 0, 9, .req 3⟩), (4095, e)] }
    Open s r ∧ OneLane r l ∧ Tab.find s.pages 4095 = some e ∧
    s.pages.find? (fun x => x.2.part == e.part && x.2.prg == e.prg) = some (4095, e) ∧ PageCode.invalid ≠ .success := by
  unfold Open OneLane
  decide

/-- A line that the die does not hold, behind a link that works and behind one that has failed. -/
theorem wit_port_home : let l : Lane := { lane := 0, addr := 16, stage := .ported 65552 false false }
    let s := withReq (aReq .load .dm l)
    Open s (aReq .load .dm l) ∧ OneLane (aReq .load .dm l) l ∧ (65552 : Nat) < 2 ^ 64 ∧
    (s.die 0).lines.find? (fun x => x.line == 65552 / 64 && x.key == 1) = none ∧ s.lineBusy 0 (65552 / 64) = false ∧
    s.pathFailed 0 (65552 / 2 ^ 36) = false := by
  unfold Open OneLane
  decide

theorem wit_port_cut_off : ((st.modDie 0 (fun d => { d with links := [Config.linkOf 0 (65552 / 2 ^ 36 + 1)] })).pathFailed 0 (65552 / 2 ^ 36 + 1)) = true := by
  unfold State.pathFailed
  rw [show ((st.modDie 0 (fun d => { d with links := [Config.linkOf 0 (65552 / 2 ^ 36 + 1)] })).die 0).links =
    [Config.linkOf 0 (65552 / 2 ^ 36 + 1)] from rfl]
  simp [groupOf]

theorem wit_port_again : let l : Lane := { lane := 0, addr := 0, again := true }
    let s := cached (absentSt (withReq (aReq .load .dm l)))
    let o := { cachedObj with exts := cachedObj.exts.map (fun e => { e with state := 0 }), win := 1 + 2 ^ 48 }
    s.lookupObj 0 1 0 = (s, some o) ∧ l.again = true ∧ OneLane (aReq .load .dm l) l ∧
    s.transObj o 1 0 0 = .absent { dup := 0, state := 0, tier1 := false, pfn := 1, voff := 0, nlen := 1 } := by
  unfold OneLane
  decide +kernel

/-- A write of die 1 in die 0's queue: the first may be applied, one that names a later number may not. -/
theorem wit_apply : let a : Apply := { src := 1, num := 1, stamp := [], line := 1024, off := 0, bytes := [9], key := 1, done := true }
    let s := st.modDie 0 (fun d => { d with applyQ := [a, { a with num := 3 }], lines := [⟨1024, 1, List.replicate 64 0, false, []⟩] })
    (s.die 0).applyQ[0]? = some a ∧ (s.die 0).mayApply 0 0 = true ∧ (s.die 0).mayApply 0 1 = false ∧ a.src ≠ 0 ∧ a.sub = false := by decide

def atChannel (kind : ChanKind) (rk : ReqKind) (pa size : Nat) (b : List Byte) (poison : List Nat) : State :=
  { put (withReq (aReq rk .dm { lane := 0, addr := pa - 65536 })) 0 (List.replicate 64 1) with
    poisoned := poison, chanQ := [{ kind := kind, line := pa / 64, pa := pa, tier1 := false, rid := 1, lane := 0, die := 0, part := 1, size := size, bytes := b }] }

/-- The last bytes of a line. -/
theorem wit_channel : let s := atChannel .load .load 65596 4 [] []
    let c : ChanItem := { kind := .load, line := 1024, pa := 65596, tier1 := false, rid := 1, lane := 0, die := 0, part := 1, size := 4, bytes := [] }
    s.chanQ = [c] ∧ c.tier1 = false ∧ c.line = c.pa / 64 ∧ c.pa % 64 + c.size ≤ 64 ∧ 0 < c.size ∧
    Tab.find s.reqs c.rid = some (aReq .load .dm { lane := 0, addr := 60 }) ∧
    c.pa / 64 ∉ s.poisoned ∧ s.degradedDead c.pa = false ∧ s.keyOk c.part (c.pa / 64) = true := by decide +kernel

theorem wit_channel_store : let s := atChannel .store .store 65536 64 (List.replicate 64 5) [1024]
    (65536 / 64 ∈ s.poisoned) ∧ (List.replicate 64 (5 : Byte)).length = 64 ∧ (s.chanQ.map (fun c => c.size)) = [64] ∧
    ((atChannel .store .store 65536 4 [1, 2, 3, 4] [1024]).chanQ.map (fun c => decide (c.size < 64 ∧ c.bytes.length = c.size))) = [true] := by
  decide +kernel

/-- A degraded channel, of data and of parity. -/
theorem wit_channel_degraded : let s := { atChannel .load .load 65536 4 [] [] with bases := [(0, { (st.base 0) with chdegr := 0xFFFFFFFF })] }
    bit (s.base 0).chdegr (State.parityChan (1024 * 64)) = true ∧ bit (st.base 0).chdegr (State.parityChan (1024 * 64)) = false := by
  decide +kernel

theorem wit_channel_rmw : let s := atChannel .rmw .red 65536 4 [1, 0, 0, 0] []
    s.keyOk 1 1024 = true ∧ s.degradedDead 65536 = false ∧ (s.chanQ.map (fun c => c.kind)) = [.rmw] ∧
    ((st.modBase 0 (fun b => { b with deltas := [⟨1024, 4, [1], 0, false⟩] })).base 0).deltas.find? (fun d => d.line == 1024) = some ⟨1024, 4, [1], 0, false⟩ := by decide +kernel

theorem wit_slice : let l : Lane := { lane := 0, addr := 252, data := [1, 2, 3, 4] }
    let r := aReq .store .sp l
    let s := withReq r
    Open s r ∧ OneLane r l ∧ l.stage = .issued ∧ l.num = 0 ∧ s.sliceBefore r (sliceCore (s.dsAddr r l)) = false ∧ s.sliceOlder r l = false ∧
    l.data.length = r.size ∧ s.dsAddr r l = 252 := by
  unfold Open OneLane
  decide +kernel

theorem wit_store_over : let r := { aReq .store .dm { lane := 0, addr := 0, mask := 1, stage := .failed .refused } with accepted := true, entry := true }
    Open (withReq r) r ∧ r.accepted = true ∧ r.entry = true ∧ r.peer = none ∧ (1 : Word) ≠ 0 := by
  unfold Open
  decide

theorem wit_generation : (inTeam.part 1).genDone = true ∧ inTeam.tdiLocked 1 = false ∧
    (let s := inTeam.modPart 1 (fun p => { p with gen := 1, genDone := false }); (s.part 1).genCur ≠ (s.part 1).gen ∧ s.translatedOpen 1 = false ∧
        (∀ p ∈ s.parkQ, p.part ≠ 1)) := by decide

theorem wit_invalidation : let s := { st with invals := [(65536, 0, [3]), (65537, 0, [])] }
    s.inval 65536 0 = some [3] ∧ s.copyReads 3 65536 = false ∧ (s.die 3).dropped.length < 64 ∧ s.inval 65537 0 = some [] ∧
    (65537, 0) ∉ s.invalDone := by decide

/-! ### Publication, sketches -/

def finIs (x : PubOut) (ws : List Word) (err : Bool) : Bool :=
  match x with
  | .fin _ w e => decide (w = ws ∧ e = err)
  | _ => false

def finSt (x : PubOut) (s : State) : State :=
  match x with
  | .fin u _ _ => u
  | _ => s

theorem finWith {x : PubOut} {s : State} {ws : List Word} {err : Bool} {P : State → Prop} (h : finIs x ws err = true) (hp : P (finSt x s)) :
    ∃ u, x = .fin u ws err ∧ P u := by
  unfold finIs at h
  split at h
  · next u w e =>
    have := of_decide_eq_true h
    obtain ⟨rfl, rfl⟩ := this
    exact ⟨u, rfl, hp⟩
  · cases h

theorem wit_record_fits : RecordFits (on (fun p => p.cset 1 (capFor 256 256))).pane 1 11 256 ∧ RecordFits st.pane 0 0x1F 64 ∧
    st.pane.ac.getD (15 : Fin 16).val 0 ≠ 255 ∧ (on (fun p => { p with ac := List.replicate 16 255 })).pane.ac.getD 15 0 = 255 ∧
    st.originUsed st.pane.core < 64 := by
  unfold RecordFits CapAdmits
  decide

/-- c0 untagged; c0 tagged and c1 not. -/
theorem wit_pub_untagged : ((on (fun p => p.cset 0 { p.creg 0 with tag := false })).pane.creg 0).tag = false ∧ st.memMayIssue = true ∧
    (st.pane.creg 0).tag = true ∧ ((on (fun p => p.cset 1 { p.creg 1 with tag := false })).pane.creg 1).tag = false ∧
    (xmOnly 0).pane.xm = 0 ∧ RecordFits st.pane 0 17 64 := by
  unfold RecordFits CapAdmits
  decide

/-- A record whose current version is 5 in slot 2, with one pin; slot 0 is free. -/
def aRec : PubRec := ⟨2, true, 2 ^ 29 - 2, 1024, 3, 1, ⟨0, 0, 0, 0⟩ :: ⟨64, 2, 4, 0⟩ :: ⟨2 ^ 56 - 1, 1, 5, 1⟩ :: List.replicate 5 ⟨0, 1, 1, 0xFFFFFFFF⟩⟩

theorem wit_pub_valid : PubValid aRec 2048 ∧ aRec.cv = true ∧ (aRec.slot aRec.cur).pins < 0xFFFFFFFF ∧
    ((0x40000005 : Word) ≠ 0xFFFFFFFF ∧ (aRec.slot ((0x40000005 : Word).toNat / 2 ^ 29)).st = 1 ∧
      (aRec.slot ((0x40000005 : Word).toNat / 2 ^ 29)).ver = (0x40000005 : Word).toNat % 2 ^ 29 ∧ 0 < (aRec.slot 2).pins) ∧
    (aRec.slot ((0x40000004 : Word).toNat / 2 ^ 29)).ver ≠ (0x40000004 : Word).toNat % 2 ^ 29 ∧
    (aRec.slot 0).st = 0 ∧ (∀ i, i < 0 → (aRec.slot i).st ≠ 0) ∧ (2 ^ 56 - 1 : Nat) < 2 ^ 56 := by
  unfold PubValid
  decide +kernel

/-- Records without a current version, with every pin of the current version taken, and without a free slot. -/
def recNone : PubRec := ⟨2, false, 1, 0, 0, 0, List.replicate 8 ⟨0, 0, 0, 0⟩⟩
def recPinned : PubRec := ⟨7, true, 1, 0, 0, 0, List.replicate 8 ⟨0, 1, 1, 0xFFFFFFFF⟩⟩
def recFull : PubRec := ⟨7, true, 1, 0, 0, 0, List.replicate 8 ⟨0, 1, 1, 0⟩⟩

theorem wit_pub_edges : (PubValid recNone 256 ∧ recNone.cv = false) ∧ (PubValid recPinned 256 ∧ (recPinned.slot recPinned.cur).pins = 0xFFFFFFFF) ∧
    (PubValid recFull 256 ∧ ∀ k, k < 8 → (recFull.slot k).st ≠ 0) := by
  unfold PubValid
  refine ⟨⟨?_, rfl⟩, ⟨?_, rfl⟩, ⟨?_, by decide⟩⟩ <;> decide +kernel

theorem wit_retire : aRec.ringoff ≠ 0 ∧ ({ aRec with rhead := 0, rtail := 64 } : PubRec).rhead + 64 ≤ 64 ∧
    ({ aRec with ringoff := 0 } : PubRec).ringoff = 0 ∧ aRec.rtail < 2 ^ 32 ∧ aRec.slots.length = 8 := by decide

def cmdOn (c : Cmd) (s : State) : State := { s with cmds := [(1, c)], nextRid := 2 }

def aVpin : Cmd := { aCmd (.vpin (some 61) 0 3) with caps := [capFor 0 2048] }

/-- The record at the object's start, a pin under way. -/
def pinning : State := cmdOn aVpin (put st 0 aRec.bytes)

theorem wit_publication : Tab.find pinning.cmds aVpin.id = some aVpin ∧ pinning.cmdReady aVpin = true ∧
    pinning.recordSeen aVpin.via (aVpin.cap 0) = true ∧ pinning.cmdRefused aVpin = false ∧ pinning.pane.pid = aVpin.pid ∧ pinning.pane.place.live = true ∧
    (61 : Fin 62).val + 2 < pinning.pane.s.length ∧ (3 : Fin 16).val < pinning.pane.ac.length ∧
    (∃ u, pinning.pubUnit aVpin.via (aVpin.cap 0) .pin = .fin u [0x40000005, 0xFFFFFFFF, 0xFFFFFF] false ∧ u.pane = pinning.pane) :=
  ⟨by decide, by decide, by decide +kernel, by decide, by decide, by decide, by decide, by decide,
    finWith (s := pinning) (by decide +kernel) (by decide +kernel)⟩

theorem wit_publication_fails : let s : State := { pinning with otAddr := [] }
    256 ≤ (aVpin.cap 0).len ∧ s.recordSeen aVpin.via (aVpin.cap 0) = true ∧
    (match (s.unitObj { aVpin.via with home := true } (aVpin.cap 0).obj (aVpin.cap 0).base).2 with
      | .fail _ => true
      | _ => false) = true := by decide +kernel

/-- A write to the record that the die has accepted and not applied. -/
theorem wit_record_unseen : (pinning.modDie 0 (fun d => { d with applyQ :=
      [{ src := 1, num := 1, stamp := [], line := 1024, off := 0, bytes := [9], key := 1, done := true }] })).recordSeen aVpin.via (aVpin.cap 0) = false := by
  decide +kernel

theorem wit_sketch_sum : (2147483646 : Word).toInt + 1 ≤ 2 ^ 31 - 1 ∧ 2 ^ 31 - 1 < (2147483647 : Word).toInt + 1 ∧
    (0x80000001 : Word).toInt + (-1) < -(2 ^ 31 - 1) ∧ ([3, 1, 2] : List Int).length % 2 = 1 ∧ 0 < (⟨3, 6, 0, -8⟩ : SkHdr).rows := by decide

def skHeaderWords : List Nat := [0x534B0603, 0, 0xF8]

def aSkqry : Cmd := { aCmd (.skqry 119 (.reg 0) 0 3) with xm := 0x80000001, lanes := [(0, [1]), (31, [2])] }

/-- No header stands at the object's start. -/
theorem wit_sketch_query : let s := cmdOn aSkqry st
    Tab.find s.cmds aSkqry.id = some aSkqry ∧ s.unitFrozen aSkqry.skVia (aSkqry.cap 0) = false ∧ s.cmdRefused aSkqry = false ∧ s.pane.pid = aSkqry.pid ∧
    s.pane.place.live = true ∧ (3 : Fin 16).val < s.pane.ac.length ∧ (119 : Fin 120).val < s.pane.v.length ∧ aSkqry.stage = 0 ∧
    s.cmdReady aSkqry = true ∧ s.skFirst aSkqry.id aSkqry.part (aSkqry.cap 0).base = true ∧
    (∃ u, s.skHeader aSkqry.skVia (aSkqry.cap 0) = (u, .ok none) ∧ u.pane = s.pane) :=
  ⟨by decide, by decide +kernel, by decide, by decide, by decide, by decide, by decide +kernel, by decide, by decide, by decide,
    presWith (by decide +kernel) (by decide +kernel)⟩

/-- The rows have been read. -/
theorem wit_sketch_estimates : let c := { aSkqry with stage := 1, aux := [3, 6, 0, 248], lanes := [(0, [1, 256, 256, 256]), (31, [2, 0, 0, 0])] }
    c.stage ≠ 0 ∧ (∀ l ∈ c.lanes, l.2.length = (SkHdr.ofAux c.aux).rows + 1) ∧ (∀ x ∈ c.lanes, ∀ y ∈ c.lanes, x.1 = y.1 → x = y) ∧
    bit c.xm 31 = true := by decide

def aSkclr : Cmd := { aCmd (.skclr 0 3) with stage := 1, aux := [3, 6, 0, 248], base := 0 }

theorem wit_sketch_clear : aSkclr.base < (SkHdr.ofAux aSkclr.aux).rows * 2 ^ (SkHdr.ofAux aSkclr.aux).logw ∧
    (let s := cmdOn aSkclr (put st 64 [1])
      ∃ u, s.skOp aSkclr.skVia .sketch none (aSkclr.cap 0) (64 + 4 * aSkclr.base) (fun _ => 0) = (u, .ok 1) ∧ u.cmds = s.cmds) :=
  ⟨by decide, presWith (by decide +kernel) (by decide +kernel)⟩

/-- SKADD whose two sketches are one, and SKCLR, without a header. -/
theorem wit_sketch_invalid : let c := { aCmd (.skadd 0 0 3) with caps := [capFor 0 4096, capFor 0 4096] }
    let s := cmdOn c st
    let u := (s.skHeader c.skVia (c.cap 0)).1
    c.stage = 0 ∧ s.cmdReady c = true ∧ s.cmdRefused c = false ∧ s.skFirst c.id c.part (c.cap 0).base = true ∧
    (∃ v, s.skHeader c.skVia (c.cap 0) = (v, .ok none) ∧ v = u) ∧
    (∃ w, u.skHeader c.skVia (c.cap 1) = (w, .ok none) ∧ w.pane = s.pane) :=
  ⟨by decide, by decide, by decide, by decide, presWith (by decide +kernel) rfl, presWith (by decide +kernel) (by decide +kernel)⟩

def skupdReq : Req := { aReq .skupd .dm { lane := 0, addr := 0 } with accepted := true, size := 4096, extra := [0, 1, 0x3F800000] }

theorem wit_skupd : Tab.find (withReq skupdReq).cmds 1 = none ∧ Tab.find (withReq skupdReq).reqs 1 = some skupdReq ∧ skupdReq.kind = .skupd ∧
    skupdReq.accepted = true ∧ skupdReq.destAccepted = false ∧
    (withReq skupdReq).unitFrozen (skVia 1 0 1) (skupdReq.skCap skupdReq.size) = false ∧ (withReq skupdReq).skFirst 1 1 skupdReq.vbase = true ∧
    (∃ u, (put32 (withReq skupdReq) 0 skHeaderWords).skHeader (skVia 1 0 1) (skupdReq.skCap skupdReq.size) = (u, .ok (some ⟨3, 6, 0, -8⟩)) ∧
      u.reqs = (withReq skupdReq).reqs) ∧
    (∃ u, (withReq skupdReq).skHeader (skVia 1 0 1) (skupdReq.skCap skupdReq.size) = (u, .ok none) ∧ u.reqs = (withReq skupdReq).reqs) :=
  ⟨by decide, by decide, by decide, by decide, by decide, by decide +kernel, by decide, presWith (by decide +kernel) (by decide +kernel),
    presWith (by decide +kernel) (by decide +kernel)⟩

/-! ### Rays -/

def excIs {α β ε : Type} [DecidableEq β] (x : α × Except ε β) (y : β) : Bool :=
  match x.2 with
  | .ok b => decide (b = y)
  | _ => false

theorem wit_raycast : (entryOf (on (regs [(0, 64), (2, 65), (5, 32)])).pane 0 % 16 = 0) ∧ entryOf (on (regs [(0, 64), (2, 65)])).pane 2 % 16 ≠ 0 ∧
    (∀ j, j < 0 → (Tab.find (st.core 0).ctxs j).isSome = true) ∧ Tab.find (st.core 0).ctxs 0 = none ∧ st.pane.ac.getD 0 0 ≠ 255 ∧
    RecordFits st.pane 0 9 256 := by
  unfold RecordFits CapAdmits
  decide

def aCtx : RayCtx := { grid := 1, part := 1, cmd := 1, cap := capFor 0 65536, hit := 64, miss := 0, cull := .none, rays := [(31, [0, 0, 0, 0, 0x3F800000, 0, 0, 0x7F800000, 5])] }

theorem wit_raycast_full : ∀ k, k < 32 → (Tab.find ((List.range 32).map (fun k => (k, aCtx))) k).isSome = true := by decide

/-- A unit triangle in the plane x = 1 before a ray along x. -/
def aRay : List Word := [0, 0x3E800000, 0x3E800000, 0, 0x3F800000, 0, 0, 0x7F800000]
def aTri : List Word := [0x3F800000, 0, 0, 0x3F800000, 0x3F800000, 0, 0x3F800000, 0, 0x3F800000]

theorem wit_triangle : (triTest aRay aTri).isSome = true := by decide +kernel

theorem allAre {p : Word → Bool} {b : Bool} {l : List Word} (h : l.all (fun x => p x == b) = true) : ∀ x ∈ l, p x = b := by
  simpa [List.all_eq_true] using h

/-- The ray meets the box from (1, 0, 0) to (2, 1, 1) at its corner of t = 1. -/
theorem wit_box : let box : List Word := [0x3F800000, 0, 0, 0x40000000, 0x3F800000, 0x3F800000]
    let d : Nat := 713623846352979940529142984724747568191373312
    0 < d ∧ box.length = 6 ∧ aRay.getD 7 0 = 0x7F800000 ∧ isFin32 (aRay.getD 3 0) = true ∧ (∀ x ∈ box, isFin32 x = true) ∧
    fix32 (aRay.getD 3 0) * (d : Int) ≤ (d : Int) * 713623846352979940529142984724747568191373312 ∧
    (∀ a ∈ [0, 1, 2], lt32 (box.getD (a + 3) 0) (box.getD a 0) = false ∧
      fix32 (box.getD a 0) * (d : Int) ≤ fix32 (aRay.getD a 0) * (d : Int) + (d : Int) * fix32 (aRay.getD (4 + a) 0) ∧
      fix32 (aRay.getD a 0) * (d : Int) + (d : Int) * fix32 (aRay.getD (4 + a) 0) ≤ fix32 (box.getD (a + 3) 0) * (d : Int)) := by
  refine ⟨by decide, by decide, by decide, by decide +kernel, allAre (by decide +kernel), by decide +kernel, by decide +kernel⟩

theorem wit_box_edges : (∃ x ∈ [(0x7FC00000 : Word)], isNan32 x = true) ∧
    (∀ x ∈ [(0x3F800000 : Word), 0, 0, 0, 0, 0], isNan32 x = false) ∧ lt32 (([0x3F800000, 0, 0, 0, 0, 0] : List Word).getD 3 0) 0x3F800000 = true :=
  ⟨⟨_, List.mem_cons_self, by decide +kernel⟩, allAre (by decide +kernel), by decide +kernel⟩

theorem wit_accept : let r := RayRec.cast 0 0 31 aRay
    tKey 0x3F800000 < tKey r.tmax ∧ r.hit = false ∧ tKey ({ r with tmax := 0x3F000000 } : RayRec).tmax < tKey 0x3F800000 ∧
    ({ den := 1, t := 1, u := 0, v := 0, back := true } : TriHit).back = true := by decide

theorem wit_next_fin : let f : RayFin := ⟨RayRec.cast 0 0 31 aRay, 5, 0, false, false, 1⟩
    ({ reorder := [f] } : Core).nextFin = some f := by decide

def aCast : Cmd := { aCmd (.raycast 0 0 0 3 .none) with caps := [capFor 0 65536] }

/-- A structure's record at the object's start, whose version 1 has its table at 512: one treelet, of one node at 1024, in stack 0. -/
def casting : State :=
  let r : PubRec := ⟨0, true, 2, 0, 0, 0, ⟨512, 1, 1, 0⟩ :: List.replicate 7 ⟨0, 0, 0, 0⟩⟩
  put32 (put (cmdOn aCast (st.modCore 0 (fun c => { c with ctxs := [(7, aCtx)] }))) 0 r.bytes) 512
    ([0x52540000, 1] ++ List.replicate 14 0 ++ [1024, 0, 4, 0])

def castPin : State := finSt (casting.pubUnit aCast.via (capFor 0 65536) .pin) casting
def castHead : State := (castPin.tableHead 0 1 (capFor 0 65536) 512).1
def castMid : State := castHead.modCtx 0 7 (fun y => { y with handle := 1, sent := true, left := 1, bad := false })
def castTree : State := (castMid.treelet 0 1 (capFor 0 65536) 512 1 0).1

theorem wit_ray_dispatch : Tab.find (casting.core 0).ctxs 7 = some aCtx ∧ Tab.find casting.cmds aCtx.cmd = some aCast ∧ aCast.id = aCtx.cmd ∧
    aCtx.sent = false ∧ aCtx.flying = [] ∧ casting.cmdReady aCast = true ∧ casting.recordSeen aCast.via aCtx.cap = true ∧
    casting.cmdRefused aCast = false ∧
    (∃ u, casting.pubUnit aCast.via aCtx.cap .pin = .fin u [1, 512, 0] false ∧ u = castPin) ∧ (1 : Word) ≠ 0xFFFFFFFF ∧
    presIs (castPin.pkgAt aCast.via aCtx.cap 0 true) (65536, false) = true ∧
    excIs (castPin.tableHead (65536 / 2 ^ 36) aCtx.part aCtx.cap (512 + 0 - aCtx.cap.base)) (0, 1) = true ∧
    rayInvalid (RayRec.cast 0 7 31 [0, 0, 0, 0, 0x3F800000, 0, 0, 0x7F800000, 5]).words = false ∧
    excIs (castMid.treelet (65536 / 2 ^ 36) aCtx.part aCtx.cap 512 1 0) ⟨1024, 0, 1, 0, 0, 0⟩ = true ∧
    Tab.find (castTree.core 0).ctxs 7 = some { aCtx with handle := 1, sent := true, left := 1, bad := false } :=
  have h : Tab.find (casting.core 0).ctxs 7 = some aCtx ∧ Tab.find casting.cmds aCtx.cmd = some aCast ∧ casting.cmdReady aCast = true ∧
      casting.recordSeen aCast.via aCtx.cap = true ∧ casting.cmdRefused aCast = false ∧
      finIs (casting.pubUnit aCast.via (capFor 0 65536) .pin) [1, 512, 0] false = true ∧
      presIs (castPin.pkgAt aCast.via (capFor 0 65536) 0 true) (65536, false) = true ∧
      excIs (castPin.tableHead (65536 / 2 ^ 36) aCtx.part aCtx.cap (512 + 0 - aCtx.cap.base)) (0, 1) = true ∧
      excIs (castMid.treelet (65536 / 2 ^ 36) aCtx.part aCtx.cap 512 1 0) ⟨1024, 0, 1, 0, 0, 0⟩ = true ∧
      Tab.find (castTree.core 0).ctxs 7 = some { aCtx with handle := 1, sent := true, left := 1, bad := false } := by decide +kernel
  ⟨h.1, h.2.1, by decide, by decide, by decide, h.2.2.1, h.2.2.2.1, h.2.2.2.2.1, finWith (s := casting) h.2.2.2.2.2.1 rfl, by decide,
    h.2.2.2.2.2.2.1, h.2.2.2.2.2.2.2.1, by decide +kernel, h.2.2.2.2.2.2.2.2.1, h.2.2.2.2.2.2.2.2.2⟩

theorem wit_ray_pin_fails : finIs ((cmdOn aCast st).pubUnit aCast.via (capFor 0 65536) .pin) [0xFFFFFFFF, 0, 0] true = true := by decide +kernel

def aMsg : RayMsg := ⟨capFor 0 65536, 1, .none, 512, 0, 1, RayRec.cast 0 7 31 aRay⟩

def trvWith (t : Trv) : State := st.modBase 0 (fun b => { b with trv := t })

/-- The second of two messages, of another source than the first: its key's queue holds one message, or as many as QDEPTH; no queue
has its key, and queue 1 is the lowest free one. -/
def arriving (l : List RayMsg) : Trv := { inbox := [(3, aMsg), (0, aMsg)], queues := [(0, [{ aMsg with treelet := 9 }]), (7, l)], qdepth := 2, rsize := 1 }

theorem wit_trv_arrival : ∀ l ∈ [[aMsg], [aMsg, aMsg]], let t := ((trvWith (arriving l)).base 0).trv
    t.inbox[1]? = some (0, aMsg) ∧ (∀ e ∈ t.inbox.take 1, e.1 ≠ 0) ∧ t.spill = [] ∧
    t.queues.find? (fun q => q.2.any (fun x => x.sameKey aMsg)) = some (7, l) ∧
    (l.length < t.qdepth ∨ (t.qdepth ≤ l.length ∧ 0 < t.rsize)) := by decide

theorem wit_trv_binds : let t := ((trvWith { arriving [] with queues := [(0, [{ aMsg with treelet := 9 }])] }).base 0).trv
    t.inbox[1]? = some (0, aMsg) ∧ t.spill = [] ∧ (∀ q ∈ t.queues, ∀ x ∈ q.2, x.sameKey aMsg = false) ∧ Tab.find t.queues 1 = none ∧
    (∀ i, i < 1 → (Tab.find t.queues i).isSome = true) := by decide

theorem wit_trv_ring_full : let t := ((trvWith { inbox := [(0, aMsg)], spill := [aMsg], rsize := 1 }).base 0).trv
    t.spill ≠ [] ∧ t.rsize ≤ t.spill.length ∧ t.full = false := by decide

/-- The fullest queue; of two that are as full, the one of the lower treelet. -/
theorem wit_trv_batch : let q := List.replicate 33 aMsg
    let t := ((trvWith { queues := [(255, q), (3, List.replicate 33 { aMsg with treelet := aMsg.treelet + 1 }), (0, [aMsg])] }).base 0).trv
    t.run = none ∧ t.outq.length < 256 ∧ (st.base 0).frozen = false ∧ t.spill = [] ∧ (255, q) ∈ t.queues ∧
    ∀ x ∈ t.queues, x = (255, q) ∨ x.2.length < q.length ∨
      (x.2.length = q.length ∧ ((q.head?).map RayMsg.treelet).getD 0 < ((x.2.head?).map RayMsg.treelet).getD 0) := by decide

theorem wit_trv_busy : let t := ((trvWith { run := some [aMsg], queues := [(0, [aMsg])] }).base 0).trv
    t.run.isSome = true ∧ t.queues = [(0, [aMsg])] ∧ t.outq.length < 256 ∧ t.hung = false ∧ t.run.isNone = false := by decide

/-- A unit that holds the object's entry: its table is read without a change of it. -/
def trvSeen (run : List RayMsg) : State :=
  ((put32 (trvWith { run := some run }) 512 (List.replicate 16 0)).tableHead 0 aMsg.part aMsg.cap aMsg.root).1

/-- No table stands there: the ray finishes with FAULT, the second of two as well. -/
theorem wit_trv_end : ∀ run ∈ [[aMsg], [aMsg, aMsg]], let s := trvSeen run
    (s.base 0).trv.run = some run ∧ (s.base 0).trv.left = 0 ∧ run[(s.base 0).trv.left]? = some aMsg ∧ (s.base 0).trv.bad = none ∧
    (s.base 0).trv.hung = false ∧ (match s.tableHead 0 aMsg.part aMsg.cap aMsg.root with
      | (v, .error .malformed) => decide ((v.base 0).trv = (s.base 0).trv ∧ v.time = s.time)
      | _ => false) = true := by decide +kernel

def aFin (ts : Nat) : RayFin := ⟨RayRec.cast 0 7 31 aRay, ts, 0, false, false, 1⟩

theorem wit_final_record : let s := trvWith { outq := [aFin 9] }
    (s.base 0).trv.outq.find? (fun f => f.ray.core == 0) = some (aFin 9) ∧ (s.core 0).reorder.length < 512 ∧ (s.core 0).forming = [] ∧
    (∀ y ∈ (s.core 0).reorder ++ [aFin 9], (s.core 0).below y.ts = false) ∧
    ((st.modCore 0 (fun c => { c with forming := [⟨64, 1, []⟩] })).core 0).forming ≠ [] := by decide

theorem wit_horizon : let s := st.modCore 0 (fun c =>
      { c with ctxs := [(7, aCtx)], horIn := [(0, 10)], reorder := [aFin 9], horizons := (List.range 15).map (fun g => (g + 1, 10)) })
    let c := s.core 0
    Tab.find s.cores 0 = some c ∧ c.ctxs ≠ [] ∧ Tab.find c.horIn 0 = some 10 ∧ c.reorder = [aFin 9] ∧
    Tab.find c.ctxs (aFin 9).ray.ctx = some aCtx ∧ (aFin 9).ts < 10 ∧ c.out = false ∧ (if (aFin 9).ray.hit then aCtx.hit else aCtx.miss) = 0 ∧
    (∀ j, j < 16 → j ≠ 0 → (aFin 9).ts < Tab.getD c.horizons j 0) ∧ (s.die 0).frozen = false := by decide

/-- A context whose rays are over, and whose pin stands in the record. -/
def releasing : State :=
  let r : PubRec := ⟨0, true, 2, 0, 0, 0, ⟨512, 1, 1, 1⟩ :: List.replicate 7 ⟨0, 0, 0, 0⟩⟩
  put (st.modCore 0 (fun c => { c with ctxs := [(7, { aCtx with handle := 1, sent := true })] })) 0 r.bytes

theorem wit_release : let x := { aCtx with handle := 1, sent := true }
    Tab.find (releasing.core 0).ctxs 7 = some x ∧ x.sent = true ∧ x.left = 0 ∧ x.held = 0 ∧ x.panes = 0 ∧ x.flying = [] ∧
    Tab.find releasing.cmds x.cmd = none ∧ releasing.callbacksQuiet x.pids = true ∧ releasing.homeDone (releasing.die (0 / 24)).clock = true ∧
    (∃ u, releasing.pubUnit { who := .ray 0 7, die := 0 / 24, part := x.part } x.cap (.rel x.handle) = .fin u [] false ∧ True) :=
  ⟨by decide, rfl, rfl, rfl, rfl, rfl, by decide, by decide, by decide, finWith (s := releasing) (by decide +kernel) trivial⟩

theorem wit_horizon_timeout : (st.die (0 / 24)).frozen = false ∧ Tab.find (trvWith {}).cores 0 = some ((trvWith {}).core 0) := by decide

/-! ### Filtering, attention mass and eviction -/

theorem wit_atmass : (∀ L, Act (xmOnly 0xFFFFFFFF).pane L → (fun L => 512 * (((VSrc.lane).val st.pane L).toNat / 64) +
    4 * (((VSrc.lane).val st.pane L).toNat % 64)) L + 4 ≤ ((xmOnly 0xFFFFFFFF).pane.creg 0).len) ∧
    st.eveFull (st.eveOf { who := .cmd st.nextRid, die := 0, part := 1, busB := true } (capFor 0 65536)) = false ∧ st.memMayIssue = true := by
  constructor
  · intro L h
    have hL := h.1
    clear h
    revert L
    decide
  · exact ⟨by decide +kernel, by decide⟩

/-- Sixty-four commands wait at stack 0's engine. -/
theorem wit_eve_full : let s := { st with cmds := (List.range 64).map (fun k => (k + 1, { aCmd (.evict none 0 0) with id := k + 1 })) }
    s.eveFull (s.eveOf { who := .cmd s.nextRid, die := 0, part := 1, busB := true } (capFor 0 65536)) = true := by decide +kernel

theorem wit_evict : let p := (on (regs [(0, 31), (3, 31)])).pane
    (p.sreg 0).toNat % 32 = (31 : CReg).val ∧ (p.sreg 0).toNat < 32 ∧ (p.sreg 3).toNat < 32 ∧ p.sreg 6 = 0 ∧ p.sreg 7 = 0 ∧
    bit p.cPend (31 : CReg).val = false ∧ p.ac.getD (3 : Fin 16).val 0 ≠ 255 ∧ bit (0x80000000 : Word) 31 = true ∧
    ¬ ((on (regs [(0, 32)])).pane.sreg 0).toNat < 32 := by decide

theorem wit_evict_fits : RecordFits (on (regs [(0, 31), (3, 31)])).pane 31 11 256 := by
  unfold RecordFits CapAdmits
  decide

def anEvict (stage : Nat) (ev : Evict) (outOff outLen : Nat) : Cmd :=
  { aCmd (.evict (some 61) 0 3) with stage := stage, ev := ev, caps := [capFor 0 65536],
                                     words := [0, 0, 0, 0, BitVec.ofNat 32 outOff, BitVec.ofNat 32 outLen, 0, 0] }

/-- No dead token; one dead token with a misaligned output, with one that is short by a byte, with one below the record's end. -/
theorem wit_evict_decides : let c := anEvict 1 { k := 1, listed := true, pages := [(0, 1)], dead := 1, keep := [(0, 0, 0, 0)], tsz := 1 } 512 1087
    c.stage = 1 ∧ c.ev.listed = true ∧ c.ev.pages.length ≤ c.ev.k ∧ 0 < c.ev.dead ∧ (c.word 4).toNat % 512 = 0 ∧
    (c.word 5).toNat < 512 * ((64 + 8 * 1 + 511) / 512) + 1 * (512 + 64 * c.ev.tsz) ∧ (anEvict 1 {} 0 0).ev.dead = 0 ∧
    ((anEvict 1 { dead := 1 } 513 0).word 4).toNat % 512 ≠ 0 ∧ ((anEvict 1 { dead := 1 } 0 4096).word 4).toNat < 256 := by decide

theorem wit_evict_end : let c := anEvict 6 { code := 0, out := 5 } 0 0
    let s := cmdOn c st
    Tab.find s.cmds c.id = some c ∧ c.ac = some 3 ∧ s.pane.pid = c.pid ∧ s.pane.place.live = true ∧ (61 : Fin 63).val + 1 < s.pane.s.length ∧
    (∃ u, s.pubUnit c.eveVia (c.cap 0) (.rel c.ev.handle) = .fin u [] false ∧ (u.pane = s.pane ∧ u.cmds = s.cmds)) :=
  ⟨by decide, rfl, by decide, by decide, by decide, finWith (s := cmdOn (anEvict 6 { code := 0, out := 5 } 0 0) st) (by decide +kernel) (by decide +kernel)⟩

/-- A page list at 512 with one page at 1024 of one token of 64 bytes, behind a record whose version 1 it is. -/
def evicting (stage : Nat) (ev : Evict) : State :=
  cmdOn (anEvict stage ev 2048 4096) (put32 (put (keyed (keyed st 1024 640) 2048 1216) 0 (⟨0, true, 2, 0, 0, 0, ⟨512, 1, 1, 0⟩ :: List.replicate 7 ⟨0, 0, 0, 0⟩⟩ : PubRec).bytes) 512 ([0x4B560000, 1, 64, 5] ++ List.replicate 12 0 ++ [1024, 256]))

theorem wit_evict_pin : let c := anEvict 0 {} 2048 4096
    let s := evicting 0 {}
    Tab.find s.cmds c.id = some c ∧ (s.base c.base).eveHung = false ∧ s.cmdReady c = true ∧ s.cmdRefused c = false ∧ c.base ≠ 16 ∧
    s.eveTurn c.base c.id false = true ∧ (∃ u, s.pubUnit c.eveVia (c.cap 0) .pin = .fin u [1, 512, 0] false ∧ u.cmds = s.cmds) ∧
    (∃ u, (cmdOn c st).pubUnit c.eveVia (c.cap 0) .pin = .fin u [0xFFFFFFFF, 0, 0] true ∧ u.cmds = (cmdOn c st).cmds) :=
  ⟨by decide, by decide, by decide, by decide, by decide, by decide +kernel, finWith (s := st) (by decide +kernel) (by decide +kernel),
    finWith (s := st) (by decide +kernel) (by decide +kernel)⟩

/-- The list of one page; a root whose list has no header; a list in poison. -/
theorem wit_evict_list : let c := anEvict 1 { root := 512 } 2048 4096
    let s := evicting 1 { root := 512 }
    c.stage = 1 ∧ c.ev.listed = false ∧
    (∃ u, s.pageList c.eveVia (c.cap 0) 512 = (u, .ok (some ⟨5, 64, [(1024, 1)]⟩)) ∧ u.cmds = s.cmds) ∧
    (∃ u, s.pageList c.eveVia (c.cap 0) 0 = (u, .ok none) ∧ u.cmds = s.cmds) ∧
    (({ s with poisoned := [1032] } : State).pageList c.eveVia (c.cap 0) 512).2 = .fail .poisoned :=
  ⟨rfl, rfl, presWith (by decide +kernel) (by decide +kernel), presWith (by decide +kernel) (by decide +kernel), by decide +kernel⟩

/-- The only slot of the only page: its mass 0 is below a threshold of 1, its position 0 before the window. -/
theorem wit_evict_slot : let c := anEvict 1 { root := 512, listed := true, nextpos := 5, tsz := 64, pages := [(1024, 1)] } 2048 4096
    let s := evicting 1 c.ev
    c.ev.pages[c.ev.k]? = some (1024, 1) ∧ 0 < 1 ∧ presIs (s.pkgRead c.eveVia (c.cap 0) (1024 + 4 * 0) 4 false) [0, 0, 0, 0] = true ∧
    presIs ((s.pkgRead c.eveVia (c.cap 0) 1024 4 false).1.pkgRead c.eveVia (c.cap 0) (1024 + 256 + 4 * 0) 4 false) [0, 0, 0, 0] = true ∧
    ((s.pkgRead c.eveVia (c.cap 0) 1024 4 false).1.pkgRead c.eveVia (c.cap 0) 1280 4 false).1.cmds = s.cmds ∧
    tokenDead 0x3F800000 0 5 0 0 = true ∧ tokenDead 0 0 5 0 0 = false := by decide +kernel

/-- The output of one survivor begins right behind the input's last byte, and is as large as OUTLEN. -/
theorem wit_evict_room : let c := anEvict 1 { root := 512, listed := true, tsz := 64, pages := [(1024, 2)], k := 1, dead := 1, keep := [(1024, 0, 0, 0)] } 5632 5120
    c.ev.pages.length ≤ c.ev.k ∧ 0 < c.ev.dead ∧ (c.word 4).toNat % 512 = 0 ∧ 256 ≤ (c.word 4).toNat ∧
    (c.word 4).toNat + 512 * ((64 + 8 * 1 + 511) / 512) + 1 * (512 + 64 * 64) ≤ (c.cap 0).len ∧
    512 * ((64 + 8 * 1 + 511) / 512) + 1 * (512 + 64 * 64) ≤ (c.word 5).toNat ∧
    (∀ x ∈ (c.ev.root - (c.cap 0).base, 64 + 8 * c.ev.pages.length) :: c.ev.pages.map (fun q => (q.1, 512 + 64 * 64)),
      (c.word 4).toNat + 512 * ((64 + 8 * 1 + 511) / 512) + 1 * (512 + 64 * 64) ≤ x.1 ∨ x.1 + x.2 ≤ (c.word 4).toNat) := by decide +kernel

/-- A survivor is read and written, then the list; a write into poison fails. -/
theorem wit_evict_copy : let c := anEvict 3 { tsz := 64, keep := [(1024, 0, 0x3F800000, 7)] } 2048 4096
    let s := evicting 3 c.ev
    let u := (s.pkgRead c.eveVia (c.cap 0) (1024 + 512 + 0 * 64) 64 false).1
    let ws := [(2560 + 512, List.replicate 64 (0 : Byte)), (2560 + 256, toBytes 4 7), (2560, toBytes 4 (decay 0x3F800000 0).toNat)]
    let v := (u.evictWrite c ws).1
    c.ev.keep[c.ev.k]? = some (1024, 0, 0x3F800000, 7) ∧
    presIs (s.pkgRead c.eveVia (c.cap 0) (1024 + 512) 64 false) (List.replicate 64 0) = true ∧ presIs (u.evictWrite c ws) () = true ∧
    v.cmds = s.cmds ∧ (({ u with poisoned := [1024 + 44] } : State).evictWrite c ws).2 = .fail .poisoned ∧
    (({ c.ev with k := 1 } : Evict).keep.length ≤ 1) := by decide +kernel

theorem wit_evict_list_written : let c := anEvict 4 { tsz := 64, keep := [(1024, 0, 0x3F800000, 7)] } 2048 4096
    let s := evicting 4 c.ev
    presIs (s.evictWrite c [(2560 + 4, List.replicate 252 0), (2560 + 260, List.replicate 252 0xFF),
      (2048, toBytes 64 (0x4B560000 + 1 * 2 ^ 32 + 64 * 2 ^ 64 + 0 * 2 ^ 96) ++ toBytes 8 (2560 + 1 * 2 ^ 40))]) () = true := by decide +kernel

theorem wit_conditional : let c := anEvict 5 { handle := 1 } 512 0
    let s := cmdOn c (put st 0 (⟨0, true, 2, 0, 0, 0, ⟨512, 1, 1, 1⟩ :: List.replicate 7 ⟨0, 0, 0, 0⟩⟩ : PubRec).bytes)
    s.quietSys c.pid c.mark = true ∧
    (∃ u, s.pubUnit c.eveVia (c.cap 0) (.cond c.ev.handle ((c.cap 0).base + 512)) = .fin u [0, 0x20000002] false ∧ u.cmds = s.cmds) :=
  ⟨by decide, finWith (s := st) (by decide +kernel) (by decide +kernel)⟩

/-- A full record; the threshold and the masses at their ends. -/
theorem wit_eviction_arithmetic : IsFinite F32 (0xFF7FFFFF : Word).toNat ∧ ((0xFF800000 : Word) &&& 0x7FFFFFFF).toNat = 0x7F800000 ∧
    0x7F800000 < ((0x7F800001 : Word) &&& 0x7FFFFFFF).toNat ∧ recFull.slots.length = 8 ∧ recFull.cv = true ∧
    recFull.cur = (0xE0000001 : Word).toNat / 2 ^ 29 ∧ (recFull.slot recFull.cur).ver = (0xE0000001 : Word).toNat % 2 ^ 29 ∧
    (∀ k, k < 8 → (recFull.slot k).st ≠ 0) := by
  simp only [IsFinite]
  decide

theorem wit_decay : isFin32 0x3F800000 = true ∧ 0x7F800000 < ((0xFF800001 : Word) &&& 0x7FFFFFFF).toNat := by decide

def posReq : Req :=
  { aReq .posrd .dm { lane := 31, addr := 0, data := toBytes 4 0 ++ toBytes 4 0 } with extra := [65536 + 0xFF * 2 ^ 40, 0], vbase := 0 }

theorem wit_posrd : let s := put32 (withReq posReq) 0 (List.replicate 64 0)
    let c : Cap := ⟨true, BitVec.ofNat 128 (posReq.vbase + posReq.extra.getD 0 0 * 2 ^ 56 + posReq.part * 2 ^ 104 + posReq.obj * 2 ^ 112)⟩
    Tab.find s.reqs posReq.rid = some posReq ∧ posReq.left = true ∧ posReq.lanes ≠ [] ∧ (∀ l ∈ posReq.lanes, l.stage = .issued) ∧
    s.quiet posReq.pid posReq.rid = true ∧ s.homeDone (s.die (posReq.core / 24)).clock = true ∧
    s.stopFailed posReq.core = false ∧ posReq.eve ≠ 16 ∧ s.eveTurn posReq.eve posReq.rid false = true ∧ s.eveQueue 0 = [posReq.rid] ∧ (s.base 0).eveHung = false ∧
    (∃ u, s.pkgRead posReq.posVia c 0 256 true = (u, .ok ((List.replicate 256 0 : List Byte))) ∧ True) ∧
    PubRec.parse (ofBytes (List.replicate 256 (0 : Byte))) c.len = none := by
  refine ⟨by decide, by decide, by decide, by decide, by decide, by decide, by decide, by decide, by decide, by decide, by decide, ?_, by decide +kernel⟩
  exact presWith (by decide +kernel) trivial

theorem wit_pos_dead : (recNone.slot (bits (wordOfNat (ofBytes ((posReq.lanes.getD 0 { lane := 0, addr := 0 }).data.take 4))) 29 3)).st ≠ 1 := by decide

def texReq : Req := { aReq .tex .tm { lane := 31, addr := 0, data := toBytes 4 0x7F800000 ++ toBytes 4 0 } with extra := [0, 0, 1, 65536], regs := 1 }

def texPlaces : State := ((withReq texReq).pkgPlaces texReq.fltVia (texReq.fltCap 65536) 0 64 false).1

/-- A descriptor of zeros, and one of a texture of one texel (R317). -/
theorem wit_filter : let s := withReq texReq
    (∀ l ∈ texReq.lanes, l.stage = .issued) ∧ s.fltWaits texReq = false ∧ s.stopFailed texReq.core = false ∧
    (∃ u, s.pkgPlaces texReq.fltVia (texReq.fltCap (texReq.extra.getD 3 0)) 0 64 false = (u, .ok [(65536, false, 64)]) ∧ u = texPlaces) ∧
    texPlaces.oneExtent texReq.fltVia (texReq.fltCap 65536) [(65536, false, 64)] = true ∧
    presIs (texPlaces.readPlaces texReq.fltVia [(65536, false, 64)]) (List.replicate 64 0) = true ∧
    TexDesc.parse (ofBytes (List.replicate 64 (0 : Byte))) = none ∧
    (TexDesc.parse (0x5458 * 2 ^ 16 + 4 * 2 ^ 64)).isSome = true ∧ isFin32 (coordOf { lane := 31, addr := 0, data := toBytes 4 0x7F800000 ++ toBytes 4 0 } 0) = false :=
  ⟨by decide, by decide, by decide, presWith (by decide +kernel) rfl, by decide +kernel, by decide +kernel, by decide +kernel, by decide +kernel,
    by decide +kernel⟩

/-- A descriptor in a tier-1 extent is not one of a tier-0 extent; the word's mesh stop has failed. -/
theorem wit_filter_refused : texPlaces.oneExtent texReq.fltVia (texReq.fltCap 65536) [(65536, true, 64)] = false ∧
    ((withReq texReq).modCluster 0 (fun c => { c with failed := true })).stopFailed texReq.core = true := by decide +kernel

/-- What the die's clock names is not at its home; the capability's object is not there; the descriptor is poisoned. -/
theorem wit_filter_fails : (let s := (withReq texReq).modDie 0 (fun d => { d with clock := [(0, 9)] })
      s.stopFailed texReq.core = false ∧ (s.homeDone (s.die 0).clock = false ∨ s.fltWaits texReq = false)) ∧
    (match (({ withReq texReq with otAddr := [] } : State).pkgPlaces texReq.fltVia (texReq.fltCap 65536) 0 64 false).2 with
      | .fail _ => true
      | _ => false) = true ∧
    (({ texPlaces with poisoned := [1024] } : State).readPlaces texReq.fltVia [(65536, false, 64)]).2 = .fail .poisoned := by decide +kernel

/-- Reads that end at the extent's last byte, that pass it, and of another stack than the descriptor's. -/
theorem wit_filter_reads : (let s := withReq texReq
      ∃ u, s.pkgPlaces texReq.fltVia (texReq.fltCap 64) 60 4 true = (u, .ok [(65596, false, 4)]) ∧
        presIs (u.readPlaces texReq.fltVia [(65596, false, 4)]) [0, 0, 0, 0] = true) ∧
    64 < 61 + 4 ∧ 60 + 4 ≤ 64 ∧ (∀ p ∈ [((65596 : Nat), false, (4 : Nat))], p.1 / 2 ^ 36 = 0) ∧
    (∃ p ∈ [((65596 : Nat), false, (4 : Nat))], p.1 / 2 ^ 36 ≠ 1) :=
  ⟨presWith (by decide +kernel) (by decide +kernel), by decide, by decide, by decide, by decide⟩

/-- A texture of one texel of four bytes at the descriptor's place; a lane whose coordinates are the smallest subnormal and minus it. -/
def aTex : TexDesc := ⟨3, 1, 1, 4, 0⟩

def tinyLane : Lane := { lane := 31, addr := 0, data := toBytes 4 1 ++ toBytes 4 0x80000001 }

theorem wit_tex_lane : isFin32 (coordOf tinyLane 0) = true ∧ isFin32 (coordOf tinyLane 1) = true ∧ aTex.fmt < 4 ∧
    (0 : Int) * 2 ^ 149 ≤ fix32 (coordOf tinyLane 0) * aTex.w ∧ fix32 (coordOf tinyLane 0) * aTex.w < (0 + 1) * 2 ^ 149 ∧
    (-1 : Int) * 2 ^ 149 ≤ fix32 (coordOf tinyLane 1) * aTex.h ∧ fix32 (coordOf tinyLane 1) * aTex.h < (-1 + 1) * 2 ^ 149 ∧
    HalfSplit (2 * fix32 (coordOf tinyLane 0) * aTex.w - 2 ^ 149) (-1) 128 ∧
    HalfSplit (2 * fix32 (coordOf tinyLane 1) * aTex.h - 2 ^ 149) (-1) 127 ∧
    excIs (texPlaces.fltReads texReq 65536 0 4 [(0 + 0 * 4 + 0 * 4, 65536)]) [(65536, [0, 0, 0, 0])] = true := by
  unfold HalfSplit
  decide +kernel

/-- Two levels of a resolution of 4, over the same lane with a third coordinate of 0. -/
def aGrid : HgDesc := ⟨2, false, 16, 0, List.replicate 16 4⟩

def gridLane : Lane := { lane := 31, addr := 0, data := toBytes 4 0x3F000000 ++ toBytes 4 0x3E800000 ++ toBytes 4 0 }

def gridReq : Req := { aReq .hgrid .tm gridLane with extra := [1, 0, 65536], regs := 1 }

theorem wit_grid_lane : (∀ a ∈ [0, 1, 2], isFin32 (coordOf gridLane a) = true) ∧
    (fix32 (coordOf gridLane 0) * 4 = 2 * 2 ^ 149 ∧ fix32 (coordOf gridLane 1) * 4 = 1 * 2 ^ 149 ∧ fix32 (coordOf gridLane 2) * 4 = 0 * 2 ^ 149) ∧
    excIs (texPlaces.hgLane { gridReq with extra := [0, 0, 65536] } aGrid 0 gridLane) [] = true ∧
    excIs ((texPlaces.hgLane { gridReq with extra := [0, 0, 65536] } aGrid 0 gridLane).1.fltReads gridReq 65536 0 4
      [(0 + (0 * 16 + (2 ^^^ (1 * 0x8DA6B343) ^^^ 0) % 16) * 4, 65536 * 65536 * 65536)]) [(65536 * 65536 * 65536, [0, 0, 0, 0])] = true := by
  decide +kernel

/-- Lanes of which one gives its words and one fails. -/
theorem wit_lanes_go : LanesGo (fun s l => if l.lane = 0 then (s, .ok [7]) else (s, .error (.fail .poisoned))) st
    [{ lane := 0, addr := 0 }, { lane := 1, addr := 0 }] st
    [{ lane := 0, addr := 0, stage := .landed, got := [7, 0, 0, 0] }, { lane := 1, addr := 0, stage := .failed .poisoned }] :=
  ⟨st, .ok [7], _, _, rfl, ⟨st, .error (.fail .poisoned), _, _, rfl, ⟨rfl, rfl⟩, rfl, .inr ⟨_, rfl, rfl⟩⟩, rfl, .inl ⟨_, rfl, rfl⟩⟩

theorem wit_hgrid : HgDesc.parse 0 1 false = none ∧ (HgDesc.parse (0x4847 * 2 ^ 16 + 2 ^ 32 + 2 ^ 128) 1 false).isSome = true ∧
    (∃ k, k < 3 ∧ isFin32 (coordOf { lane := 0, addr := 0, data := toBytes 4 0 ++ toBytes 4 0 ++ toBytes 4 0xFF800000 } k) = false) :=
  ⟨by decide +kernel, by decide +kernel, 2, by decide, by decide +kernel⟩

theorem wit_tex_address : 0 < 4 ∧ (0 : Int) ≤ 3 ∧ (3 : Int) < (4 : Nat) ∧ (-1 : Int) < 0 ∧ ((4 : Nat) : Int) ≤ 4 := by decide

/-! ### Launches, queues, placement, retirement, switches -/

theorem wit_launch : let s := on (regs [(0, 256), (1, 0xFF000000)])
    ((s.pane.sreg 0).toNat + (s.pane.sreg (0 + 1)).toNat % 2 ^ 24 * 2 ^ 32) % 256 = 0 ∧ s.pane.depth ≠ 10 ∧ s.children < 4096 ∧
    s.pane.ac.getD (15 : Fin 16).val 0 ≠ 255 ∧ (on (fun p => { p with depth := 10 })).pane.depth = 10 ∧
    4096 ≤ ({ s with children := 4096 } : State).children ∧ s.memMayIssue = true ∧
    ((on (regs [(62, 255)])).pane.sreg (62 : Fin 63).val).toNat % 256 ≠ 0 := by decide

/-- A launch record at 256 for the kernel at 64, one team of one pane; partition 1 is enabled and has group 0. -/
def recorded (w : List Nat) : State :=
  put32 (put32 (inGrid.modPart 1 (fun p => { p with en := true, groups := 1 })) 0 [0x4B480008, 128]) 256 w

def aRecord : List Nat :=
  [0x4C520000, 0, 64, 0, 0, 0, 0, 0, 0, 0, 0, 0, 0xFFFF, 0, 0xFFFFFFFF, 0xFFFFFFFF] ++ List.replicate 48 0

def aQueue : Queue := { en := true, part := 1, logsz := 1, base := 256, head := 0xFFFFFFFE, tail := 0xFFFFFFFF, prio := 2 }

def queued (w : List Nat) : State := { recorded w with queues := [(32767, aQueue)] }

def theLaunch : Grid := mkGrid (ofBytes (aRecord.map (toBytes 4)).flatten) 1 2 1 none ⟨8, 128, 0, 0⟩ []

/-- The head record is the dispatcher's next choice. -/
theorem wit_grid_start : Tab.find (queued aRecord).queues 32767 = some aQueue ∧ (queued aRecord).queueOpen aQueue = true ∧
    (∃ t, (queued aRecord).readHead 32767 aQueue = (t, .ok theLaunch) ∧ t.queues = (queued aRecord).queues) ∧
    (queued aRecord).nextStart = some (false, 32767) := by
  have h : ((queued aRecord).readHead 32767 aQueue).2 = .ok theLaunch ∧ ((queued aRecord).readHead 32767 aQueue).1.queues = (queued aRecord).queues ∧
      (queued aRecord).nextStart = some (false, 32767) ∧ (queued aRecord).queueOpen aQueue = true := by decide +kernel
  exact ⟨rfl, h.2.2.2, pairWith h.1 h.2.1, h.2.2.1⟩

/-- A TLP through another TDI's space; one without IDE through the space of a TDI in RUN; one that is not barred. -/
theorem wit_barred : Barred st 1 true (some 2) ∧ Barred (st.modPart 1 (fun p => { p with tdi := 2 })) 1 false (some 1) ∧
    ¬ Barred (st.modPart 1 (fun p => { p with tdi := 2 })) 1 false none ∧ ¬ Barred (st.modPart 1 (fun p => { p with tdi := 2 })) 1 true (some 1) ∧
    32767 < 32768 ∧ 65534 < 65535 := by
  refine ⟨⟨2, rfl, .inl (by decide)⟩, ⟨1, rfl, .inr (by decide)⟩, ?_, ?_, by decide, by decide⟩
  · rintro ⟨p, h, -⟩
    cases h
  · rintro ⟨p, h, h2⟩
    cases h
    revert h2
    decide

/-- A record of zeros is no launch record. -/
theorem wit_bad_head : let s := queued (List.replicate 64 0)
    s.queueOpen aQueue = true ∧ ∃ t, s.readHead 32767 aQueue = (t, .bad) ∧ t.queues = s.queues := by
  have h : ((queued (List.replicate 64 0)).readHead 32767 aQueue).2 = .bad ∧
      ((queued (List.replicate 64 0)).readHead 32767 aQueue).1.queues = (queued (List.replicate 64 0)).queues ∧
      (queued (List.replicate 64 0)).queueOpen aQueue = true := by decide +kernel
  exact ⟨h.2.2, pairWith h.1 h.2.1⟩

def waitingKid : State :=
  { recorded aRecord with grids := [(5, { theGrid with started := false, wctr := [7], wval := [3] })], accepted := [5], children := 1,
                          ctrs := [(7, { owner := 1, value := 3 })] }

theorem wit_child_start : waitingKid.nextStart = some (true, 5) ∧
    Tab.find waitingKid.grids 5 = some { theGrid with started := false, wctr := [7], wval := [3] } := by decide +kernel

def placing : State := { recorded aRecord with grids := [(3, theGrid)], teams := [] }

theorem wit_placement : Tab.find placing.grids 3 = some theGrid ∧ theGrid.started = true ∧
    theGrid.placed < theGrid.nteam ∧ placing.teamWaits theGrid.part theGrid.prio (some 3) none = false ∧ placing.nextCore theGrid = some 0 ∧
    placing.scratchAt 0 theGrid.scratch = some 0 := by decide +kernel

def aLaunch : Cmd := { aCmd (.launch 2 30 3) with grid := 1, base := 256 }

def launched (w : List Nat) : State := onPane (fun p => { p with ac := setAt p.ac 3 1, place := .resident 0 }) (cmdOn aLaunch { recorded w with children := 1 })

theorem wit_launch_accept : let s := launched aRecord
    let x := mkGrid (ofBytes (aRecord.map (toBytes 4)).flatten) 1 theGrid.prio (theGrid.depth + 1) (some 1) ⟨8, 128, 0, 0⟩ []
    Tab.find s.cmds aLaunch.id = some aLaunch ∧ aLaunch.i = .launch 2 30 3 ∧ aLaunch.ac = some 3 ∧ s.cmdReady aLaunch = true ∧ s.cmdRefused aLaunch = false ∧
    Tab.find s.grids aLaunch.grid = some theGrid ∧ s.pane.pid = aLaunch.pid ∧ s.pane.place.live = true ∧ 3 < s.pane.ac.length ∧
    ∃ u, s.readLaunch { aLaunch.via with again := true, hold := true } aLaunch.base theGrid.prio (theGrid.depth + 1) (some aLaunch.grid) = (u, .ok x) ∧
      (u.pane = s.pane ∧ u.cmds = s.cmds) := by
  refine ⟨by decide +kernel, rfl, rfl, by decide +kernel, by decide +kernel, by decide +kernel, by decide +kernel, by decide +kernel, by decide +kernel,
    pairWith (by decide +kernel) (by decide +kernel)⟩

theorem wit_launch_refused : let s := launched (setAt aRecord 0 0x4C530000)
    s.cmdReady aLaunch = true ∧
    ∃ u, s.readLaunch { aLaunch.via with again := true, hold := true } aLaunch.base theGrid.prio (theGrid.depth + 1) (some aLaunch.grid) = (u, .bad) ∧
      (u.pane = s.pane ∧ u.cmds = s.cmds) :=
  ⟨by decide +kernel, pairWith (by decide +kernel) (by decide +kernel)⟩

theorem wit_retirement : let g := { theGrid with placed := 1, sigctr := 65534, siginc := 0xFFFFFFFF }
    let s := { st with grids := [(7, g)] }
    Tab.find s.grids 7 = some g ∧ s.mayRetire 7 g = true ∧ g.sigctr ≠ 0xFFFF := by decide +kernel

theorem wit_bandwidth : let s := { st with cycle := 1024 }
    s.lastBand < s.cycle / 1024 ∧ Tab.getD s.buckets 1791 0 ≤ 65536 := by decide

def switching (f : Team → Team) : State := { inGrid with teams := [(teamKey 1 0, f theTeam)] }

/-- The core of the switch as it runs, and its panes. -/
def formedOf (s : State) : State :=
  (List.range 16).foldl (fun s b => s.formBin 0 b) (s.modCore 0 (fun c => { c.settleBins s.cycle false with busy := true, out := true }))

def leaversOf (s : State) : List Pane := ((formedOf s).corePanes 0).filter (fun p => p.inCore && !p.moving)

/-- Every pane finds its record; with every team save record taken the first finds none. -/
theorem wit_switch : (inGrid.core 0).part ≠ 0 ∧ (inGrid.core 0).busy = false ∧ (leaversOf (switching id)).length = 1 ∧
    ((leaversOf (switching id)).foldlM State.leaveOne (formedOf (switching id))).isSome = true ∧
    (let s := { switching id with grids := [(1, { theGrid with tsUsed := [0, 1, 2, 3] })] };
      leaversOf s = [] ++ s.pane :: [] ∧ ([] : List Pane).foldlM State.leaveOne (formedOf s) = some (formedOf s) ∧
      (formedOf s).leaveOne s.pane = none) := by
  refine ⟨by decide +kernel, by decide +kernel, by decide +kernel, by decide +kernel, by decide +kernel, rfl, by decide +kernel⟩

def emptied : State := onPane (fun p => { p with place := .exited }) (inGrid.modCore 0 (fun c => { c with out := true, busy := true }))

theorem wit_switch_done : let s := { emptied with teams := [] }
    (s.core 0).out = true ∧ s.coreEmpty 0 = true ∧ s.homeTeams 0 = [] ∧
    (s.modCore 1 (fun c => { c with part := 1 })).clusterRuns 0 (s.core 0).part = true := by decide +kernel

/-- The cluster's last core, and its barrier block in the partition's object. -/
def lastCore : State := { emptied.modPart 1 (fun p => { p with clbV := true, clbAddr := 1024 }) with teams := [] }

def barBlock : List Byte := (lastCore.clBars (0 / 6) 1).flatMap Bar.bytes

def barsOut : State := (lastCore.writeVA (switchVia 0 1) (lastCore.clBlock 0 1) barBlock).1

theorem wit_switch_last : (lastCore.core 0).out = true ∧ lastCore.coreEmpty 0 = true ∧ lastCore.homeTeams 0 = [] ∧
    lastCore.clusterRuns 0 1 = false ∧ lastCore.clLoading (0 / 6) 1 = false ∧ (lastCore.part 1).clbV = true ∧
    presIs (lastCore.writeVA (switchVia 0 1) (lastCore.clBlock 0 1) barBlock) () = true ∧ barsOut.core 0 = lastCore.core 0 := by
  decide +kernel

theorem wit_bars : let b : Bar := { phase := 2 ^ 32 - 1, count := 65535, total := some 65534, grid := 2 ^ 32 - 1 }
    (∀ x ∈ List.replicate 16 b, x.phase < 2 ^ 32 ∧ x.grid < 2 ^ 32 ∧ x.count < 2 ^ 16 ∧ x.last = 0 ∧ x.past = []) ∧
    (List.replicate 16 b).length = 16 ∧ (65534 : Nat) < 65535 := by decide

theorem wit_core_part : (st.core 1535).part = 0 ∧ (st.core 1535).busy = false ∧ (255 : BitVec 8) ≠ 0 ∧ (inGrid.core 0).part ≠ 0 := by decide
/-! ### The fabric -/

def portUp : Port := { up := true, expect := 5, unacked := [⟨3, 0, [], none⟩, ⟨4, 8, [], none⟩], rxWin := [0, 1024, 0, 0, 0, 0, 0, 0] }

def linked (p : Port) : State := { st with ports := [(31, p)] }

def zeros32 : List Byte := List.replicate 32 0

/-- A flit of zeros but for LSEQ 5, LACK 3, a CRC and kind 1 (bits 142 to 145). -/
def flitOf (crc : List Byte) : Flit :=
  ⟨[5, 0, 3, 0] ++ crc ++ ([0, 0, 0, 0, 0, 0, 0, 0, 0, 0x40, 0, 0, 0, 0, 0, 0, 0, 0, 0, 0, 0, 0, 0, 0] ++
    (zeros32 ++ (zeros32 ++ (zeros32 ++ (zeros32 ++ (zeros32 ++ (zeros32 ++ zeros32)))))))⟩

/-- Its CRC, from a calculation outside the model. -/
def aFlit : Flit := flitOf [0x2B, 0x03, 0xFF, 0xCE]

theorem crcSteps : ([5, 0, 3, 0, 0, 0, 0, 0, 0, 0, 0, 0, 0, 0, 0, 0, 0, 0x40, 0, 0, 0, 0, 0, 0, 0, 0, 0, 0, 0, 0, 0, 0] : List Byte).foldl
      crcByte 0xFFFFFFFF = 0x17697780 ∧
    zeros32.foldl crcByte 0x17697780 = 0xDA0C0E8A ∧
    zeros32.foldl crcByte 0xDA0C0E8A = 0x74E067D5 ∧
    zeros32.foldl crcByte 0x74E067D5 = 0xEB02D3B0 ∧
    zeros32.foldl crcByte 0xEB02D3B0 = 0x6F116782 ∧
    zeros32.foldl crcByte 0x6F116782 = 0x533D1EA6 ∧
    zeros32.foldl crcByte 0x533D1EA6 = 0xA2D4390A ∧
    zeros32.foldl crcByte 0xA2D4390A = 0x3100FCD4 := by decide +kernel

theorem flitCrc (a b c d : Byte) : crc32c ((flitOf [a, b, c, d]).bytes.take 4 ++ [0, 0, 0, 0] ++ (flitOf [a, b, c, d]).bytes.drop 8) = 0xCEFF032B := by
  have h : (flitOf [a, b, c, d]).bytes.take 4 ++ [0, 0, 0, 0] ++ (flitOf [a, b, c, d]).bytes.drop 8 =
      [5, 0, 3, 0, 0, 0, 0, 0, 0, 0, 0, 0, 0, 0, 0, 0, 0, 0x40, 0, 0, 0, 0, 0, 0, 0, 0, 0, 0, 0, 0, 0, 0] ++
      (zeros32 ++ (zeros32 ++ (zeros32 ++ (zeros32 ++ (zeros32 ++ (zeros32 ++ zeros32)))))) := by
    simp only [flitOf, List.cons_append, List.nil_append, List.take_succ_cons, List.take_zero, List.drop_succ_cons, List.drop_zero]
  obtain ⟨h1, h2, h3, h4, h5, h6, h7, h8⟩ := crcSteps
  rw [h, crc32c]
  simp only [List.foldl_append]
  rw [h1, h2, h3, h4, h5, h6, h7, h8]
  rfl

/-- The CRC that holds, and one that does not. -/
theorem wit_flit : ((linked portUp).port 31).up = true ∧ ((linked portUp).port 31).failed = false ∧ aFlit.bytes.length = 256 ∧
    flitCrcOk aFlit = true ∧ flitCrcOk (flitOf [0, 0, 0, 0]) = false ∧
    (FlitHead.parse (ofBytes (aFlit.bytes.take 32))).lseq = portUp.expect ∧ (FlitHead.parse (ofBytes (aFlit.bytes.take 32))).kind = 1 ∧
    (FlitHead.parse (ofBytes (aFlit.bytes.take 32))).rsv = false := by
  refine ⟨rfl, rfl, by decide +kernel, ?_, ?_, by decide +kernel, by decide +kernel, by decide +kernel⟩
  · rw [flitCrcOk, aFlit, flitCrc]
    decide +kernel
  · rw [flitCrcOk, flitCrc]
    decide +kernel

/-- A flit of request `rid` that was resent 8 times. -/
def lossy (rid : Nat) : Port := { portUp with unacked := [⟨4, 8, [], some (rid, 0)⟩] }

/-- Of the two flits not acknowledged the second is at its limit, and may bear a lane of a request. -/
theorem wit_retry : (∀ x ∈ (portUp.acked 4).unacked, x.resent < 8) ∧ (∃ x ∈ (portUp.acked 3).unacked, 8 ≤ x.resent) ∧ portUp.lack < 65536 ∧
    (let r := aReq .store .pm { lane := 0, addr := 0 };
      (Tab.find (after (.linkRetryRequest 31 3) { withReq r with ports := [(31, lossy r.rid)] }).reqs r.rid).any (fun q =>
        q.lanes.any (fun l => l.lane == 0)) = true) :=
  ⟨by decide, ⟨⟨4, 8, [], none⟩, by decide, by decide⟩, by decide, by decide +kernel⟩

def aSession : Session := { num := 0, peer := 65535, ppart := 2, part := 1, port := 31, key := 9 }

/-- No session; a window used up, and one with a place; a window of the peer's used up, with a message to send. -/
theorem wit_sealed : let h := FlitHead.parse (ofBytes (aFlit.bytes.take 32))
    (∀ x ∈ (linked portUp).sessions, x.port = 31 → x.num = h.session → x.failed = true) ∧
    ((linked portUp).port 31).rxWin.getD h.vl 0 ≤ ((linked portUp).port 31).rxUsed.getD h.vl 0 ∧
    (let q := ({ linked { portUp with rxWin := [1024, 0, 0, 0, 0, 0, 0, 0] } with sessions := [aSession] } : State).port 31;
      q.rxUsed.getD h.vl 0 < q.rxWin.getD h.vl 0) ∧
    ([aSession]).find? (fun x => x.num == h.session && x.port == 31) = some aSession ∧ aSession.failed = false ∧
    portUp.sendQ = [] ∧ portUp.txWin.getD 7 0 ≤ portUp.txUsed.getD 7 0 ∧ aSession.port = 31 ∧ h.vl ≠ 4 := by
  decide +kernel

/-- A message of session 0 on virtual lane 4; a message to send with a place in its window. -/
theorem wit_lane4 : let f : Flit := ⟨List.replicate 17 0 ++ [0x40, 0x10] ++ List.replicate 237 0⟩
    let h := FlitHead.parse (ofBytes (f.bytes.take 32))
    let p : Port := { portUp with rxWin := List.replicate 8 1, txWin := List.replicate 8 1, txUsed := List.replicate 8 0 }
    let x := { aSession with num := 65535 }
    h.session = 0 ∧ h.vl = 4 ∧ p.rxUsed.getD h.vl 0 < p.rxWin.getD h.vl 0 ∧ p.sendQ = [] ∧ p.txUsed.getD 7 0 < p.txWin.getD 7 0 ∧ x.num ≠ 0 ∧
    ({ linked p with sessions := [x] } : State).sessions.find? (fun y => y.num == x.num && y.port == 31 && !y.failed && decide (y.txSeq < 2 ^ 64 - 1)) =
      some x := by decide +kernel

/-- A peer with a session for partition 1. -/
def peered : State :=
  { put (linked portUp) 0 (List.replicate 64 0) with sessions := [aSession, { aSession with part := 2 }],
                                                     otAddr := Tab.set st.otAddr 60 (Tab.getD st.otAddr 0 []) }

def aPeer (off : Nat) (op : Option AOp) : PeerReq := ⟨65535, 2, 1, 0, off, op, .w, [1, 0, 0, 0], 31, 1, []⟩

/-- The unit of requests that come in at port 31, on die 60. -/
def peerVia (part : Nat) : Via := { who := .peer 31, die := 60, part := part, write := true }

def peerObj : Obj := ((peered.lookupObj 60 1 0).2).getD { gen := 0, part := 0, obj := 0, valid := false, key := 0, kind := 0, vbase := 0, len := 0, exts := [] }

def found : State := (peered.lookupObj 60 1 0).1
def foundAt : State := (found.unitObj (peerVia 1) 0 (peerObj.vbase + 60)).1

/-- The object whose extents are gone for good: its pages answered with a failure. -/
def failIs {α : Type} (x : α × PRes (Nat × Bool)) : Bool :=
  match x.2 with
  | .fail _ => true
  | _ => false

/-- The last word of a line; a misaligned one; one past the object's end; no object table; an extent another partition's. -/
theorem wit_peer : (peered.route 1 65535 2).isSome = true ∧ (aPeer 60 none).size.bytes ≤ (aPeer 60 none).data.length ∧
    peered.pmFresh (aPeer 60 none) = true ∧ (peered.route 1 65535 2).map (fun x => 4 * (x.port / 2)) = some 60 ∧
    (∃ t, peered.lookupObj 60 1 0 = (t, some peerObj) ∧ t = found) ∧
    (∃ u, found.unitObj (peerVia 1) 0 (peerObj.vbase + 60) = (u, .ok (65596, false)) ∧ u = foundAt) ∧
    60 % 4 = 0 ∧ 60 + 4 ≤ peerObj.len ∧ 62 % 4 ≠ 0 ∧ ¬ peerObj.len + 4 ≤ peerObj.len ∧ (peered.route 2 65535 2).isSome = true ∧
    (∃ t, peered.lookupObj 60 2 0 = (t, none) ∧ True) ∧
    failIs (({ found with otAddr := [] } : State).unitObj (peerVia 2) 0 (peerObj.vbase + 60)) = true := by
  exact ⟨by decide +kernel, by decide, by decide +kernel, by decide +kernel, pairWith (by decide +kernel) rfl, presWith (by decide +kernel) rfl,
    by decide, by decide +kernel, by decide, by decide +kernel, by decide +kernel, pairWith (by decide +kernel) trivial, by decide +kernel⟩

theorem wit_peer_answer : let r := { aReq .store .pm { lane := 31, addr := 0 } with accepted := true }
    Tab.find (withReq r).reqs r.rid = some r ∧ r.space = .pm ∧ r.accepted = true := by decide

/-- A report after the acknowledgement has freed the entry. -/
theorem wit_peer_late : let l : Lane := { lane := 31, addr := 0, stage := .landed, mask := 0x80000000 }
    let r := aReq .store .pm l
    let s : State := { st with pmDone := [(1, r)], nextRid := 2 }
    Tab.find s.reqs r.rid = none ∧ Tab.find s.pmDone r.rid = some r ∧ r.rid < s.nextRid ∧ r.lanes = [l] ∧ l.stage = .landed ∧
    bit (0x80000000 : BitVec 32) l.lane = true ∧ l.mask ≠ 0 := by decide +kernel

/-! ### Collectives -/

/-- CG, CS, CD and CW are c0 to c3; the words at s8: four elements at 1024 for 2048, the completion word at 3072, tag 7. -/
def collPane (p : Pane) : Pane :=
  regs [(8, 0 + 32 + 2 * 1024 + 3 * 32768), (9, 1024), (10, 2048), (11, 3072), (12, 4), (13, 0x0FFFFFFF)] p

theorem wit_coll : let s := on collPane
    let w := fun k => s.pane.sreg (8 + k)
    (∀ k, k < 4 → bit s.pane.cPend ((w 0).toNat / 32 ^ k % 32) = false) ∧ (w 0).toNat < 2 ^ 20 ∧ w 7 = 0 ∧ 1 ≤ (w 5).toNat ∧
    (w 5).toNat ≤ 0x0FFFFFFF ∧ (w 6).toNat ≤ 63 ∧ 1 ≤ (w 4).toNat ∧ (w 4).toNat ≤ 2 ^ 24 ∧
    (∀ k, k < 4 → (s.pane.creg ((w 0).toNat / 32 ^ k % 32)).tag = true ∧ (s.pane.creg ((w 0).toNat / 32 ^ k % 32)).key = s.pane.part ∧
      (s.pane.creg ((w 0).toNat / 32 ^ k % 32)).rights.getLsbD (if k < 2 then 0 else 1) = true) ∧
    (w 3).toNat % 4 = 0 ∧ 3072 + 4 ≤ (s.pane.creg 3).len ∧ s.pane.ac.getD (2 : Fin 16).val 0 ≠ 255 ∧ (Tab.vals s.colls) = [] ∧ s.memMayIssue = true ∧
    (on (fun p => { collPane p with ac := List.replicate 16 255 })).pane.ac.getD 2 0 = 255 := by decide +kernel

/-- Two ranks: this package's partition 1 and its partition 2; this one is rank 1. -/
def aGroup : List Nat := [0x43470002, 1] ++ List.replicate 14 0 ++ [2 * 2 ^ 16, 0, 1 * 2 ^ 16, 0]

def aColl : Coll :=
  { cmd := { aCmd (.coll .sumI32 (some 61) 8 3) with words := [0, 1024, 2048, 3072, 4, 7, 0, 0] }, base := 0 }

def collOn (c : Coll) : State :=
  onPane (fun p => { p with ac := setAt p.ac 3 1, place := .resident 0 })
    { put (put (put (put32 (linked portUp) 0 aGroup) 1024 (toBytes 64 1)) 2048 (toBytes 64 0)) 3072 (toBytes 64 0) with
      colls := [(1, c)], sessions := [{ aSession with peer := 0, ppart := 2 }] }

def recRead : State := ((collOn aColl).groupRecord aColl).1

theorem wit_coll_start : Tab.find (collOn aColl).colls aColl.cmd.id = some aColl ∧ aColl.code = 0 ∧ ((collOn aColl).base aColl.base).frozen = false ∧
    aColl.started = false ∧ (collOn aColl).cmdReady aColl.cmd = true ∧ (collOn aColl).collElder aColl = false ∧
    (collOn aColl).cmdRefused aColl.cmd = false ∧ aColl.base ≠ 16 ∧
    (∃ u, (collOn aColl).groupRecord aColl = (u, .ok (some ([(0, 2), (0, 1)], 1))) ∧ u = recRead) ∧ recRead.colls = (collOn aColl).colls ∧
    aColl.fits 2 = true ∧ recRead.collTwin aColl [(0, 2), (0, 1)] = false ∧
    (∀ r ∈ ([(0, 2), (0, 1)] : List (Nat × Nat)).zipIdx, r.2 = 1 ∨ (recRead.route aColl.cmd.part r.1.1 r.1.2).isSome = true) ∧
    isSkadd aColl.op = false := by
  exact ⟨by decide +kernel, by decide, by decide +kernel, by decide, by decide +kernel, by decide +kernel, by decide +kernel, by decide, presWith (by decide +kernel) rfl,
    by decide +kernel, by decide, by decide +kernel, by decide +kernel, by decide⟩

/-- A record with no entries; one whose line holds nothing under the partition's key. -/
theorem wit_coll_bad : (∃ u, (put32 (collOn aColl) 0 [0x43470000]).groupRecord aColl = (u, .ok none) ∧
      u.colls = (put32 (collOn aColl) 0 [0x43470000]).colls) ∧
    (match ((collOn aColl).groupRecord { aColl with cmd := { aColl.cmd with caps := List.replicate 4 (capFor 65472 64) } }).2 with
      | .fail _ => true
      | _ => false) = true :=
  ⟨presWith (by decide +kernel) (by decide +kernel), by decide +kernel⟩

def runningColl : Coll := { aColl with started := true, ranks := [(0, 2), (0, 1)], myrank := 1 }

def aPart (chunk : Nat) (result : Bool) : CollMsg :=
  { rank := 0, pkg := 0, part := 2, tag := 7, op := .sumI32, count := 4, root := 0, header := [], chunk := chunk, result := result, elems := [1, 2, 3, 4], dest := 1,
    group := [(0, 2), (0, 1)], clock := [(0, 1)] }

/-- Chunk 0 belongs to rank 0, so that this rank sends its elements there; a result comes back. -/
theorem wit_coll_steps : let s := collOn runningColl
    Tab.find s.colls 1 = some runningColl ∧ runningColl.next < runningColl.chunks ∧ runningColl.op ≠ .bcast ∧
    (∃ u, s.pkgRead runningColl.cmd.viaB (runningColl.cap 1) (runningColl.off 1 + runningColl.pad + 192 * 0) (4 * runningColl.chunkLen 0) false =
      (u, .ok [1, 0, 0, 0, 0, 0, 0, 0, 0, 0, 0, 0, 0, 0, 0, 0]) ∧ u.colls = s.colls) ∧
    0 % runningColl.ranks.length ≠ runningColl.myrank ∧
    (Tab.vals s.colls).find? (fun x => x.hears (aPart 0 true)) = some runningColl ∧ runningColl.agrees (aPart 0 true) = true ∧
    (aPart 0 true).chunk < runningColl.chunks ∧ 0 ∉ runningColl.got ∧ runningColl.op ≠ .gath ∧
    (let v := s.modColl 1 (fun c => { c with clock := mergeClock c.clock (aPart 0 true).clock })
      ∃ u, v.pkgWrite runningColl.cmd.viaB (runningColl.cap 2) (runningColl.off 2 + runningColl.pad + 192 * 0)
        (([1, 2, 3, 4] : List Word).map (fun x => toBytes 4 x.toNat)).flatten false = (u, .ok ()) ∧
        Tab.find u.colls 1 = some { runningColl with clock := mergeClock runningColl.clock (aPart 0 true).clock }) ∧
    (∀ x ∈ Tab.vals st.colls, x.hears (aPart 0 true) = false) ∧ runningColl.agrees { aPart 0 true with count := 5 } = false ∧
    runningColl.chunks ≤ (aPart 1 true).chunk := by
  exact ⟨by decide +kernel, by decide, by decide, presWith (by decide +kernel) (by decide +kernel), by decide, by decide +kernel, by decide +kernel,
    by decide, by decide, by decide, presWith (by decide +kernel) (by decide +kernel), by decide, by decide +kernel, by decide⟩

/-- A broadcast from rank 0, which owns chunk 0; this is rank 1. -/
theorem wit_coll_broadcast : let c : Coll := { runningColl with cmd := { aColl.cmd with i := .coll .bcast (some 61) 8 3 } }
    Tab.find (collOn c).colls c.cmd.id = some c ∧ c.started = true ∧ c.next < c.chunks ∧ c.op = .bcast ∧ c.myrank ≠ c.root ∧
    c.next % c.ranks.length ≠ c.myrank := by decide +kernel

/-- Every rank's elements of a chunk, and one rank's. -/
theorem wit_coll_whole : runningColl.ranks.length = 2 ∧
    ({ runningColl with folds := [(0, [1, 2, 3, 4], [1, 0])] } : Coll).whole 0 = true ∧
    ({ runningColl with folds := [(0, [1, 2, 3, 4], [1])] } : Coll).whole 0 = false := by decide +kernel

def doneColl : Coll := { runningColl with next := 1, got := [0] }

theorem wit_coll_ends : let s := collOn doneColl
    Tab.find s.colls 1 = some doneColl ∧ s.quietSys 0 1 = true ∧ (∀ j, j < doneColl.chunks → j ∈ doneColl.got) ∧ doneColl.chunks ≤ doneColl.next ∧
    (s.die doneColl.cmd.die).covers doneColl.clock = true ∧
    (∃ u, s.pkgWrite doneColl.cmd.viaB (doneColl.cap 3) (doneColl.off 3) (toBytes 4 (0 * 2 ^ 28 + doneColl.tag)) false = (u, .ok ()) ∧ u.pane = s.pane) ∧
    s.pane.pid = 0 ∧ s.pane.place.live = true ∧ 61 + 1 < s.pane.s.length ∧ 3 < s.pane.ac.length ∧
    doneColl.warned = false ∧ doneColl.code = 0 ∧ (s.base doneColl.base).frozen = false ∧ (∀ x ∈ Tab.vals s.colls, x.base ≠ 1) ∧ (Tab.vals s.colls).filter (fun x => x.base == 0) = [doneColl] := by
  exact ⟨by decide +kernel, by decide +kernel, by decide, by decide, by decide +kernel, presWith (by decide +kernel) (by decide +kernel),
    by decide +kernel, by decide +kernel, by decide +kernel, by decide +kernel, by decide, by decide, by decide +kernel, by decide +kernel,
    by decide +kernel⟩

/-- A store to a peer that is not answered holds the completion. -/
theorem wit_coll_unquiet : ({ collOn runningColl with
    reqs := [(0, { aReq .store .pm { lane := 0, addr := 0 } with rid := 0, pid := 0 })] } : State).quietSys 0 1 = false := by decide +kernel

/-! ### The host, power, the control registers, steps -/

theorem wit_spdm : (st.modSpdm (fun x => { x with phase := 3 })).spdm.phase = 3 ∧ (∀ a ∈ [1, 2, 3, 4], a ∈ [4, 3, 2, 1]) ∧ 5 < 6 ∧ 6 ≠ 255 ∧
    st.recovery = false ∧ ({ st with recovery := true } : State).recovery = true ∧ st.spdm.session = none ∧ st.spdm.via = none ∧
    (st.modSpdm (fun x => { x with via := some 31 })).spdm.via = some 31 ∧ st.spdm.phase ≠ 4 ∧
    (st.modSpdm (fun x => { x with phase := 4 })).spdm.phase = 4 ∧
    (st.modSpdm (fun x => { x with phase := 5, session := some 255 })).spdm.session = some 255 := by decide

/-- A secure session, and a partition in each state of its interface. -/
def secureOn (tdi : Nat) : State := (st.modSpdm (fun x => { x with phase := 4, session := some 1 })).modPart 1 (fun p => { p with en := true, tdi := tdi })

theorem wit_interfaces : (secureOn 2).spdm.phase = 4 ∧ (secureOn 2).spdm.via = none ∧ ¬ 32 ≤ 31 ∧ (secureOn 2).spdm.session.isSome = true ∧ ((secureOn 2).part 1).en = true ∧
    ((secureOn 2).part 1).tdi = 2 ∧ ((secureOn 0).part 1).tdi = 0 ∧ ((secureOn 1).part 1).tdi = 1 ∧ (secureOn 1).recovery = false ∧
    31 < 32 ∧ ¬ (1 ≤ 0) ∧ (65536, 65536) ∈ (secureOn 2).partRuns 1 ∧ (secureOn 2).tierRuns 1 true = [] := by decide +kernel

/-- A register word through a TDI's space; one of a queue, barred without IDE. -/
theorem wit_ide : (⟨0, true, some 1⟩ : Tlp 64).tdi.isSome = true ∧ Barred (secureOn 2) (Tab.getD (secureOn 2).queues 32767 {}).part false (some 1) ∧
    ((secureOn 2).part 1).tdi = 2 := ⟨rfl, ⟨1, rfl, .inl (by decide)⟩, by decide⟩

/-- The last byte of a line under key 1. -/
theorem wit_host_write : let s := put st 0 (List.replicate 64 7)
    63 % 64 + 1 ≤ 64 ∧ s.tier0Ok (65536 + 63) = true ∧ s.chanQ = [] ∧ s.dm.wf = true ∧
    bit (s.base (s.chanOf (65536 + 63)).1).chdegr (s.chanOf (65536 + 63)).2 = false ∧ Tab.getD s.chanEvs ((65536 + 63) / 64) 0 = 0 ∧
    (65536 + 63) / 64 ∉ s.poisoned ∧ s.keyOk 1 ((65536 + 63) / 64) = true := by decide +kernel

theorem wit_host_access : let l : Lane := { lane := 31, addr := 0, pa := 2 ^ 65 - 1, stage := .queued }
    let r := aReq .load .hm l
    let w := aReq .store .hm { l with pa := 2 ^ 64, data := [1] }
    let two := { r with lanes := [l, { l with lane := 0, pa := 2 ^ 65 - 65 }] }
    Tab.find (withReq r).reqs r.rid = some r ∧ r.hostLane = true ∧ r.cancelled = false ∧
    (withReq r).hostBefore r (l.pa / 64) = false ∧ l.stage = .queued ∧ w.kind = .store ∧ (withReq w).hostBefore w (2 ^ 58) = false ∧
    (withReq two).hostBefore two (l.pa / 64) = false ∧ (2 ^ 65 - 65) / 64 ≠ (2 ^ 65 - 1) / 64 := by decide

/-- A pane parked at TRAP.HOST. -/
def hostParked : State := onPane (fun p => { p with place := .parked (.host false 5) }) inGrid

theorem wit_pane_command : hostParked.cmdTarget 0 1 0 0 = some hostParked.pane ∧ hostParked.getPane hostParked.pane.pid = some hostParked.pane ∧
    hostParked.cmdTarget 1535 1 0 0 = none ∧ (hostParked.core 0).cmdBusy = false ∧
    (let s := hostParked.modCore 0 (fun c => { c with cmdBusy := true });
      (s.core 0).cmdBusy = true ∧ (s.core 0).cmdGrid.toNat ≠ 1) := by decide +kernel

theorem wit_thermal : islandUnit 1023 = some 63 ∧ islandUnit 1087 = some 79 ∧ islandUnit 1088 = none ∧ (st.therm 63).2.2.2 ≤ 100 ∧
    (st.therm 79).2.2.1 ≤ 110 ∧ ({ st with powered := false } : State).powered = false ∧
    ({ st with life := { st.life with busy := true } } : State).life.busy = true ∧ 1103 < 1104 ∧ 25 < 26 := by decide

theorem wit_register_writes : (regAt 0xFFFFFFC).isNone = true ∧ 0x8002 % 4 ≠ 0 ∧ st.tdiLocked 255 = false ∧ (Tab.getD st.queues 32767 {}).en = false ∧
    (Tab.getD st.rings 255 {}).base < 2 ^ 56 ∧ (secureOn 1).tdiLocked 1 = true ∧
    (0x80000000 : Word) &&& 0x80000000 ≠ ((secureOn 1).modPart 1 (fun p => { p with en := false })).bar0 (0x8000 + 8 * 1) := by decide +kernel

theorem wit_asked : ({ st with agenda := [.bandwidthTick] } : State).agenda = [.bandwidthTick] := rfl

/-- A well-formed word and its encoding; an event has none. -/
theorem wit_encode : (Instr.launch 2 30 4).wf = true ∧ (Instr.launch 2 30 4).ctorIdx < (Instr.packetFetch 0).ctorIdx ∧
    (Instr.packetFetch 0).ctorIdx ≤ (Instr.packetFetch 0).ctorIdx ∧ (Instr.packetFetch 0).ctorIdx ≤ Instr.bandwidthTick.ctorIdx ∧
    encode (.launch 2 30 4) = some (0x3F823C00, 0x0000010B) ∧ encode .bandwidthTick = none := by
  decide

/-- A word of a reserved opcode, and one whose operand is of no class it takes. -/
theorem wit_bad_word : let s : State := { st with word := 0b0_0_0100001_0000000_0000000_0000000_00 }
    let t : State := { st with word := 0b0_0_0000000_1111111_0000000_0000000_00 }
    (match decodeWord s.word.toNat s.sill, decodeWord t.word.toNat t.sill with
      | .error .illegalInstruction, .error .illegalOperand => true
      | _, _ => false) = true := by decide +kernel

/-! ### A turn, and the memories at reset -/

/-- NOP, NOP, NOP at 0: the word 0x2400_0000 of R44. -/
def turning : State := { on (fun p => { p with ibuf := some ⟨0, 0x25000000, 0x25000000, 0x25000000, 0, false⟩ }) with turns := [0] }

theorem wit_turn : let g : State := { ({ turning with cursor := turning.cursor + 1 } : State).checkOut turning.pane.pid with issue := .go }
    turning.agenda = [] ∧ turning.powered = true ∧ turning.turns[turning.cursor / 4]? = some 0 ∧
    turning.slotPane 0 (8 * (turning.cursor % 4) + turning.cycle % 8) = some turning.pane ∧ turning.mayTurn turning.pane = true ∧
    g.pane.stack.head? = none ∧ g.pane.ibuf = some ⟨0, 0x25000000, 0x25000000, 0x25000000, 0, false⟩ ∧ pcPkt g.pane.pc = 0 ∧
    packetDetail 0x25000000 0x25000000 0x25000000 = 0 ∧ wChain 0x25000000 = false ∧
    (match decodeWord 0x25000000 0 with
      | .ok i => decide (i = .nop) && g.pane.countOk i && !g.pane.namesPending i
      | _ => false) = true := by decide +kernel

theorem wit_memories : MemOk State.reset ∧ (match step State.reset with
    | .next _ => true
    | _ => false) = true := by
  unfold MemOk
  decide +kernel

theorem test_turn_completes : (match step turning with
    | .next t => t.pane.pc == 4
    | _ => false) = true := by decide +kernel

/-! ### Examples the spec works out -/

/-- Registers of lanes 0, 1, ... -/
def vregs (l : List (Nat × List Nat)) (p : Pane) : Pane :=
  { p with v := l.foldl (fun v e => setAt v e.1 ((List.range 32).map (fun L => BitVec.ofNat 32 (e.2.getD L 0)))) p.v }

def outOf (i : Instr) (l : List (Nat × List Nat)) : Pane := (after i (on (vregs l))).pane

def lanesOf (p : Pane) (n k : Nat) : List Nat := (List.range k).map (fun L => (p.vreg n L).toNat)

/-- Chapter 1: a call's entry, spilled. -/
theorem test_entry_words : (⟨0xFFFFFFFF, 0x1000000A2, 2, .call, 0, 0⟩ : Entry).bytes =
    ([0xFFFFFFFF, 0x000000A2, 0x00A00001, 0].map (toBytes 4)).flatten := by decide +kernel

/-- Chapter 2: OFF = -3, from packet 0x10. -/
theorem test_bra : (after (.bra 2 (-3)) (on (fun p => { p with pc := 0x100, p := setAt p.p 2 1 }))).pane.nextPc = some 0xD0 := by decide +kernel

/-- Chapter 4: the carry of the low words, and the sum of the high ones with it. -/
theorem test_iaddc : let p := outOf (.iaddc false .discard (.reg 4) (.reg 6)) [(4, [0xFFFFFFF0]), (6, [0x20])]
    p.y0.val 0 = 1 ∧ (outOf (.iadd false .wrap (.reg 8) (.reg 4) (.reg 6)) [(4, [0xFFFFFFF0]), (6, [0x20])]).vreg 8 0 = 0x10 := by
  decide +kernel

/-- Chapter 4: pos 28, wid 8. -/
theorem test_bit_fields : (outOf (.bfx false false (.reg 1) (.reg 2) (.reg 3)) [(2, [0xA0000000]), (3, [0x81C])]).vreg 1 0 = 0xA ∧
    (outOf (.bfx false true (.reg 1) (.reg 2) (.reg 3)) [(2, [0xA0000000]), (3, [0x81C])]).vreg 1 0 = 0xFFFFFFFA ∧
    (outOf (.bfi false (.reg 1) (.reg 2) (.reg 3)) [(1, [0xFFFFFFFF]), (2, [5]), (3, [0x81C])]).vreg 1 0 = 0x5FFFFFFF := by decide +kernel

/-- R88: CLZ of 0 is 32; bit 0 moves to bit 31. -/
theorem test_counts : (outOf (.clz false (.reg 1) (.reg 2)) [(2, [0, 1])]).vreg 1 0 = 32 ∧
    (outOf (.popc false (.reg 1) (.reg 2)) [(2, [0x80000001])]).vreg 1 0 = 2 ∧ (outOf (.brev false (.reg 1) (.reg 2)) [(2, [1])]).vreg 1 0 = 0x80000000 := by
  decide +kernel

/-- Chapter 4: 60,000 + 10,000 overflows, 1 + 2^-11 ties to even. -/
theorem test_hadd2 : let p := outOf (.hadd2 false .f16 (.reg 6) (.reg 2) (.reg 3)) [(2, [0x3C007B53]), (3, [0x100070E2])]
    p.vreg 6 0 = 0x3C007C00 ∧ p.xstat = 5 := by decide +kernel

/-- Chapter 4: 65,520 to F16 toward zero and to nearest. -/
theorem test_cvt : let z := outOf (.cvt false .f16 .f32 .rz (.reg 4) (.reg 5)) [(5, List.replicate 32 0x477FF000)]
    let n := outOf (.cvt false .f16 .f32 .rn (.reg 4) (.reg 5)) [(5, List.replicate 32 0x477FF000)]
    z.vreg 4 0 = 0x7BFF ∧ z.xstat = 1 ∧ n.vreg 4 0 = 0x7C00 ∧ n.xstat = 5 := by decide +kernel

/-- Chapter 4: +0 and -0. -/
theorem test_fadd_zero : (outOf (.fadd false .rd (.reg 1) (.reg 2) (.reg 3)) [(3, [0x80000000])]).vreg 1 0 = 0x80000000 ∧
    (outOf (.fadd false .rn (.reg 1) (.reg 2) (.reg 3)) [(3, [0x80000000])]).vreg 1 0 = 0 := by decide +kernel

/-- Chapter 5: the keys, lengths and data of lanes 0 to 7. -/
def eight : List (Nat × List Nat) := [(2, [5, 2, 5, 7, 2, 2, 9, 5]), (3, [3, 0, 2, 1, 0, 4, 1, 2]), (4, [0, 3, 0, 0, 8, 0, 1, 0])]

def eightOf (i : Instr) : Pane := (after i (on (fun p => { vregs eight p with xm := 0xFF }))).pane

theorem test_reorder : lanesOf (eightOf (.reorder false (.reg 10) .lane (.reg 2))) 10 9 = [0, 2, 7, 1, 4, 5, 3, 6, 0] := by decide +kernel

theorem test_rebal : let p := eightOf (.rebal false 12 (.reg 3))
    lanesOf p 12 8 = [0, 0, 0, 2, 2, 3, 5, 5] ∧ lanesOf p 13 8 = [0, 1, 2, 0, 1, 0, 0, 1] := by decide +kernel

theorem test_nzs : let p := eightOf (.nzs false (.reg 14) (.reg 4) (.reg 6))
    lanesOf p 14 9 = [1, 4, 6, 0xFFFFFFFF, 0xFFFFFFFF, 0xFFFFFFFF, 0xFFFFFFFF, 0xFFFFFFFF, 0] ∧ p.sreg 6 = 3 := by decide +kernel

/-- Chapter 5: the entry of LOOP s10, 2 with s10 = 3 holds the passes left. -/
theorem test_loop_inc : decodeWord 0x238A1000 0x8844 = .ok (.loop (.reg 10) 1 (.addNext 4) (.inc 8) .none .none) := by decide +kernel

/-- Chapter 15: a home's order ADD, FADD, HADD2, OR. -/
theorem test_atomics : aopBytes .add 4 (toBytes 4 0x3F800000) (toBytes 4 1) = toBytes 4 0x3F800001 ∧
    aopBytes .fadd 4 (toBytes 4 0x3F800001) (toBytes 4 0x3F800000) = toBytes 4 0x40000000 ∧
    aopBytes .hadd2 4 (toBytes 4 0x40000000) (toBytes 4 0x3C003C00) = toBytes 4 0x42003C00 ∧
    aopBytes .hadd2 4 (toBytes 4 0x40000001) (toBytes 4 0x3C003C00) = toBytes 4 0x42003C00 ∧
    aopBytes .or 4 (toBytes 4 0x42003C00) (toBytes 4 1) = toBytes 4 0x42003C01 := by decide +kernel

/-- Chapter 15: the sketch of ROWS 3, LOGW 6, E -8. -/
theorem test_sketch : let h : SkHdr := ⟨3, 6, 0, -8⟩
    (List.range 3).map (h.hash 1) = [(38, true), (49, true), (57, false)] ∧ (List.range 3).map (h.hash 2) = [(13, false), (35, false), (50, true)] ∧
    h.size = 832 ∧ quantise (-8) 0x3F400000 = some (192, false) ∧ quantise (-8) 0xBF000000 = some (-128, false) ∧
    h.off 0 38 = 0xD8 ∧ h.off 1 49 = 0x204 ∧ h.off 2 57 = 0x324 ∧ skEstimate (-8) [256, 256, 256] = 0x3F800000 ∧
    skEstimate (-8) [-128, -128, -128] = 0xBF000000 := by decide +kernel

/-- Chapter 17: u = 0, v = 0.5 in a 4 by 4 texture whose texel (x, y) is x + 4 y. -/
def texAt (clamp lin : Bool) : Word :=
  texResult 3 0 ((texTerms ⟨3, 4, 4, 16, 0⟩ clamp lin 0 0x3F000000).map (fun t =>
    (t.2.2, toBytes 4 (roundDy F32 .rn false false ((t.1 : Int) + 4 * t.2.1) 0).1)))

theorem test_tex : texAt false false = 0x41000000 ∧ texAt false true = 0x40F00000 ∧ texAt true true = 0x40C00000 := by decide +kernel

/-- Chapter 17: p = (0.5, 0.25, 0), N = 4, TSIZE = 16: entry 1 alone. -/
theorem test_hgrid : (hgCorners 4 16 [0x3F000000, 0x3E800000, 0]).map Prod.fst = [1] := by decide +kernel

/-- Chapter 3: the element 0xB6 in a block's planes. -/
theorem test_planes : let p : List Word := [1, 0, 1, 1, 0, 1, 1, 0]
    bpVal p false 0 = -74 ∧ bpVal p true 0 = -74 ∧ bpVal (p.take 4) false 0 = -80 ∧ bpVal (p.take 4) true 0 = -72 ∧
    bpVal (p.take 2) false 0 = -128 ∧ bpVal (p.take 2) true 0 = -96 := by decide +kernel

/-- Chapter 3: a block whose dot product is 1,000 reaches 0.5. -/
theorem test_bit_plane_block : let f := fun sat ea eb => mxBlock 0x3F000000 sat ea eb [10] [100]
    f false 125 130 = (0x44FA1000, false) ∧ f false 254 254 = (0x7F800000, true) ∧ f true 254 254 = (0x7F7FFFFF, false) ∧
    f false 0 1 = (0x3F000000, false) ∧ f true 255 125 = (0x7FC00000, false) := by decide +kernel

/-- Chapter 3: 1.0 and 31 zeros through the transform and the quantiser. -/
theorem test_hadamard : let ys := hadBlock (.fin false 1 0 :: List.replicate 31 (.fin false 0 0))
    ys = List.replicate 32 (unpack F32 false 0x3E3504F3) ∧ quantBlock ys = (118, List.replicate 32 91) ∧
    planesOf (List.replicate 32 91) = [0, 0xFFFFFFFF, 0, 0xFFFFFFFF, 0xFFFFFFFF, 0, 0xFFFFFFFF, 0xFFFFFFFF] := by decide +kernel

/-- The check value of CRC-32C. -/
theorem test_crc : crc32c [0x31, 0x32, 0x33, 0x34, 0x35, 0x36, 0x37, 0x38, 0x39] = 0xE3069283 := by decide +kernel

/-- Chapter 21: SHARE 192 on core 0 and 64 on core 24, both with a request at their ports. -/
theorem test_shares : let s := { st with cycle := 1024, reqs := [(1, { aReq .store .dm { lane := 0, addr := 0 } with rid := 1, left := false }),
        (2, { aReq .store .dm { lane := 0, addr := 0 } with rid := 2, core := 24, part := 2, left := false })] }
    let t := after .bandwidthTick ((((s.modPart 1 (fun p => { p with share := 192 })).modPart 2 (fun p => { p with share := 64 })).modCore 0
      (fun c => { c with part := 1 })).modCore 24 (fun c => { c with part := 2 }))
    Tab.getD t.buckets 0 0 = 49152 ∧ Tab.getD t.buckets 24 0 = 16384 := by decide +kernel

/-- Chapter 4: the borders of IDIV. -/
theorem test_divide : let f := fun m => lanesOf (outOf (.idiv false m (.reg 1) (.reg 2) (.reg 3)) [(2, [7, 0x80000000, 0xFFFFFFF9]), (3, [0, 0xFFFFFFFF, 2])]) 1 3
    f .quo = [0xFFFFFFFF, 0x80000000, 0xFFFFFFFD] ∧ f .rem = [7, 0, 0xFFFFFFFF] ∧ f .quoU = [0xFFFFFFFF, 0, 0x7FFFFFFC] ∧
    f .remU = [7, 0x80000000, 1] := by decide +kernel

end Sys2Proof.Tests
end

section
/-! SUPPORT. The count words POPC, CLZ and BREV (R88): their results on one lane, their effect, and their decoding. -/

namespace Sys2Proof.Machine

/-! ### Results on one lane -/

theorem popcVal_eq_countP (x : Word) : popcVal x = BitVec.ofNat 32 ((List.range 32).countP (fun i => x.getLsbD i)) := by
  simp only [popcVal, popCount, lanesOf, List.countP_eq_length_filter, wordOfNat, bit]

theorem clzVal_zero : clzVal 0 = 32 := rfl

theorem log2_toNat_lt {x : Word} (hx : x ≠ 0) : Nat.log2 x.toNat < 32 :=
  (Nat.log2_lt (by simpa [BitVec.toNat_eq] using hx)).2 x.isLt

theorem toNat_clzVal {x : Word} (hx : x ≠ 0) : (clzVal x).toNat = 31 - Nat.log2 x.toNat := by
  simp only [clzVal, if_neg hx, wordOfNat, BitVec.toNat_ofNat]
  omega

/-- CLZ names the power of two at or below its operand: 2 ^ (31 - n) ≤ x < 2 ^ (32 - n), and n = 32 for 0 alone. -/
theorem clzVal_bounds (x : Word) :
    (clzVal x).toNat ≤ 32 ∧ x.toNat < 2 ^ (32 - (clzVal x).toNat) ∧
      ((clzVal x).toNat < 32 → 2 ^ (31 - (clzVal x).toNat) ≤ x.toNat) := by
  by_cases hx : x = 0
  · subst hx
    rw [clzVal_zero]
    decide
  · have hn : x.toNat ≠ 0 := by simpa [BitVec.toNat_eq] using hx
    have hl := log2_toNat_lt hx
    have hhi : 32 - (31 - Nat.log2 x.toNat) = Nat.log2 x.toNat + 1 := by omega
    have hlo : 31 - (31 - Nat.log2 x.toNat) = Nat.log2 x.toNat := by omega
    rw [toNat_clzVal hx, hhi, hlo]
    exact ⟨by omega, Nat.lt_log2_self, fun _ => Nat.log2_self_le hn⟩

theorem bit_brevVal (x : Word) {i : Nat} (hi : i < 32) : bit (brevVal x) i = bit x (31 - i) :=
  bit_maskOf _ i hi

/-! ### The effect of a word of one source -/

/-- A word of the Y pipe with one source and no flags completes, and each active lane takes its function's value. -/
theorem yV_effect (s : State) (w : Bool) (d : VDst) (a : VSrc) (g : Word → Word) :
    ∃ t, done (yV w d a g) s = .next t ∧ YEffect s t w d (fun L => g (a.val s.pane L)) noFlags (a.stale s.pane) :=
  ⟨_, rfl, resultY_effect s w d (a.stale s.pane) (fun L => (g (a.val s.pane L), 0))⟩

theorem exec_popc (w : Bool) (d : VDst) (a : VSrc) (s : State) : exec (.popc w d a) s = done (yV w d a popcVal) s := rfl

theorem exec_clz (w : Bool) (d : VDst) (a : VSrc) (s : State) : exec (.clz w d a) s = done (yV w d a clzVal) s := rfl

theorem exec_brev (w : Bool) (d : VDst) (a : VSrc) (s : State) : exec (.brev w d a) s = done (yV w d a brevVal) s := rfl

theorem popc_effect (s : State) (w : Bool) (d : VDst) (a : VSrc) :
    ∃ t, exec (.popc w d a) s = .next t ∧ YEffect s t w d
      (fun L => BitVec.ofNat 32 ((List.range 32).countP (fun i => (a.val s.pane L).getLsbD i))) noFlags (a.stale s.pane) := by
  simpa only [exec_popc, popcVal_eq_countP] using yV_effect s w d a popcVal

theorem clz_effect (s : State) (w : Bool) (d : VDst) (a : VSrc) :
    ∃ t, exec (.clz w d a) s = .next t ∧ YEffect s t w d (fun L => clzVal (a.val s.pane L)) noFlags (a.stale s.pane) := by
  simpa only [exec_clz] using yV_effect s w d a clzVal

theorem brev_effect (s : State) (w : Bool) (d : VDst) (a : VSrc) :
    ∃ t, exec (.brev w d a) s = .next t ∧ YEffect s t w d (fun L => brevVal (a.val s.pane L)) noFlags (a.stale s.pane) := by
  simpa only [exec_brev] using yV_effect s w d a brevVal

/-! ### The fields of a word of the base layout (R33) -/

section Fields
variable {w : Bool} {op d a b m : Nat}

@[simp] theorem fM_wBase (hm : m < 4) : fM (wBase w op d a b m) = m := by
  simp only [fM, fld, wBase]; omega

@[simp] theorem fB_wBase (hb : b < 128) (hm : m < 4) : fB (wBase w op d a b m) = b := by
  simp only [fB, fld, wBase]; omega

@[simp] theorem fA_wBase (ha : a < 128) (hb : b < 128) (hm : m < 4) : fA (wBase w op d a b m) = a := by
  simp only [fA, fld, wBase]; omega

@[simp] theorem fD_wBase (hd : d < 128) (ha : a < 128) (hb : b < 128) (hm : m < 4) : fD (wBase w op d a b m) = d := by
  simp only [fD, fld, wBase]; omega

@[simp] theorem fOp_wBase (ho : op < 128) (hd : d < 128) (ha : a < 128) (hb : b < 128) (hm : m < 4) :
    fOp (wBase w op d a b m) = op := by
  simp only [fOp, fld, wBase]; omega

@[simp] theorem fW_wBase (ho : op < 128) (hd : d < 128) (ha : a < 128) (hb : b < 128) (hm : m < 4) :
    fW (wBase w op d a b m) = w := by
  have hw : fld (wBase w op d a b m) 30 1 = w.toNat := by
    have := Laws.bool_lt w
    simp only [fld, wBase]; omega
  cases w <;> simp [fW, hw]

end Fields

/-! ### Decoding under OP 0x32 (R88) -/

@[simp] theorem decVDst_reg (n : Fin 120) : decVDst n.val = .ok (.reg n) := by simp [decVDst]

@[simp] theorem decVSrc_reg (lit : Option Word) (n : Fin 120) : decVSrc lit n.val = .ok (.reg n) := by simp [decVSrc]

/-- The count word that a listed SUB selects. -/
def countInstr (sub : Nat) : Bool → VDst → VSrc → Instr :=
  match sub with
  | 0 => .popc
  | 1 => .clz
  | _ => .brev

section Decoding
variable (w : Bool) (d a : Fin 120) (sill : Word) {sub m : Nat}

theorem decodeWord_eq_decY (hs : sub < 128) (hm : m < 4) :
    decodeWord (wBase w 0x32 d.val a.val sub m) sill = decY sill (wBase w 0x32 d.val a.val sub m) := by
  have hop : fOp (wBase w 0x32 d.val a.val sub m) = 0x32 := fOp_wBase (by omega) (by omega) (by omega) hs hm
  simp [decodeWord, hop]

theorem decodeWord_countInstr (hs : sub < 3) :
    decodeWord (wBase w 0x32 d.val a.val sub 0) sill = .ok (countInstr sub w (.reg d) (.reg a)) := by
  have hd : d.val < 128 := by omega
  have ha : a.val < 128 := by omega
  rw [decodeWord_eq_decY w d a sill (by omega) (by omega)]
  interval_cases sub <;> simp [decY, m0, needI, countInstr, hd, ha] <;> rfl

/-- A modifier other than 0 fails the first check of the layout, a SUB beyond 2 the second. -/
theorem decodeWord_count_reserved (hs : sub < 128) (hm : m < 4) (hr : 3 ≤ sub ∨ m ≠ 0) :
    decodeWord (wBase w 0x32 d.val a.val sub m) sill = .error .illegalInstruction := by
  have hd : d.val < 128 := by omega
  have ha : a.val < 128 := by omega
  rw [decodeWord_eq_decY w d a sill hs hm]
  by_cases h0 : m = 0
  · have h3 : ¬ sub < 3 := by omega
    simp [decY, m0, needI, hd, ha, hs, h0, h3]
    rfl
  · simp [decY, m0, needI, hd, ha, hs, hm, h0]
    rfl

end Decoding

theorem countWord_eq_wBase (w : Bool) (d a sub m : Nat) :
    (if w then 2 ^ 30 else 0) + 0x32 * 2 ^ 23 + d * 2 ^ 16 + a * 2 ^ 9 + sub * 4 + m = wBase w 0x32 d a sub m := by
  cases w <;> simp [wBase]

/-- Settles O4: each result is its lane function's (`popcVal_eq_countP`, `clzVal_bounds`, `bit_brevVal`), and the words are those of the
base layout under OP 0x32. -/
theorem countWords : Obligations.CountWords := by
  unfold Obligations.CountWords
  refine ⟨fun s w d a => ⟨popc_effect s w d a, ?_, ?_⟩, fun w d a => ?_⟩
  · obtain ⟨t, hstep, heff⟩ := clz_effect s w d a
    exact ⟨t, _, hstep, heff, fun L _ => clzVal_bounds (a.val s.pane L)⟩
  · obtain ⟨t, hstep, heff⟩ := brev_effect s w d a
    exact ⟨t, _, hstep, heff, fun L i _ hi => bit_brevVal (a.val s.pane L) hi⟩
  · simp only [countWord_eq_wBase]
    exact ⟨decodeWord_countInstr w d a 0 (sub := 0) (by omega), decodeWord_countInstr w d a 0 (sub := 1) (by omega),
      decodeWord_countInstr w d a 0 (sub := 2) (by omega), fun sub m hs hm hr => decodeWord_count_reserved w d a 0 hs hm hr⟩

end Sys2Proof.Machine
end

section
/-! SUPPORT. The XM words and the predicate words (R111, R112): their effect, and their decoding. -/

namespace Sys2Proof.Machine

/-! ### The effect of the XM words (R111) -/

theorem exec_xmrd (d : SDst) (s : State) : exec (.xmrd d) s = .next (onPane (fun p => d.write p s.pane.xm) s) := rfl

theorem exec_xmwr (a : SSrc) (s : State) :
    exec (.xmwr a) s = .next { s with pane := { s.pane with xm := a.val s.pane } } := rfl

theorem exec_xmand (q : PReg) (s : State) :
    exec (.xmand q) s = .next { s with pane := { s.pane with xm := s.pane.xm &&& s.pane.preg q.val } } := rfl

/-! ### The effect of a predicate write (R112) -/

theorem pset_frame (p : Pane) (n : Nat) (x : Word) : p.pset n x = { p with p := (p.pset n x).p } := by
  unfold Pane.pset
  split <;> rfl

/-- The predicate registers after a write: p7 discards it and reads as all ones (R12). -/
theorem predIs_pset (p : Pane) (d : PReg) (x : Word) : PredIs p (p.pset d.val x) d x := by
  refine ⟨fun n h7 hn => ?_, preg_seven _⟩
  by_cases hd : d.val < 7
  · simp only [Pane.pset, Pane.preg, hd, h7, if_true, getD_setAt, hn, and_true]
  · have hne : d.val ≠ n := by omega
    simp [Pane.pset, hd, hne]

/-- A word that completes with nothing but a write to a predicate register. -/
theorem pset_effect (s : State) (d : PReg) (f : Pane → Word) :
    ∃ t, done (fun p => p.pset d.val (f p)) s = .next t ∧
      t = { s with pane := { s.pane with p := t.pane.p } } ∧ PredIs s.pane t.pane d (f s.pane) :=
  ⟨_, rfl, congrArg (fun q => { s with pane := q }) (pset_frame s.pane d.val (f s.pane)), predIs_pset s.pane d (f s.pane)⟩

/-! ### Decoding under OP 0x48 (R111) -/

section XmDecoding
variable (n : Fin 64) (q : PReg) (sill : Word)

theorem decodeWord_eq_decCtl {w : Nat} (hlo : 0x40 ≤ fOp w) (hhi : fOp w < 0x60) : decodeWord w sill = decCtl sill w := by
  have hx : ¬ fOp w ≤ 0x20 := by omega
  have hy : ¬ fOp w < 0x40 := by omega
  simp only [decodeWord, if_neg hx, if_neg hy, if_pos hhi]

@[simp] theorem decSDst_reg : decSDst n.val = .ok (.reg n) := by simp [decSDst]

@[simp] theorem decSSrc_reg (lit : Option Word) : decSSrc lit n.val = .ok (.reg n) := by simp [decSSrc]

@[simp] theorem decFin_val {b : Nat} (i : Fin b) : decFin b i.val = .ok i := by simp [decFin]

theorem decodeWord_xmrd : decodeWord (wBase false 0x48 n.val 0 0 0) sill = .ok (.xmrd (.reg n)) := by
  have hn : n.val < 128 := by omega
  rw [decodeWord_eq_decCtl sill (by simp [hn]) (by simp [hn])]
  simp [decCtl, needI, hn]
  rfl

theorem decodeWord_xmwr : decodeWord (wBase false 0x48 0 n.val 1 0) sill = .ok (.xmwr (.reg n)) := by
  have hn : n.val < 128 := by omega
  rw [decodeWord_eq_decCtl sill (by simp [hn]) (by simp [hn])]
  simp [decCtl, needI, hn]
  rfl

theorem decodeWord_xmand : decodeWord (wBase false 0x48 0 q.val 2 0) sill = .ok (.xmand q) := by
  have hq : q.val < 128 := by omega
  rw [decodeWord_eq_decCtl sill (by simp [hq]) (by simp [hq])]
  simp [decCtl, needI, hq]
  rfl

end XmDecoding

/-! ### The fields of a predicate word (R38) -/

section PredFields
variable {d a b : PReg} {sub : Nat}

theorem fOp_wPred (hs : sub < 5) : fOp (wPred d.val a.val b.val sub) = 0x49 := by
  simp only [fOp, fld, wPred]; omega

theorem fSel_wPred (hs : sub < 5) : fSel (wPred d.val a.val b.val sub) = d := by
  simp only [fSel, finMod, fld, wPred, Fin.ext_iff]; omega

theorem fPA_wPred (hs : sub < 5) (h : 0 < 8) : finMod 8 (fld (wPred d.val a.val b.val sub) 17 3) h = a := by
  simp only [finMod, fld, wPred, Fin.ext_iff]; omega

theorem fPB_wPred (hs : sub < 5) (h : 0 < 8) : finMod 8 (fld (wPred d.val a.val b.val sub) 14 3) h = b := by
  simp only [finMod, fld, wPred, Fin.ext_iff]; omega

theorem fB_wPred (hs : sub < 5) : fB (wPred d.val a.val b.val sub) = sub := by
  simp only [fB, fld, wPred]; omega

theorem fM_wPred : fM (wPred d.val a.val b.val sub) = 0 := by
  simp only [fM, fld, wPred]; omega

theorem fW_wPred (hs : sub < 5) : fW (wPred d.val a.val b.val sub) = false := by
  have h0 : fld (wPred d.val a.val b.val sub) 30 1 = 0 := by simp only [fld, wPred]; omega
  simp [fW, h0]

/-- Bits 13 to 9 of a predicate word hold no field. -/
theorem fld_wPred_gap (hs : sub < 5) : fld (wPred d.val a.val b.val sub) 9 5 = 0 := by
  simp only [fld, wPred]; omega

end PredFields

/-! ### Decoding under OP 0x49 (R112) -/

/-- The predicate word that a listed SUB selects; PNOT and PMOV name no second source. -/
def predInstr (sub : Nat) (d a b : PReg) : Instr :=
  match sub with
  | 0 => .pand d a b
  | 1 => .por d a b
  | 2 => .pxor d a b
  | 3 => .pnot d a
  | _ => .pmov d a

theorem decodeWord_predInstr (d a b : PReg) (sill : Word) {sub : Nat} (hs : sub < 5) (hb : 3 ≤ sub → b = 0) :
    decodeWord (wPred d.val a.val b.val sub) sill = .ok (predInstr sub d a b) := by
  have hop : fOp (wPred d.val a.val b.val sub) = 0x49 := fOp_wPred hs
  rw [decodeWord_eq_decCtl sill (by omega) (by omega)]
  simp only [decCtl, hop, decPred, needI, fW_wPred hs, fld_wPred_gap hs, fM_wPred, fB_wPred hs, fSel_wPred hs, fPA_wPred hs,
    fPB_wPred hs]
  obtain hlow | hhigh := Nat.lt_or_ge sub 3
  · interval_cases sub <;> rfl
  · rw [hb hhigh]
    interval_cases sub <;> rfl

theorem predWord_eq_wPred (d a b sub : Nat) :
    0x24800000 + d * 2 ^ 20 + a * 2 ^ 17 + b * 2 ^ 14 + sub * 4 = wPred d a b sub := by
  simp [wPred]

theorem predWord_one_source_eq_wPred (d a sub : Nat) :
    0x24800000 + d * 2 ^ 20 + a * 2 ^ 17 + sub * 4 = wPred d a 0 sub := by
  simp [wPred]

/-! ### The two claims -/

theorem maskWords : Claim.MaskWords := by
  refine ⟨fun s d a q => ⟨⟨_, exec_xmrd d s, sdst_effect s d s.pane.xm⟩, exec_xmwr a s, exec_xmand q s⟩,
    fun n q => ⟨?_, ?_, ?_⟩⟩
  · simpa [wBase] using decodeWord_xmrd n 0
  · simpa [wBase, Nat.add_right_comm] using decodeWord_xmwr n 0
  · simpa [wBase, Nat.add_right_comm] using decodeWord_xmand q 0

theorem predicateWords : Claim.PredicateWords := by
  refine ⟨fun s d a b => ?_, fun d a b => ?_⟩
  · exact ⟨pset_effect s d (fun p => p.preg a.val &&& p.preg b.val), pset_effect s d (fun p => p.preg a.val ||| p.preg b.val),
      pset_effect s d (fun p => p.preg a.val ^^^ p.preg b.val), pset_effect s d (fun p => ~~~p.preg a.val),
      pset_effect s d (fun p => p.preg a.val)⟩
  · simp only [predWord_eq_wPred, predWord_one_source_eq_wPred]
    exact ⟨decodeWord_predInstr d a b 0 (sub := 0) (by omega) (by omega), decodeWord_predInstr d a b 0 (sub := 1) (by omega) (by omega),
      decodeWord_predInstr d a b 0 (sub := 2) (by omega) (by omega), decodeWord_predInstr d a 0 0 (sub := 3) (by omega) (fun _ => rfl),
      decodeWord_predInstr d a 0 0 (sub := 4) (by omega) (fun _ => rfl)⟩

/-- Settles O11: the XM words and the predicate words each write one thing of the pane, and decode from the base layout and the
predicate layout. -/
theorem maskAndPredicateWords : Obligations.MaskAndPredicateWords := ⟨maskWords, predicateWords⟩

end Sys2Proof.Machine
end

section
/-! SUPPORT. NZS (R121): the rank of a lane, the n-th lane that holds a value other than 0, and a uniform result behind one of the
Y pipe. -/

namespace Sys2Proof.Machine

/-! ### Ranks -/

theorem filter_lt_range {L m : Nat} (hL : L ≤ m) : (List.range m).filter (fun k => decide (k < L)) = List.range L := by
  obtain ⟨j, rfl⟩ := Nat.exists_eq_add_of_le hL
  rw [List.range_add, List.filter_append, List.filter_eq_self.2 (by simp), List.filter_eq_nil_iff.2 (by simp), List.append_nil]

/-- The rank of a lane is the number of active lanes below it. -/
theorem rank_eq_length_filter (p : Pane) {L : Nat} (hL : L ≤ 32) : p.rank L = ((List.range L).filter p.active).length := by
  rw [Pane.rank, Pane.lanes, lanesOf, List.filter_comm, filter_lt_range hL]
  rfl

/-- Among the numbers that a test selects, one stands at the place that the selected ones below it count. -/
theorem getElem?_filter_range (g : Nat → Bool) {L m : Nat} (hL : L < m) (hg : g L = true) :
    ((List.range m).filter g)[((List.range L).filter g).length]? = some L := by
  obtain ⟨j, rfl⟩ := Nat.exists_eq_add_of_lt hL
  rw [Nat.add_assoc, List.range_add, List.filter_append, List.getElem?_append_right le_rfl, Nat.sub_self, List.range_succ_eq_map]
  simp [hg]

/-! ### The lanes that NZS takes -/

/-- The active lanes whose value of a source is not 0, ascending. -/
def Pane.nonzeroLanes (p : Pane) (a : VSrc) : List Nat := (List.range 32).filter (fun L => p.active L && a.val p L != 0)

/-- The value of NZS in a lane: the number of the non-zero lane at its rank, all ones past the last. -/
def Pane.nzsVal (p : Pane) (a : VSrc) (k : Nat) : Word :=
  match (p.nonzeroLanes a)[p.rank k]? with
  | some L => wordOfNat L
  | none => 0xFFFFFFFF

theorem filter_lanes_eq_nonzeroLanes (p : Pane) (a : VSrc) : p.lanes.filter (fun k => a.val p k != 0) = p.nonzeroLanes a := by
  rw [Pane.lanes, lanesOf, List.filter_filter, Pane.nonzeroLanes]
  exact List.filter_congr (fun L _ => Bool.and_comm _ _)

theorem nzsVal_past_last {p : Pane} {a : VSrc} {k : Nat} (hk : k ≤ 32)
    (hn : (p.nonzeroLanes a).length ≤ ((List.range k).filter p.active).length) : p.nzsVal a k = 0xFFFFFFFF := by
  have hget : (p.nonzeroLanes a)[p.rank k]? = none := by rw [rank_eq_length_filter p hk, List.getElem?_eq_none hn]
  simp only [Pane.nzsVal, hget]

theorem nzsVal_of_rank {p : Pane} {a : VSrc} {k L : Nat} (hk : k ≤ 32) (hL : L < 32) (hact : p.active L = true) (hx : a.val p L ≠ 0)
    (hr : ((List.range L).filter (fun M => p.active M && a.val p M != 0)).length = ((List.range k).filter p.active).length) :
    p.nzsVal a k = BitVec.ofNat 32 L := by
  have hsel : (p.active L && a.val p L != 0) = true := by rw [hact, Bool.true_and, bne_iff_ne]; exact hx
  have hget : (p.nonzeroLanes a)[p.rank k]? = some L := by
    rw [rank_eq_length_filter p hk, ← hr, Pane.nonzeroLanes, getElem?_filter_range _ hL hsel]
  simp only [Pane.nzsVal, hget, wordOfNat]

/-! ### The effect -/

/-- NZS: a result of the Y pipe, then a uniform write of the count. -/
theorem exec_nzs (w : Bool) (d : VDst) (u : SDst) (a : VSrc) (s : State) :
    exec (.nzs w d a u) s = .next (onPane (fun q => u.write q (BitVec.ofNat 32 (s.pane.nonzeroLanes a).length))
      (onPane (resultY w d (a.stale s.pane) (fun L => (s.pane.nzsVal a L, 0))) s)) := by
  simp only [Pane.nzsVal, ← filter_lanes_eq_nonzeroLanes]
  rfl

/-- A result of the Y pipe and then a uniform result: each holds of the pane before both. -/
theorem YEffect.then_sEffect {s y t : State} {w : Bool} {d : VDst} {f fl : Nat → Word} {lost : Bool} {u : SDst} {x : Word}
    (hy : YEffect s y w d f fl lost) (hu : SEffect y t u x) :
    VecIs s.pane t.pane w d f ∧ LatchIs s.pane s.pane.y1 t.pane.y1 f ∧ t.pane.y3 = s.pane.y1 ∧ UniIs s.pane t.pane u x ∧
      FlagsIs s.pane t.pane fl lost ∧
      t = { s with pane := { s.pane with v := t.pane.v, y1 := t.pane.y1, y3 := t.pane.y3, s := t.pane.s, xstat := t.pane.xstat } } := by
  obtain ⟨hys, hyp, hvec, hold, hlatch, hflags⟩ := hy
  obtain ⟨hts, htp, huni⟩ := hu
  unfold OnlyPane at hys hts
  unfold OnlyY at hyp
  unfold OnlyS at htp
  have hv : t.pane.v = y.pane.v := by rw [htp]
  have hy1 : t.pane.y1 = y.pane.y1 := by rw [htp]
  have hy3 : t.pane.y3 = y.pane.y3 := by rw [htp]
  have hx : t.pane.xstat = y.pane.xstat := by rw [htp]
  have hs : y.pane.s = s.pane.s := by rw [hyp]
  refine ⟨?_, hy1 ▸ hlatch, hy3 ▸ hold, ?_, ?_, ?_⟩
  · simpa only [VecIs, Pane.vreg, hv] using hvec
  · simpa only [UniIs, Pane.sreg, hs] using huni
  · simpa only [FlagsIs, hx] using hflags
  · rw [hts, hys, htp, hyp]

/-- Settles O16: NZS is a Y-pipe result and a uniform result, and its lanes' values follow their ranks. -/
theorem nzsWord : Obligations.NzsWord := by
  unfold Obligations.NzsWord
  intro s w d u a
  have hy := resultY_effect s w d (a.stale s.pane) (fun L => (s.pane.nzsVal a L, 0))
  refine ⟨_, s.pane.nzsVal a, (s.pane.nonzeroLanes a).length, exec_nzs w d u a s, rfl, ?_, hy.then_sEffect (sdst_effect _ u _)⟩
  rintro k ⟨hk, -⟩
  refine ⟨fun hn => nzsVal_past_last hk.le hn, ?_⟩
  rintro L ⟨hL, hact⟩ hx hr
  exact nzsVal_of_rank hk.le hL hact hx hr

end Sys2Proof.Machine
end
